-- ==== Sys2Proof/Word.lean ====
section
/-! DEFINITION. The word types, the format names, and the fields of an instruction word. -/

namespace Sys2Proof

/-- One byte. -/
abbrev Byte := BitVec 8
/-- A 12-bit operand field (R114), domain ID (R215) or node address (R407). -/
abbrev W12 := BitVec 12
/-- A 16-bit word. -/
abbrev W16 := BitVec 16
/-- A 32-bit word. -/
abbrev W32 := BitVec 32
/-- A 64-bit register (R12). -/
abbrev W64 := BitVec 64
/-- The index of a slice (R16). -/
abbrev SliceId := Fin 32
/-- A mailbox channel (R424). -/
abbrev Channel := Fin 16

/-- The stored formats of R45. -/
inductive Fmt where
  | fp32 | fp16 | bf16 | mxE4m3 | mxE5m2 | mxE3m2 | mxE2m3 | mxE2m1 | mxInt8
  | int32 | int16 | int8 | uint8 | mask1
deriving DecidableEq, Repr

/-- The fields of an instruction of classes 0x20 to 0xBF, the opcode apart (R113). -/
structure Fields where
  func    : BitVec 8
  dst     : W12
  srcA    : W12
  srcB    : W12
  srcC    : W12
  crec    : BitVec 2
  barrier : Bool
  trace   : Bool
  imm     : BitVec 56
deriving DecidableEq, Repr

/-- The fields of CALL (R116). -/
structure CallFields where
  routine : W12
  hbase   : BitVec 11
  tbase   : BitVec 5
  pred    : Bool
  cmp     : Fin 4
  sense   : Bool
deriving DecidableEq, Repr

/-- The fields of WAIT, its KIND apart (R116). -/
structure WaitFields where
  sem      : BitVec 8
  qmask    : BitVec 6
  timeout  : W32
  toMode   : Bool
  cmpEn    : Bool
  cmpHeld  : Fin 4
  cmpAband : Fin 4
deriving DecidableEq, Repr

/-- A CPORT access of a register, its direction apart (R400): the source node, SIZE and OFFSET. -/
structure RegAcc where
  src    : W12
  size   : BitVec 2
  offset : W16
deriving DecidableEq, Repr

/-- An inbound credited beat of a SPORT (R388, R392): its virtual channel, header and payload. -/
structure SpBeat where
  vc   : BitVec 2
  hdr  : W64
  data : List Byte
deriving DecidableEq, Repr

/-- A timed beat at its receiving port (R369, R390): the port (a SPORT or the receiving slice), the stream and phase it
carries, its payload, and the core cycle, counted from the receiving slice's tick edge, in which it arrives. -/
structure TimedBeat where
  sport  : Bool
  port   : Fin 32
  stream : W12
  phase  : BitVec 2
  cycle  : W32
  data   : List Byte
deriving DecidableEq, Repr

/-- What an MPORT response answers (R397): a slice instruction's tag; a page fix's write; a buffer access of the command
running on a channel, with the bytes already written; a contact-sheet copy; the latest completion record of a slice. -/
inductive MReq where
  | tag (t : W12)
  | fix (ctx : BitVec 15) (layer : BitVec 6)
  | command (ch : Channel) (written : W32)
  | spill
  | record (k : SliceId)
deriving DecidableEq, Repr

/-- An MPORT response (R395): what it answers, its kind, and its status: 0 OK, 1 ERROR, 2 POISON. -/
structure MResp where
  req    : MReq
  kind   : BitVec 2
  status : BitVec 2
deriving DecidableEq, Repr

/-- Where a word in error lies (R221, R330, R544): in the emulsion, a tile register, the slice store, or a page table in external
memory; `wrong` is an emulsion granule with four or more symbols in error that the controller corrects wrongly (R330). -/
inductive SoftPlace where
  | emul | tile | store | table | wrong
deriving DecidableEq, Repr

/-- A word that an instruction reads in error (R221, R330, R544), at a byte address; one error is corrected, two are not. A table
read in external memory fails by its response's status. -/
structure SoftErr where
  place  : SoftPlace
  addr   : W64
  double : Bool
deriving DecidableEq, Repr

/-- An operand of a command that reads memory, with the granules that it reads in error (R330, R331). -/
structure Reads (α : Type) where
  val  : α
  errs : List SoftErr
deriving DecidableEq, Repr

/-- A configuration frame of a slice (R496). -/
structure CfgErr where
  slice : SliceId
  frame : W12
deriving DecidableEq, Repr

/-- An emulsion granule found in error (R330): its column and offset. -/
structure EmulErr where
  col    : Fin 32
  offset : W32
deriving DecidableEq, Repr

/-- The granules of a patrol pass that were not corrected rightly (R330): found uncorrectable, and corrected wrongly. -/
structure PatrolErrs where
  ues   : List EmulErr
  wrong : List EmulErr
deriving DecidableEq, Repr

/-- Saturating addition on a counter that stops at `top`. -/
def satAdd (top a b : Nat) : Nat := min top (a + b)

/-- A natural number as a list of `n` bytes, least significant first (R10). -/
def leBytes : Nat → Nat → List Byte
  | 0, _ => []
  | n + 1, v => BitVec.ofNat 8 v :: leBytes n (v / 256)

/-- The natural number that bytes spell, least significant first (R10). -/
def ofLeBytes : List Byte → Nat
  | [] => 0
  | b :: bs => b.toNat + 256 * ofLeBytes bs

/-- Ceiling division. -/
def ceilDiv (a b : Nat) : Nat := (a + (b - 1)) / b

/-- Replace element `i` of a list by the image of itself; nothing where there is none. -/
def modifyNth {α : Type} (f : α → α) : Nat → List α → List α
  | _, [] => []
  | 0, a :: as => f a :: as
  | i + 1, a :: as => a :: modifyNth f i as

end Sys2Proof
end

