-- ==== Sys2Proof/Syntax.lean ====
section
/-! DEFINITION. The commands of the block: one constructor for each row of the opcode table. -/

namespace Sys2Proof

/-- The commands of the block (the rows of spec/opcode_table.json, in its order). A sequencer or engine instruction carries
the slice `k` that issues it; a register write carries the node `src` that sent it; a mailbox command carries its channel, and
`retries` how often the writes of its settings-store record had to be tried again (R493). -/
inductive Instr where
  /-- NOP (R116). -/
  | nop (k : SliceId)
  /-- CALL (R140). -/
  | call (k : SliceId) (f : CallFields)
  /-- RET (R140). -/
  | ret (k : SliceId)
  /-- STRIP (R129). -/
  | strip (k : SliceId) (shape : BitVec 11) (double : Bool)
  /-- ENDSTRIP (R130). -/
  | endstrip (k : SliceId)
  /-- WAIT_ACQUIRE (R144). -/
  | waitAcquire (k : SliceId) (f : WaitFields)
  /-- WAIT_DRAIN (R145). -/
  | waitDrain (k : SliceId) (f : WaitFields)
  /-- SIGNAL (R145). -/
  | signal (k : SliceId) (sem : Byte)
  /-- TICKWAIT (R106). -/
  | tickwait (k : SliceId)
  /-- CSET (R156). -/
  | cset (k : SliceId) (n : Fin 8) (imm : W32)
  /-- CADD (R156). -/
  | cadd (k : SliceId) (n : Fin 8) (imm : W32)
  /-- CADDC (R156). -/
  | caddc (k : SliceId) (n : Fin 8) (m : Fin 8)
  /-- CLDP (R156). -/
  | cldp (k : SliceId) (n : Fin 8) (p : Fin 64)
  /-- CCMPI (R157). -/
  | ccmpi (k : SliceId) (c : Fin 4) (n : Fin 8) (pred : BitVec 3) (signed : Bool) (imm : W32)
  /-- CCMPC (R157). -/
  | ccmpc (k : SliceId) (c : Fin 4) (n : Fin 8) (pred : BitVec 3) (signed : Bool) (m : Fin 8)
  /-- CLOGIC (R157). -/
  | clogic (k : SliceId) (c : Fin 4) (a : Fin 4) (b : Fin 4) (op : BitVec 3)
  /-- PSET (R159). -/
  | pset (k : SliceId) (p : Fin 64) (imm : BitVec 48)
  /-- PADD (R159). -/
  | padd (k : SliceId) (p : Fin 64) (q : Fin 64) (imm : W32)
  /-- PFROMC (R159). -/
  | pfromc (k : SliceId) (p : Fin 64) (n : Fin 8)
  /-- CWRAP (R156). -/
  | cwrap (k : SliceId) (n : Fin 8) (imm : W32)
  /-- ADD (R171). -/
  | add (k : SliceId) (f : Fields)
  /-- SUB (R171). -/
  | sub (k : SliceId) (f : Fields)
  /-- MUL (R171). -/
  | mul (k : SliceId) (f : Fields)
  /-- FMA (R171). -/
  | fma (k : SliceId) (f : Fields)
  /-- FNMA (R171). -/
  | fnma (k : SliceId) (f : Fields)
  /-- DIV (R175). -/
  | div (k : SliceId) (f : Fields)
  /-- MIN (R172). -/
  | min (k : SliceId) (f : Fields)
  /-- MAX (R172). -/
  | max (k : SliceId) (f : Fields)
  /-- CLAMP (R172). -/
  | clamp (k : SliceId) (f : Fields)
  /-- ABS (R171). -/
  | abs (k : SliceId) (f : Fields)
  /-- NEG (R171). -/
  | neg (k : SliceId) (f : Fields)
  /-- COPYSIGN (R171). -/
  | copysign (k : SliceId) (f : Fields)
  /-- TWOSUM (R180). -/
  | twosum (k : SliceId) (f : Fields)
  /-- TWOPROD (R180). -/
  | twoprod (k : SliceId) (f : Fields)
  /-- ROUNDINT (R174). -/
  | roundint (k : SliceId) (f : Fields)
  /-- BCAST (R174). -/
  | bcast (k : SliceId) (f : Fields)
  /-- RCP (R175). -/
  | rcp (k : SliceId) (f : Fields)
  /-- SQRT (R175). -/
  | sqrt (k : SliceId) (f : Fields)
  /-- RSQRT (R176). -/
  | rsqrt (k : SliceId) (f : Fields)
  /-- EXP (R176). -/
  | exp (k : SliceId) (f : Fields)
  /-- EXP2 (R176). -/
  | exp2 (k : SliceId) (f : Fields)
  /-- LOG (R176). -/
  | log (k : SliceId) (f : Fields)
  /-- LOG2 (R176). -/
  | log2 (k : SliceId) (f : Fields)
  /-- TANH (R176). -/
  | tanh (k : SliceId) (f : Fields)
  /-- SIGMOID (R176). -/
  | sigmoid (k : SliceId) (f : Fields)
  /-- SILU (R176). -/
  | silu (k : SliceId) (f : Fields)
  /-- GELU (R176). -/
  | gelu (k : SliceId) (f : Fields)
  /-- ERF (R176). -/
  | erf (k : SliceId) (f : Fields)
  /-- SOFTPLUS (R176). -/
  | softplus (k : SliceId) (f : Fields)
  /-- SIN (R176). -/
  | sin (k : SliceId) (f : Fields)
  /-- COS (R176). -/
  | cos (k : SliceId) (f : Fields)
  /-- CMP (R173). -/
  | cmp (k : SliceId) (f : Fields)
  /-- CLASS (R173). -/
  | classOf (k : SliceId) (f : Fields)
  /-- SELECT (R174). -/
  | select (k : SliceId) (f : Fields)
  /-- AND (R170). -/
  | and (k : SliceId) (f : Fields)
  /-- OR (R170). -/
  | or (k : SliceId) (f : Fields)
  /-- XOR (R170). -/
  | xor (k : SliceId) (f : Fields)
  /-- NOT (R170). -/
  | not (k : SliceId) (f : Fields)
  /-- SHL (R170). -/
  | shl (k : SliceId) (f : Fields)
  /-- SHR (R170). -/
  | shr (k : SliceId) (f : Fields)
  /-- IOTA (R174). -/
  | iota (k : SliceId) (f : Fields)
  /-- RSUM (R183). -/
  | rsum (k : SliceId) (f : Fields)
  /-- RSUMSQ (R183). -/
  | rsumsq (k : SliceId) (f : Fields)
  /-- RDOT (R183). -/
  | rdot (k : SliceId) (f : Fields)
  /-- RSUMC (R184). -/
  | rsumc (k : SliceId) (f : Fields)
  /-- RMAX (R186). -/
  | rmax (k : SliceId) (f : Fields)
  /-- RMIN (R186). -/
  | rmin (k : SliceId) (f : Fields)
  /-- RMASK (R187). -/
  | rmask (k : SliceId) (f : Fields)
  /-- SCAN (R189). -/
  | scan (k : SliceId) (f : Fields)
  /-- MOVE (R196). -/
  | move (k : SliceId) (f : Fields)
  /-- MOVET (R201). -/
  | movet (k : SliceId) (f : Fields)
  /-- FILL (R197). -/
  | fill (k : SliceId) (f : Fields)
  /-- PROOF (R198). -/
  | proof (k : SliceId) (f : Fields)
  /-- GATHER (R207). -/
  | gather (k : SliceId) (f : Fields)
  /-- SCATTER (R208). -/
  | scatter (k : SliceId) (f : Fields)
  /-- SCATTER_ADD (R209). -/
  | scatterAdd (k : SliceId) (f : Fields)
  /-- SCATTER_MAX (R211). -/
  | scatterMax (k : SliceId) (f : Fields)
  /-- SCATTER_MIN (R211). -/
  | scatterMin (k : SliceId) (f : Fields)
  /-- ATTN (R245). -/
  | attn (k : SliceId) (f : Fields)
  /-- MERGE (R257). -/
  | merge (k : SliceId) (f : Fields)
  /-- EXPAND (R259). -/
  | expand (k : SliceId) (f : Fields)
  /-- ATTN_BWD (R266). -/
  | attnBwd (k : SliceId) (f : Fields)
  /-- ROLL (R312). -/
  | roll (k : SliceId) (f : Fields)
  /-- TAKE (R320). -/
  | take (k : SliceId) (f : Fields)
  /-- RELEASE (R321). -/
  | release (k : SliceId) (f : Fields)
  /-- APPEND (R290). -/
  | append (k : SliceId) (f : Fields)
  /-- FIX (R294). -/
  | fix (k : SliceId) (f : Fields)
  /-- PAGEQ (R296). -/
  | pageq (k : SliceId) (f : Fields)
  /-- INSTRUCTION_START (R125): a slice, one of its units, and the words in error that the instruction reads (R330, R544). -/
  | instructionStart (k : SliceId) (u : Fin 6) (soft : List SoftErr)
  /-- INSTRUCTION_COMPLETE (R149). -/
  | instructionComplete (k : SliceId) (u : Fin 6)
  /-- PREDICATE_RESOLVE (R143): how many instructions were fetched of the fall-through path and of the routine. -/
  | predicateResolve (k : SliceId) (fall : Fin 9) (into : Fin 9)
  /-- SLICE_DRAIN_DONE (R468). -/
  | sliceDrainDone (k : SliceId)
  /-- BLOCK_TICK_EDGE (R360). -/
  | blockTickEdge
  /-- TICK_IN_EDGE (R358). -/
  | tickInEdge
  /-- FLYWHEEL_EDGE (R358). -/
  | flywheelEdge
  /-- HELD_EDGE (R363). -/
  | heldEdge (k : SliceId)
  /-- TIMESYNC_EDGE (R352). -/
  | timesyncEdge
  /-- SLEW_STEP (R353). -/
  | slewStep
  /-- TIMED_BEAT_SEND (R366). -/
  | timedBeatSend (k : SliceId) (stream : W12)
  /-- TIMED_BEAT_ARRIVE (R369). -/
  | timedBeatArrive (b : TimedBeat)
  /-- BEAT_LOST (R369): the stream, and the slot at whose end its beat is judged. -/
  | beatLost (k : SliceId) (stream : W12) (slot : W32)
  /-- SKID_RELEASE (R371). -/
  | skidRelease (k : SliceId) (stream : W12)
  /-- WAIT_TIMEOUT (R144). -/
  | waitTimeout (k : SliceId)
  /-- WAIT_FOR_SCAN (R551). -/
  | waitForScan
  /-- TRAY_FIX_DONE (R292). -/
  | trayFixDone (ctx : BitVec 15) (layer : BitVec 6)
  /-- FIX_WAIT_TIMEOUT (R293). -/
  | fixWaitTimeout (k : SliceId)
  /-- TRAY_PARK_DONE (R284). -/
  | trayParkDone (ctx : BitVec 15) (layer : BitVec 6)
  /-- TRAY_RESTORE_DONE (R285): the context and the layer. -/
  | trayRestoreDone (ctx : BitVec 15) (layer : Reads (BitVec 6))
  /-- FADE_STEP_START (R299). -/
  | fadeStepStart (pool : Fin 8)
  /-- FADE_STEP_RECORD (R299). -/
  | fadeStepRecord (ctx : BitVec 15)
  /-- FADE_STEP_WRITE (R299). -/
  | fadeStepWrite (ctx : BitVec 15)
  /-- FADE_STEP_FINISH (R299). -/
  | fadeStepFinish (ctx : BitVec 15)
  /-- KV_CLOSE_FINISH (R301). -/
  | kvCloseFinish (ctx : BitVec 15)
  /-- KV_HINT_UNPARK (R303). -/
  | kvHintUnpark (src : W12) (ctx : BitVec 15)
  /-- KV_HINT_KEEP (R303). -/
  | kvHintKeep (src : W12) (ctx : BitVec 15)
  /-- REEL_HEADER_ARRIVE (R316): the port (false A, true B), and the 64 bytes of the header. -/
  | reelHeaderArrive (port : Bool) (hdr : List Byte)
  /-- REEL_FORWARD_START (R316). -/
  | reelForwardStart (port : Bool)
  /-- REEL_LANDING_DONE (R317): the port, and the payload as it arrived. -/
  | reelLandingDone (port : Bool) (payload : List Byte)
  /-- REEL_HOLD_EXPIRE (R324). -/
  | reelHoldExpire (port : Bool)
  /-- LANDING_WAIT_EXPIRE (R321). -/
  | landingWaitExpire (port : Bool)
  /-- TAKE_TIMEOUT (R320). -/
  | takeTimeout (k : SliceId)
  /-- REEL_LINK_DOWN (R403). -/
  | reelLinkDown (port : Bool)
  /-- REEL_LINK_UP (R403). -/
  | reelLinkUp (port : Bool)
  /-- REEL_ABORT_MARKER (R404). -/
  | reelAbortMarker (port : Bool)
  /-- APERTURE_WRITE (R393). -/
  | apertureWrite (p : Fin 16) (b : SpBeat)
  /-- APERTURE_READ (R393). -/
  | apertureRead (p : Fin 16) (b : SpBeat)
  /-- SPORT_UP (R391). -/
  | sportUp (p : Fin 16)
  /-- SPORT_DOWN (R391). -/
  | sportDown (p : Fin 16)
  /-- MPORT_RESPONSE (R397). -/
  | mportResponse (r : MResp)
  /-- TRANSLATION_WALK_DONE (R221): the domain and the address. -/
  | translationWalkDone (domain : W12) (va : Reads (BitVec 56))
  /-- TLB_INVAL_RANGE (R223). -/
  | tlbInvalRange (src : W12) (domain : W12) (pages : W32)
  /-- TLB_INVAL_WHOLE (R223). -/
  | tlbInvalWhole (src : W12) (domain : W12)
  /-- TLB_INVAL_ALL (R223). -/
  | tlbInvalAll (src : W12)
  /-- TLB_INVAL_DONE (R223). -/
  | tlbInvalDone
  /-- DOM_SEL (R534). -/
  | domSel (src : W12) (data : W64)
  /-- DOM_COMMIT (R534). -/
  | domCommit (src : W12)
  /-- DOM_COMMIT_DONE (R534). -/
  | domCommitDone
  /-- SEC_CFG_OWNER (R535). -/
  | secCfgOwner (src : W12) (data : W64)
  /-- SEC_UNLOCK_GO (R537). -/
  | secUnlockGo (src : W12) (scope : Byte)
  /-- SEM_TRY_ACQUIRE (R549). -/
  | semTryAcquire (src : W12) (sem : Byte)
  /-- SEM_RELEASE (R549). -/
  | semRelease (src : W12) (sem : Byte)
  /-- SEM_FORCE_RELEASE (R550). -/
  | semForceRelease (src : W12) (sem : Byte)
  /-- MB_DOORBELL (R425). -/
  | mbDoorbell (src : W12) (ch : Channel)
  /-- MB_CPL_POP (R427). -/
  | mbCplPop (src : W12) (ch : Channel)
  /-- MAILBOX_REQUEST_START (R426). -/
  | mailboxRequestStart
  /-- COMMAND_TIMEOUT (R433). -/
  | commandTimeout (ch : Channel)
  /-- CS_SPILL (R382). -/
  | csSpill (src : W12) (data : W64)
  /-- CS_RD (R383). -/
  | csRd (src : W12) (data : W64)
  /-- CRING_PTR_RD (R155). -/
  | cringPtrRd (src : W12) (k : SliceId) (rd : W16)
  /-- IRQ_STATUS_CLEAR (R406). -/
  | irqStatusClear (src : W12) (mask : BitVec 9)
  /-- REGISTER_READ_CLEAR (R12). -/
  | registerReadClear (a : RegAcc)
  /-- REGISTER_WRITE (R12). -/
  | registerWrite (a : RegAcc) (data : W64)
  /-- PING (R439). -/
  | ping (ch : Channel)
  /-- GET_FEATURES (R439). -/
  | getFeatures (ch : Channel)
  /-- LOAD_LIBRARY (R440). -/
  | loadLibrary (ch : Channel)
  /-- LOAD_PROGRAM (R441). -/
  | loadProgram (ch : Channel)
  /-- VERIFY (R442). -/
  | verify (ch : Channel)
  /-- ARM (R443). -/
  | arm (ch : Channel)
  /-- START (R444). -/
  | start (ch : Channel)
  /-- STOP_BATH (R445). -/
  | stopBath (ch : Channel)
  /-- SLICE_SERVICE (R446). -/
  | sliceService (ch : Channel)
  /-- MIGRATE (R481). -/
  | migrate (ch : Channel)
  /-- MIGRATE_DRAIN_TIMEOUT (R483): the writes that are not acknowledged. -/
  | migrateDrainTimeout (ch : Channel) (unacked : W32)
  /-- MIGRATE_COPY_DONE (R481). -/
  | migrateCopyDone (ch : Channel)
  /-- SET_SETTING (R450). -/
  | setSetting (ch : Channel) (retries : BitVec 4)
  /-- GET_SETTING (R450). -/
  | getSetting (ch : Channel)
  /-- KV_POOL_CONFIG (R448). -/
  | kvPoolConfig (ch : Channel)
  /-- KV_SEQ_OPEN (R449). -/
  | kvSeqOpen (ch : Channel)
  /-- KV_SEQ_CLOSE (R301). -/
  | kvSeqClose (ch : Channel)
  /-- KV_SEQ_QUERY (R449). -/
  | kvSeqQuery (ch : Channel)
  /-- PATCH_BRACKET (R447). -/
  | patchBracket (ch : Channel)
  /-- READ_CONTACT_SHEET (R451). -/
  | readContactSheet (ch : Channel)
  /-- DUMP_SLICE (R556). -/
  | dumpSlice (ch : Channel)
  /-- SET_CUT (R553). -/
  | setCut (ch : Channel)
  /-- POWER_CAP (R506). -/
  | powerCap (ch : Channel) (retries : BitVec 4)
  /-- THERMAL_PARAMS (R514). -/
  | thermalParams (ch : Channel) (retries : BitVec 4)
  /-- FW_STAGE (R486). -/
  | fwStage (ch : Channel) (retries : BitVec 4)
  /-- FW_ACTIVATE (R487). -/
  | fwActivate (ch : Channel) (retries : BitVec 4)
  /-- FW_COMMIT (R490). -/
  | fwCommit (ch : Channel) (retries : BitVec 4)
  /-- FW_ROLLBACK (R491). -/
  | fwRollback (ch : Channel) (retries : BitVec 4)
  /-- GET_CERT (R454). -/
  | getCert (ch : Channel)
  /-- ATTEST (R531). -/
  | attest (ch : Channel)
  /-- SCRUB_STATUS (R439). -/
  | scrubStatus (ch : Channel)
  /-- REPAIR (R455). -/
  | repair (ch : Channel) (retries : BitVec 4)
  /-- TIMESYNC (R353). -/
  | timesync (ch : Channel)
  /-- FW_BOOT (R487). -/
  | fwBoot
  /-- WATCHDOG_EXPIRY (R492). -/
  | watchdogExpiry
  /-- SLICE_ENTRY_CHECK (R469): the frame that failed, if any. -/
  | sliceEntryCheck (k : SliceId) (bad : Option W12)
  /-- WAKE_ADMIT (R518). -/
  | wakeAdmit
  /-- CFG_SCRUB_PASS (R497): the frames corrected, the frames found uncorrectable, and whether the pass ended late. -/
  | cfgScrubPass (single : List CfgErr) (double : List CfgErr) (late : Bool)
  /-- SPARE_COPY_DONE (R341): the column, and the retries that the write of the spare map needed. -/
  | spareCopyDone (col : Fin 32) (retries : Reads (BitVec 4))
  /-- EMUL_PATROL_PASS (R334): the granules corrected in the pass, and the others that it found. -/
  | emulPatrolPass (ces : List EmulErr) (ues : PatrolErrs)
  /-- EMUL_THERMAL_SAMPLE (R336): tier `i` of column `c` at place `4 c + i`, in 0.25 °C. -/
  | emulThermalSample (temps : List (BitVec 10))
  /-- EMUL_HALT_REPORT (R338). -/
  | emulHaltReport (col : Fin 32)
  /-- EMUL_TRAINING_DONE (R344): the columns that failed, the lanes repaired in each, and whether the spare map read back right. -/
  | emulTrainingDone (failed : W32) (lanes : List (BitVec 4)) (mapOk : Bool)
  /-- EMUL_INIT_DONE (R345). -/
  | emulInitDone
  /-- POWER_SAMPLE (R502): the power of each quadrant, of the hub and of the emulsion over one µs, in µW. -/
  | powerSample (quads : List W32) (hub : W32) (emul : W32)
  /-- CAP_WINDOW_CLOSE (R505). -/
  | capWindowClose
  /-- POWER_EVALUATION (R507). -/
  | powerEvaluation
  /-- THERMAL_EVALUATION (R512). -/
  | thermalEvaluation
  /-- LOGIC_SENSOR_SAMPLE (R511): sensor `4 q + i` of quadrant `q`, and that of the hub, in 0.25 °C. -/
  | logicSensorSample (temps : List (BitVec 10)) (hub : BitVec 10)
  /-- EMUL_LIMIT_STEP (R517). -/
  | emulLimitStep
  /-- ARRAY_CLOCK_GATE (R520). -/
  | arrayClockGate (k : SliceId)
  /-- DVFS_ACK (R394). -/
  | dvfsAck
  /-- DVFS_SWITCH (R394). -/
  | dvfsSwitch
  /-- DVFS_TIMEOUT (R394). -/
  | dvfsTimeout
  /-- SUPPLY_WARN (R522). -/
  | supplyWarn
  /-- CLAMP_END (R522). -/
  | clampEnd
  /-- ENUM_ASSIGN (R408): the source, the data, and whether ENUM_IN has been asserted for 1 µs without a break. -/
  | enumAssign (src : W12) (data : W64) (enumIn : Bool)
  /-- RESET_ASSERT (R418). -/
  | resetAssert
  /-- RESET_RELEASE (R411). -/
  | resetRelease
  /-- PLL_LOCK (R412). -/
  | pllLock (lockUs : W16)
  /-- PLL_LOCK_TIMEOUT (R413). -/
  | pllLockTimeout
  /-- ZEROING_DONE (R414). -/
  | zeroingDone
  /-- ROM_BOOT_DONE (R529). -/
  | romBootDone
  /-- TEST_INSTRUCTION_LOAD (R419). -/
  | testInstructionLoad (wir : BitVec 3)
  /-- REGULATOR_SETTLED (R34). -/
  | regulatorSettled
  /-- SUPPLY_WARN_DEASSERTED (R522). -/
  | supplyWarnDeasserted
  /-- SPORT_CREDIT_RETURN (R391). -/
  | sportCreditReturn (p : Fin 16) (vc : Fin 4)
  /-- REEL_CREDIT_RETURN (R403). -/
  | reelCreditReturn (port : Bool) (n : BitVec 5)
  /-- INBOUND_VC2_BEAT (R389). -/
  | inboundVc2Beat (p : Fin 16)
  /-- IJTAG_INSTRUMENT_ACCESS (R419). -/
  | ijtagInstrumentAccess (inst : BitVec 3)
  /-- WRSTN_ASSERT (R419). -/
  | wrstnAssert
deriving DecidableEq, Repr

end Sys2Proof
end

