-- ==== Sys2Proof/WellFormed.lean ====
section
/-! DEFINITION. Which terms of Instr are commands that the specification admits: reserved field values are refused here. -/

namespace Sys2Proof

/-- An operand field names a handle, a tile register T0 to T31, or nothing (R114). -/
def operandFieldOk (w : W12) : Bool := decide (w.toNat < 2080) || w == 0xFFF

/-- The general fields of an engine instruction (R113, R114): operand fields, CREC 0 to 2. -/
def Fields.wf (f : Fields) : Bool :=
  operandFieldOk f.dst && operandFieldOk f.srcA && operandFieldOk f.srcB && operandFieldOk f.srcC && f.crec != 3

/-- The fields of WAIT that Onori accepts (R144). -/
def WaitFields.wf (f : WaitFields) : Bool := (!f.toMode || f.cmpEn) && (!f.cmpEn || f.cmpHeld != f.cmpAband)

/-- A credited beat of a SPORT: virtual channel 1 or 3 (R389). -/
def SpBeat.wf (b : SpBeat) : Bool := b.vc == 1 || b.vc == 3

/-- An MPORT response with a kind and a status that are not reserved (R395). -/
def MResp.wf (r : MResp) : Bool := r.kind != 3 && r.status != 3

/-- A command is well formed. -/
def Instr.wf : Instr → Bool
  | .waitAcquire _ f | .waitDrain _ f => f.wf
  | .ccmpi _ _ _ p _ _ | .ccmpc _ _ _ p _ _ => decide (p.toNat < 6)
  | .add _ f | .sub _ f | .mul _ f | .fma _ f | .fnma _ f | .div _ f | .min _ f | .max _ f | .clamp _ f | .abs _ f | .neg _ f
  | .copysign _ f | .twosum _ f | .twoprod _ f | .roundint _ f | .bcast _ f | .rcp _ f | .sqrt _ f | .rsqrt _ f | .exp _ f
  | .exp2 _ f | .log _ f | .log2 _ f | .tanh _ f | .sigmoid _ f | .silu _ f | .gelu _ f | .erf _ f | .softplus _ f | .sin _ f
  | .cos _ f | .cmp _ f | .classOf _ f | .select _ f | .and _ f | .or _ f | .xor _ f | .not _ f | .shl _ f | .shr _ f
  | .iota _ f | .rsum _ f | .rsumsq _ f | .rdot _ f | .rsumc _ f | .rmax _ f | .rmin _ f | .rmask _ f | .scan _ f | .move _ f
  | .movet _ f | .fill _ f | .proof _ f | .gather _ f | .scatter _ f | .scatterAdd _ f | .scatterMax _ f | .scatterMin _ f
  | .attn _ f | .merge _ f | .expand _ f | .attnBwd _ f | .roll _ f | .take _ f | .append _ f | .fix _ f
  | .pageq _ f => f.wf
  | .release _ f => f.wf && f.barrier
  | .reelHeaderArrive _ h => decide (h.length = 64)
  | .apertureWrite _ b | .apertureRead _ b => b.wf
  | .mportResponse r => r.wf
  | .powerSample q _ _ => decide (q.length = 4)
  | .logicSensorSample t _ => decide (t.length = 16)
  | .emulThermalSample t => decide (t.length = 128)
  | .reelCreditReturn _ n => decide (n.toNat ≤ 25)
  | _ => true

end Sys2Proof
end

