-- ==== Sys2Proof/Decode.lean ====
section
/-! DEFINITION. The 128-bit instruction words of R11: what each spells (R113, R116, R144, R156), and the words of an instruction; the
commands that words spell by the table's bits: no row of spec/opcode_table.json gives bits. -/

namespace Sys2Proof

/-- The command that a word of `nbits` bits spells: none, as no row of the table has bits. -/
def decodeTableWord (_nbits _w : Nat) : Option Instr := none

/-! ### Instruction words (R11) -/

/-- The field of `n` bits of a word whose lowest is bit `lo`. -/
abbrev wordField (w : BitVec 128) (lo n : Nat) : BitVec n := w.extractLsb' lo n

/-- The general fields of an instruction of classes 0x20 to 0xBF (R113). -/
def decodeFields (w : BitVec 128) : Fields :=
  ⟨wordField w 112 8, wordField w 100 12, wordField w 88 12, wordField w 76 12, wordField w 64 12, wordField w 62 2, w.getLsbD 61,
    w.getLsbD 60, wordField w 0 56⟩

/-- The word of an opcode and its general fields (R11, R113). -/
def encodeFields (op : Byte) (f : Fields) : BitVec 128 :=
  op ++ f.func ++ f.dst ++ f.srcA ++ f.srcB ++ f.srcC ++ f.crec ++ BitVec.ofBool f.barrier ++ BitVec.ofBool f.trace ++ 0#4 ++ f.imm

/-- The fields of CALL (R116). -/
def decodeCall (w : BitVec 128) : CallFields :=
  ⟨wordField w 108 12, wordField w 97 11, wordField w 92 5, w.getLsbD 91, (wordField w 89 2).toFin, w.getLsbD 88⟩

/-- The word of CALL (R116). -/
def encodeCall (f : CallFields) : BitVec 128 :=
  0x01#8 ++ f.routine ++ f.hbase ++ f.tbase ++ BitVec.ofBool f.pred ++ BitVec.ofFin (w := 2) f.cmp ++ BitVec.ofBool f.sense ++ 0#88

/-- The fields of WAIT (R116). -/
def decodeWait (w : BitVec 128) : WaitFields :=
  ⟨wordField w 110 8, wordField w 104 6, wordField w 72 32, w.getLsbD 71, w.getLsbD 70, (wordField w 68 2).toFin,
    (wordField w 66 2).toFin⟩

/-- The word of WAIT with a KIND (R116). -/
def encodeWait (kind : BitVec 2) (f : WaitFields) : BitVec 128 :=
  0x05#8 ++ kind ++ f.sem ++ f.qmask ++ f.timeout ++ BitVec.ofBool f.toMode ++ BitVec.ofBool f.cmpEn ++
    BitVec.ofFin (w := 2) f.cmpHeld ++ BitVec.ofFin (w := 2) f.cmpAband ++ 0#66

/-- The engine instruction of an opcode (R115, R166, R181, R193, R245, R289, R309). -/
def engineInstr (k : SliceId) (f : Fields) : Nat → Option Instr
  | 0x20 => some (.add k f)
  | 0x21 => some (.sub k f)
  | 0x22 => some (.mul k f)
  | 0x23 => some (.fma k f)
  | 0x24 => some (.fnma k f)
  | 0x25 => some (.div k f)
  | 0x26 => some (.min k f)
  | 0x27 => some (.max k f)
  | 0x28 => some (.clamp k f)
  | 0x29 => some (.abs k f)
  | 0x2A => some (.neg k f)
  | 0x2B => some (.copysign k f)
  | 0x2C => some (.twosum k f)
  | 0x2D => some (.twoprod k f)
  | 0x2E => some (.roundint k f)
  | 0x2F => some (.bcast k f)
  | 0x30 => some (.rcp k f)
  | 0x31 => some (.sqrt k f)
  | 0x32 => some (.rsqrt k f)
  | 0x33 => some (.exp k f)
  | 0x34 => some (.exp2 k f)
  | 0x35 => some (.log k f)
  | 0x36 => some (.log2 k f)
  | 0x37 => some (.tanh k f)
  | 0x38 => some (.sigmoid k f)
  | 0x39 => some (.silu k f)
  | 0x3A => some (.gelu k f)
  | 0x3B => some (.erf k f)
  | 0x3C => some (.softplus k f)
  | 0x3D => some (.sin k f)
  | 0x3E => some (.cos k f)
  | 0x40 => some (.cmp k f)
  | 0x41 => some (.classOf k f)
  | 0x42 => some (.select k f)
  | 0x48 => some (.and k f)
  | 0x49 => some (.or k f)
  | 0x4A => some (.xor k f)
  | 0x4B => some (.not k f)
  | 0x4C => some (.shl k f)
  | 0x4D => some (.shr k f)
  | 0x4E => some (.iota k f)
  | 0x60 => some (.rsum k f)
  | 0x61 => some (.rsumsq k f)
  | 0x62 => some (.rdot k f)
  | 0x63 => some (.rsumc k f)
  | 0x64 => some (.rmax k f)
  | 0x65 => some (.rmin k f)
  | 0x66 => some (.rmask k f)
  | 0x67 => some (.scan k f)
  | 0x70 => some (.move k f)
  | 0x71 => some (.movet k f)
  | 0x72 => some (.fill k f)
  | 0x73 => some (.proof k f)
  | 0x80 => some (.gather k f)
  | 0x81 => some (.scatter k f)
  | 0x82 => some (.scatterAdd k f)
  | 0x83 => some (.scatterMax k f)
  | 0x84 => some (.scatterMin k f)
  | 0x90 => some (.attn k f)
  | 0x91 => some (.merge k f)
  | 0x92 => some (.expand k f)
  | 0x93 => some (.attnBwd k f)
  | 0xA0 => some (.roll k f)
  | 0xA1 => some (.take k f)
  | 0xA2 => some (.release k f)
  | 0xB0 => some (.append k f)
  | 0xB1 => some (.fix k f)
  | 0xB2 => some (.pageq k f)
  | _ => none

/-- The slice, opcode and fields of an instruction that a unit runs, by the opcode tables (R115, R160, R181, R191, R207, R245, R289,
R309); the control and scalar instructions, and the block's other commands, have none. -/
def Instr.engine? : Instr → Option (SliceId × Nat × Fields)
  | .add k f => some (k, 0x20, f)
  | .sub k f => some (k, 0x21, f)
  | .mul k f => some (k, 0x22, f)
  | .fma k f => some (k, 0x23, f)
  | .fnma k f => some (k, 0x24, f)
  | .div k f => some (k, 0x25, f)
  | .min k f => some (k, 0x26, f)
  | .max k f => some (k, 0x27, f)
  | .clamp k f => some (k, 0x28, f)
  | .abs k f => some (k, 0x29, f)
  | .neg k f => some (k, 0x2A, f)
  | .copysign k f => some (k, 0x2B, f)
  | .twosum k f => some (k, 0x2C, f)
  | .twoprod k f => some (k, 0x2D, f)
  | .roundint k f => some (k, 0x2E, f)
  | .bcast k f => some (k, 0x2F, f)
  | .rcp k f => some (k, 0x30, f)
  | .sqrt k f => some (k, 0x31, f)
  | .rsqrt k f => some (k, 0x32, f)
  | .exp k f => some (k, 0x33, f)
  | .exp2 k f => some (k, 0x34, f)
  | .log k f => some (k, 0x35, f)
  | .log2 k f => some (k, 0x36, f)
  | .tanh k f => some (k, 0x37, f)
  | .sigmoid k f => some (k, 0x38, f)
  | .silu k f => some (k, 0x39, f)
  | .gelu k f => some (k, 0x3A, f)
  | .erf k f => some (k, 0x3B, f)
  | .softplus k f => some (k, 0x3C, f)
  | .sin k f => some (k, 0x3D, f)
  | .cos k f => some (k, 0x3E, f)
  | .cmp k f => some (k, 0x40, f)
  | .classOf k f => some (k, 0x41, f)
  | .select k f => some (k, 0x42, f)
  | .and k f => some (k, 0x48, f)
  | .or k f => some (k, 0x49, f)
  | .xor k f => some (k, 0x4A, f)
  | .not k f => some (k, 0x4B, f)
  | .shl k f => some (k, 0x4C, f)
  | .shr k f => some (k, 0x4D, f)
  | .iota k f => some (k, 0x4E, f)
  | .rsum k f => some (k, 0x60, f)
  | .rsumsq k f => some (k, 0x61, f)
  | .rdot k f => some (k, 0x62, f)
  | .rsumc k f => some (k, 0x63, f)
  | .rmax k f => some (k, 0x64, f)
  | .rmin k f => some (k, 0x65, f)
  | .rmask k f => some (k, 0x66, f)
  | .scan k f => some (k, 0x67, f)
  | .move k f => some (k, 0x70, f)
  | .movet k f => some (k, 0x71, f)
  | .fill k f => some (k, 0x72, f)
  | .proof k f => some (k, 0x73, f)
  | .gather k f => some (k, 0x80, f)
  | .scatter k f => some (k, 0x81, f)
  | .scatterAdd k f => some (k, 0x82, f)
  | .scatterMax k f => some (k, 0x83, f)
  | .scatterMin k f => some (k, 0x84, f)
  | .attn k f => some (k, 0x90, f)
  | .merge k f => some (k, 0x91, f)
  | .expand k f => some (k, 0x92, f)
  | .attnBwd k f => some (k, 0x93, f)
  | .roll k f => some (k, 0xA0, f)
  | .take k f => some (k, 0xA1, f)
  | .release k f => some (k, 0xA2, f)
  | .append k f => some (k, 0xB0, f)
  | .fix k f => some (k, 0xB1, f)
  | .pageq k f => some (k, 0xB2, f)
  | _ => none

/-- The control or scalar instruction of an opcode (R116, R156). -/
def controlInstr (k : SliceId) (w : BitVec 128) : Nat → Option Instr
  | 0x00 => some (.nop k)
  | 0x01 => some (.call k (decodeCall w))
  | 0x02 => some (.ret k)
  | 0x03 => some (.strip k (wordField w 109 11) (w.getLsbD 108))
  | 0x04 => some (.endstrip k)
  | 0x05 =>
    if wordField w 118 2 = 0 then some (.waitAcquire k (decodeWait w))
    else if wordField w 118 2 = 1 then some (.waitDrain k (decodeWait w)) else none
  | 0x06 => some (.signal k (wordField w 112 8))
  | 0x07 => some (.tickwait k)
  | 0x10 => some (.cset k (wordField w 117 3).toFin (wordField w 0 32))
  | 0x11 => some (.cadd k (wordField w 117 3).toFin (wordField w 0 32))
  | 0x12 => some (.caddc k (wordField w 117 3).toFin (wordField w 114 3).toFin)
  | 0x13 => some (.cldp k (wordField w 117 3).toFin (wordField w 108 6).toFin)
  | 0x14 => some (.ccmpi k (wordField w 118 2).toFin (wordField w 115 3).toFin (wordField w 112 3) (w.getLsbD 111) (wordField w 0 32))
  | 0x15 => some (.ccmpc k (wordField w 118 2).toFin (wordField w 115 3).toFin (wordField w 112 3) (w.getLsbD 111)
      (wordField w 108 3).toFin)
  | 0x16 => some (.clogic k (wordField w 118 2).toFin (wordField w 116 2).toFin (wordField w 114 2).toFin (wordField w 111 3))
  | 0x17 => some (.pset k (wordField w 114 6).toFin (wordField w 0 48))
  | 0x18 => some (.padd k (wordField w 114 6).toFin (wordField w 108 6).toFin (wordField w 0 32))
  | 0x19 => some (.pfromc k (wordField w 114 6).toFin (wordField w 111 3).toFin)
  | 0x1A => some (.cwrap k (wordField w 117 3).toFin (wordField w 0 32))
  | _ => none

/-- A number below 2^n as n bits. -/
abbrev finBits {n : Nat} (i : Fin (2 ^ n)) : BitVec n := BitVec.ofFin i

/-- The word of a control or scalar instruction (R116, R156). -/
def Instr.controlWord? : Instr → Option (BitVec 128)
  | .nop _ => some 0
  | .call _ f => some (encodeCall f)
  | .ret _ => some (0x02#8 ++ 0#120)
  | .strip _ shape double => some (0x03#8 ++ shape ++ BitVec.ofBool double ++ 0#108)
  | .endstrip _ => some (0x04#8 ++ 0#120)
  | .waitAcquire _ f => some (encodeWait 0 f)
  | .waitDrain _ f => some (encodeWait 1 f)
  | .signal _ sem => some (0x06#8 ++ sem ++ 0#112)
  | .tickwait _ => some (0x07#8 ++ 0#120)
  | .cset _ n imm => some (0x10#8 ++ finBits (n := 3) n ++ 0#85 ++ imm)
  | .cadd _ n imm => some (0x11#8 ++ finBits (n := 3) n ++ 0#85 ++ imm)
  | .caddc _ n m => some (0x12#8 ++ finBits (n := 3) n ++ finBits (n := 3) m ++ 0#114)
  | .cldp _ n p => some (0x13#8 ++ finBits (n := 3) n ++ 0#3 ++ finBits (n := 6) p ++ 0#108)
  | .ccmpi _ c n pred sg imm =>
    some (0x14#8 ++ finBits (n := 2) c ++ finBits (n := 3) n ++ pred ++ BitVec.ofBool sg ++ 0#79 ++ imm)
  | .ccmpc _ c n pred sg m =>
    some (0x15#8 ++ finBits (n := 2) c ++ finBits (n := 3) n ++ pred ++ BitVec.ofBool sg ++ finBits (n := 3) m ++ 0#108)
  | .clogic _ c a b op => some (0x16#8 ++ finBits (n := 2) c ++ finBits (n := 2) a ++ finBits (n := 2) b ++ op ++ 0#111)
  | .pset _ p imm => some (0x17#8 ++ finBits (n := 6) p ++ 0#66 ++ imm)
  | .padd _ p q imm => some (0x18#8 ++ finBits (n := 6) p ++ finBits (n := 6) q ++ 0#76 ++ imm)
  | .pfromc _ p n => some (0x19#8 ++ finBits (n := 6) p ++ finBits (n := 3) n ++ 0#111)
  | .cwrap _ n imm => some (0x1A#8 ++ finBits (n := 3) n ++ 0#85 ++ imm)
  | _ => none

/-- The 128-bit word of an instruction; none for a command that is no instruction. -/
def encodeWord (i : Instr) : Option (BitVec 128) :=
  match i.engine? with
  | some (_, op, f) => some (encodeFields (BitVec.ofNat 8 op) f)
  | none => i.controlWord?

/-- The instruction that a word's opcode, bits [127:120], picks, with its fields; reserved bits are not looked at. -/
def decodeOpcode (k : SliceId) (w : BitVec 128) : Option Instr :=
  let op := (wordField w 120 8).toNat
  if op < 0x20 then controlInstr k w op else engineInstr k (decodeFields w) op

/-- The well-formed instruction that a word spells for slice `k`; none for a reserved opcode, a reserved bit that is not 0, or a reserved
value of a field (R11, R113 to R116, R156, R157). -/
def decodeWord (k : SliceId) (w : BitVec 128) : Option Instr :=
  (decodeOpcode k w).filter fun i => i.wf && encodeWord i == some w

end Sys2Proof
end

