-- ==== Sys2Proof/Config.lean ====
section
/-! DEFINITION. The values that the specification leaves open: opaque constants, so that no proof sees a value of one. -/

namespace Sys2Proof.Config

/-- The n-th free value drawn: what the specification calls unspecified (R69, R104, R147, R208, R219). -/
opaque freeValue : Nat → BitVec 64

/-- Which value within its bound (R176) an approximated function returns, by function and FP32 operand bits.
R175: one input bit pattern gives one output bit pattern. -/
opaque approxPick : Nat → BitVec 32 → Nat

/-- The steps of a nondecreasing curve of each approximated function that R178 makes monotone, as (operand key, result key): the result
is the largest of the steps at or below the operand, brought within the bound (R175, R176, R178). -/
opaque approxSteps : Nat → List (Int × Int)

/-- The bound that proof screening computes for a page and a row, from their values: a mantissa and an exponent, brought between the
exact interval bound and 2^-18 of its magnitude above it (R262, R264). -/
opaque screenBound : List Int → Int × Int

/-- The byte of the attention staging area at an address, after the n-th block that it took: which byte of a block lies where is not
given (R24, R234). -/
opaque stagedByte : Nat → Nat → Byte

/-- The code of the contact-sheet entry of an ATTN item that reached its fade point: R253 asks for the entry, R545 and R546 give it no
code. -/
opaque fadeItemCode : W16

/-- The line that the patrol has reached, by the passes completed and the time (R335, R346). -/
opaque patrolLine : Nat → Nat → Nat

/-- The set of the hub TLB in which a leaf lies, by domain, address and size (R222, R560: a fixed mapping that is not given). -/
opaque tlbSet : Nat → Nat → Nat → Nat

/-- The version of the firmware that a new part carries in slot A (R439). -/
opaque factoryVersion : BitVec 32

/-- The bytes of a certificate of the device chain, by certificate number (R527). -/
opaque certificate : Nat → List Byte

/-- An SPDM request is well formed for its code; NEGOTIATE_ALGORITHMS offers the four algorithms (R531): SPDM's formats are not given. -/
opaque spdmGood : List Byte → Bool

/-- The response of the security unit to an SPDM request that it can take, or that is not well formed (R531, R532): message contents are
cryptographic, and SPDM's formats are not given. -/
opaque spdmResponse : List Byte → List Byte

/-- The connection state of the security unit after an SPDM request (R531), in the numbering of the model. -/
opaque spdmNext : List Byte → Nat

/-- The security version of the firmware that a new part carries (R439, R530). -/
opaque factorySvn : BitVec 6

/-- Whether a signature verifies over an image, by its bytes and the key's number (R529). -/
opaque signatureValid : Nat → List Byte → Bool

/-- The SHA-384 digest of bytes (R440, R486). -/
opaque digest : List Byte → List Byte

/-- The core cycles of the longest frame of an image, the first array clock ramp left out: the timed analysis of Onori, whose method is not
given (R36, R368, R462, R521). -/
opaque frameCycles : List Byte → Nat

/-- The version that a firmware image carries (R439: the block fixes no value of its own; its place is not given). -/
opaque imageVersion : List Byte → BitVec 32

/-- The settings schema of a firmware image (R457, R489). -/
opaque imageSchema : List Byte → Nat

/-- Whether a firmware image reads stored settings of a schema (R487). -/
opaque readsSchema : List Byte → Nat → Bool

/-- Word `j` of the n-th unlock nonce (R537). -/
opaque nonce : Nat → Nat → BitVec 64

end Sys2Proof.Config
end

