-- ==== Sys2Proof/Machine/Num.lean ====
section
/-! DEFINITION. Numbers: exact values, the codes of the formats (R45 to R51), and rounding (R61, R63). -/

namespace Sys2Proof.Machine

/-- An exact value: a NaN, an infinity, or (-1)^neg * m * 2^e (a signed zero where m = 0). -/
inductive Val where
  | nan
  | inf (neg : Bool)
  | fin (neg : Bool) (m : Nat) (e : Int)
deriving DecidableEq, Repr

/-- +0. -/
def Val.zero : Val := .fin false 0 0
/-- 1. -/
def Val.one : Val := .fin false 1 0

/-- The sign; a NaN counts as positive (R92). -/
def Val.neg? : Val → Bool
  | .nan => false
  | .inf s => s
  | .fin s _ _ => s

/-- A NaN or an infinity. -/
def Val.nonfinite : Val → Bool
  | .fin _ _ _ => false
  | _ => true

/-- A zero of either sign. -/
def Val.isZero : Val → Bool
  | .fin _ m _ => m == 0
  | _ => false

/-- The number with its sign inverted. -/
def Val.negate : Val → Val
  | .nan => .nan
  | .inf s => .inf (!s)
  | .fin s m e => .fin (!s) m e

/-- The number with its sign cleared. -/
def Val.abs : Val → Val
  | .nan => .nan
  | .inf _ => .inf false
  | .fin _ m e => .fin false m e

/-- An integer as a number; zero is +0. -/
def Val.ofInt (i : Int) : Val := .fin (decide (i < 0)) i.natAbs 0

/-- The exact product; the sign is the exclusive-or of the signs (R78), and 0 * infinity is NaN. -/
def Val.mul : Val → Val → Val
  | .nan, _ => .nan
  | _, .nan => .nan
  | .inf s, .inf t => .inf (s != t)
  | .inf s, .fin t m _ => if m = 0 then .nan else .inf (s != t)
  | .fin s m _, .inf t => if m = 0 then .nan else .inf (s != t)
  | .fin s m e, .fin t n f => .fin (s != t) (m * n) (e + f)

/-- The signed integer m * 2^(e - f), for f at most e. -/
def alignTo (neg : Bool) (m : Nat) (e f : Int) : Int :=
  let v : Int := (m <<< (e - f).toNat : Nat)
  if neg then -v else v

/-- The exact sum, with the signs of zero of R78. -/
def Val.add : Val → Val → Val
  | .nan, _ => .nan
  | _, .nan => .nan
  | .inf s, .inf t => if s = t then .inf s else .nan
  | .inf s, .fin _ _ _ => .inf s
  | .fin _ _ _, .inf t => .inf t
  | .fin s m e, .fin t n f =>
    if m = 0 ∧ n = 0 then .fin (s && t) 0 0
    else if m = 0 then .fin t n f
    else if n = 0 then .fin s m e
    else
      let g := min e f
      let v := alignTo s m e g + alignTo t n f g
      if v = 0 then .fin false 0 0 else .fin (decide (v < 0)) v.natAbs g

/-- The exact difference. -/
def Val.sub (a b : Val) : Val := a.add b.negate

/-- The exact value of -1, 0 or 1 by comparison of two numbers that are not NaN; zeros are equal. -/
def Val.cmp (a b : Val) : Ordering :=
  match a, b with
  | .inf s, .inf t => if s = t then .eq else if s then .lt else .gt
  | .inf s, _ => if s then .lt else .gt
  | _, .inf t => if t then .gt else .lt
  | .fin s m e, .fin t n f =>
    let g := min e f
    compare (alignTo s m e g) (alignTo t n f g)
  | _, _ => .eq

/-- floor(log2 |x|) of a nonzero finite number. -/
def Val.ilog2 : Val → Int
  | .fin _ m e => e + Nat.log2 m
  | _ => 0

/-- m / 2^sh rounded to nearest, ties to even (R61). -/
def rneShr (m sh : Nat) : Nat :=
  let q := m >>> sh
  let r := m % 2 ^ sh
  if 2 * r < 2 ^ sh then q else if 2 ^ sh < 2 * r then q + 1 else q + q % 2

/-- The magnitude code of m * 2^e, rounded to nearest even, in a format of `man` mantissa bits whose smallest
subnormal is 2^qmin, with no upper bound on the exponent. -/
def magCode (man : Nat) (qmin : Int) (m : Nat) (e : Int) : Nat :=
  if m = 0 then 0 else
    let q := max (e + Nat.log2 m - man) qmin
    let k := if e ≤ q then rneShr m (q - e).toNat else m <<< (e - q).toNat
    if q = qmin then k else (q - qmin).toNat * 2 ^ man + k

/-- The quotient of two nonzero finite magnitudes, kept with enough bits and a sticky bit that any rounding to at most
60 bits gives what the exact quotient gives. -/
def quotient (m : Nat) (e : Int) (n : Nat) (f : Int) : Nat × Int :=
  let s := 66 + Nat.log2 n
  let q := (m <<< s) / n
  let st := if (m <<< s) % n = 0 then 0 else 1
  (2 * q + st, e - f - s - 1)

/-- Division (R171, R175): the sign is the exclusive-or of the signs, a nonzero finite value by zero is an infinity. -/
def Val.div : Val → Val → Val
  | .nan, _ => .nan
  | _, .nan => .nan
  | .inf _, .inf _ => .nan
  | .inf s, .fin t _ _ => .inf (s != t)
  | .fin s _ _, .inf t => .fin (s != t) 0 0
  | .fin s m e, .fin t n f =>
    if n = 0 then (if m = 0 then .nan else .inf (s != t))
    else if m = 0 then .fin (s != t) 0 0
    else let q := quotient m e n f; .fin (s != t) q.1 q.2

/-- The integer square root by bits, from bit `k - 1` down. -/
def isqrtFrom (n : Nat) : Nat → Nat → Nat
  | 0, r => r
  | k + 1, r =>
    let t := r + 2 ^ k
    isqrtFrom n k (if t * t ≤ n then t else r)

/-- The integer square root. -/
def isqrt (n : Nat) : Nat := isqrtFrom n (Nat.log2 n / 2 + 1) 0

/-- The square root, kept with a sticky bit (R175, R177): -0 gives -0, a negative operand NaN. -/
def Val.sqrt : Val → Val
  | .nan => .nan
  | .inf s => if s then .nan else .inf false
  | .fin s m e =>
    if m = 0 then .fin s 0 0
    else if s then .nan
    else
      let sh := 130 + (if (e % 2) = 0 then 0 else 1)
      let n := m <<< sh
      let r := isqrt n
      let st := if r * r = n then 0 else 1
      .fin false (2 * r + st) ((e - sh) / 2 - 1)

/-! ### Formats -/

/-- Bits per element (R46, R48). -/
def fmtBits : Fmt → Nat
  | .fp32 | .int32 => 32
  | .fp16 | .bf16 | .int16 => 16
  | .mxE4m3 | .mxE5m2 | .mxInt8 | .int8 | .uint8 => 8
  | .mxE3m2 | .mxE2m3 => 6
  | .mxE2m1 => 4
  | .mask1 => 1

/-- The MX formats (R52). -/
def fmtMx : Fmt → Bool
  | .mxE4m3 | .mxE5m2 | .mxE3m2 | .mxE2m3 | .mxE2m1 | .mxInt8 => true
  | _ => false

/-- The integer formats. -/
def fmtInt : Fmt → Bool
  | .int32 | .int16 | .int8 | .uint8 => true
  | _ => false

/-- The formats whose elements are floating point (R48). -/
def fmtFloat : Fmt → Bool
  | .fp32 | .fp16 | .bf16 | .mxE4m3 | .mxE5m2 | .mxE3m2 | .mxE2m3 | .mxE2m1 => true
  | _ => false

/-- Mantissa bits (R48). -/
def fmtMan : Fmt → Nat
  | .fp32 => 23 | .fp16 => 10 | .bf16 => 7 | .mxE4m3 => 3 | .mxE5m2 => 2
  | .mxE3m2 => 2 | .mxE2m3 => 3 | .mxE2m1 => 1 | _ => 0

/-- Exponent bias (R48). -/
def fmtBias : Fmt → Int
  | .fp32 | .bf16 => 127 | .fp16 | .mxE5m2 => 15 | .mxE4m3 => 7
  | .mxE3m2 => 3 | .mxE2m3 => 1 | .mxE2m1 => 1 | _ => 0

/-- The exponent of the smallest subnormal. -/
def fmtQmin (f : Fmt) : Int := 1 - fmtBias f - fmtMan f

/-- The largest finite positive code (R49). -/
def fmtMax : Fmt → Nat
  | .fp32 => 0x7F7FFFFF | .fp16 => 0x7BFF | .bf16 => 0x7F7F | .mxE4m3 => 0x7E | .mxE5m2 => 0x7B
  | .mxE3m2 | .mxE2m3 => 0x1F | .mxE2m1 => 7 | .mxInt8 => 127 | _ => 0

/-- Formats with infinities (R49). -/
def fmtInf : Fmt → Bool
  | .fp32 | .fp16 | .bf16 | .mxE5m2 => true
  | _ => false

/-- Element formats whose NaN is written through the block scale (R46). -/
def nanViaScale : Fmt → Bool
  | .mxE3m2 | .mxE2m3 | .mxE2m1 | .mxInt8 => true
  | _ => false

/-- The canonical NaN code of a format that has one (R49). -/
def fmtNan : Fmt → Nat
  | .fp32 => 0x7FC00000 | .fp16 => 0x7E00 | .bf16 => 0x7FC0 | .mxE4m3 => 0x7F | .mxE5m2 => 0x7E | _ => 0

/-- The format of an ID (R45); reserved IDs name none. -/
def fmtOfId : Nat → Option Fmt
  | 0 => some .fp32 | 1 => some .fp16 | 2 => some .bf16 | 3 => some .mxE4m3 | 4 => some .mxE5m2
  | 5 => some .mxE3m2 | 6 => some .mxE2m3 | 7 => some .mxE2m1 | 8 => some .mxInt8 | 9 => some .int32
  | 10 => some .int16 | 11 => some .int8 | 12 => some .uint8 | 13 => some .mask1 | _ => none

/-- The ID of a format (R45). -/
def fmtId : Fmt → Nat
  | .fp32 => 0 | .fp16 => 1 | .bf16 => 2 | .mxE4m3 => 3 | .mxE5m2 => 4 | .mxE3m2 => 5 | .mxE2m3 => 6
  | .mxE2m1 => 7 | .mxInt8 => 8 | .int32 => 9 | .int16 => 10 | .int8 => 11 | .uint8 => 12 | .mask1 => 13

/-- A code of an integer format as an integer (R50). -/
def intOfCode (f : Fmt) (c : Nat) : Int :=
  let w := fmtBits f
  if f = .uint8 ∨ c < 2 ^ (w - 1) then c else (c : Int) - 2 ^ w

/-- The low bits of an integer in the width of an integer format. -/
def codeOfInt (f : Fmt) (i : Int) : Nat := (i % 2 ^ fmtBits f).toNat

/-- Largest and smallest integer of an integer format (R50). -/
def intMax (f : Fmt) : Int := if f = .uint8 then 255 else 2 ^ (fmtBits f - 1) - 1
/-- The smallest integer of an integer format. -/
def intMin (f : Fmt) : Int := if f = .uint8 then 0 else -(2 ^ (fmtBits f - 1))

/-- The value of a code of a format, without block scale and tensor scale (R47 to R50, R67). -/
def decodeElem (f : Fmt) (c : Nat) : Val :=
  match f with
  | .int32 | .int16 | .int8 | .uint8 => Val.ofInt (intOfCode f c)
  | .mask1 => if c % 2 = 1 then .one else .zero
  | .mxInt8 => let i : Int := if c < 128 then c else (c : Int) - 256; .fin (decide (i < 0)) i.natAbs (-6)
  | _ =>
    let w := fmtBits f
    let s := decide (2 ^ (w - 1) ≤ c)
    let mag := c % 2 ^ (w - 1)
    if fmtInf f ∧ fmtMax f < mag then (if mag = fmtMax f + 1 then .inf s else .nan)
    else if f = .mxE4m3 ∧ mag = 0x7F then .nan
    else
      let man := fmtMan f
      let E := mag >>> man
      let M := mag % 2 ^ man
      if E = 0 then .fin s M (fmtQmin f) else .fin s (2 ^ man + M) (fmtQmin f + E - 1)

/-- A signed code of a floating-point element format. -/
def signedCode (f : Fmt) (s : Bool) (mag : Nat) : Nat := if s then 2 ^ (fmtBits f - 1) + mag else mag

/-- The nearest integer, ties to even (R66). -/
def rneInt (s : Bool) (m : Nat) (e : Int) : Int :=
  let k : Nat := if 0 ≤ e then m <<< e.toNat else rneShr m (-e).toNat
  if s then -(k : Int) else k

/-- Convert an exact value into a format: its code, and whether it was saturated and counted (R61 to R67). A NaN of a
format whose NaN lies in the block scale gives code 0 (R68). -/
def encodeElem (f : Fmt) (x : Val) : Nat × Bool :=
  match f with
  | .mask1 => (if x.isZero then 0 else 1, false)
  | .int32 | .int16 | .int8 | .uint8 =>
    match x with
    | .nan => (0, true)
    | .inf s => (codeOfInt f (if s then intMin f else intMax f), true)
    | .fin s m e =>
      let i := rneInt s m e
      if intMax f < i then (codeOfInt f (intMax f), true)
      else if i < intMin f then (codeOfInt f (intMin f), true)
      else (codeOfInt f i, false)
  | .mxInt8 =>
    match x with
    | .nan => (0, false)
    | .inf s => (if s then 0x81 else 0x7F, true)
    | .fin s m e =>
      let i := rneInt s m (e + 6)
      if 127 < i then (0x7F, true) else if i < -127 then (0x81, true) else ((i % 256).toNat, false)
  | _ =>
    match x with
    | .nan => (fmtNan f, false)
    | .inf s => if fmtInf f then (signedCode f s (fmtMax f + 1), false) else (signedCode f s (fmtMax f), true)
    | .fin s m e =>
      let c := magCode (fmtMan f) (fmtQmin f) m e
      if fmtMax f < c then
        (if fmtInf f then (signedCode f s (fmtMax f + 1), false) else (signedCode f s (fmtMax f), true))
      else (signedCode f s c, false)

/-- Round to a floating-point format and read back. -/
def rndTo (f : Fmt) (x : Val) : Val := decodeElem f (encodeElem f x).1

/-- Round to FP32 (R76). -/
def rnd32 (x : Val) : Val := rndTo .fp32 x

/-- The FP32 value of a 32-bit word. -/
def f32 (w : Nat) : Val := decodeElem .fp32 (w % 2 ^ 32)

/-- The FP32 code of a value, rounded. -/
def toF32 (x : Val) : Nat := (encodeElem .fp32 x).1

/-! ### Comparison, minimum and maximum on numbers (R79, R80) -/

/-- Less than with -0 below +0, for values that are not NaN (R80). -/
def Val.ltZ (a b : Val) : Bool :=
  if a.isZero && b.isZero then a.neg? && !b.neg? else a.cmp b == .lt

/-- minimum, or minimumNumber where `num` (R80). -/
def Val.min' (num : Bool) (a b : Val) : Val :=
  match a, b with
  | .nan, .nan => .nan
  | .nan, y => if num then y else .nan
  | x, .nan => if num then x else .nan
  | x, y => if y.ltZ x then y else x

/-- maximum, or maximumNumber where `num` (R80). -/
def Val.max' (num : Bool) (a b : Val) : Val :=
  match a, b with
  | .nan, .nan => .nan
  | .nan, y => if num then y else .nan
  | x, .nan => if num then x else .nan
  | x, y => if x.ltZ y then y else x

/-- The key of totalOrder (R81) of a code of FP32 or FP16. -/
def totalKey (f : Fmt) (c : Nat) : Int :=
  let w := fmtBits f
  if c < 2 ^ (w - 1) then c else
    let x := c ^^^ (2 ^ (w - 1) - 1)
    (x : Int) - 2 ^ w

end Sys2Proof.Machine
end

