-- ==== Sys2Proof/Machine/Flags.lean ====
section
/-! DEFINITION. Comparisons and classes: the scalar predicates (R157), the element predicates (R79, R81, R173), CLASS. -/

namespace Sys2Proof.Machine

/-- A scalar comparison of two counters (R157); the reserved predicates 6 and 7 are false (log 23). -/
def scalarPred (p : Nat) (signed : Bool) (a b : BitVec 32) : Bool :=
  let lt := if signed then a.slt b else a.ult b
  match p with
  | 0 => a == b
  | 1 => a != b
  | 2 => lt
  | 3 => lt || a == b
  | 4 => !(lt || a == b)
  | 5 => !lt
  | _ => false

/-- The logic functions of CLOGIC (R157). -/
def logicOp (op : Nat) (a b : Bool) : Bool :=
  match op with
  | 0 => a && b
  | 1 => a || b
  | 2 => a != b
  | 3 => a && !b
  | 4 => !a
  | 5 => false
  | 6 => true
  | _ => a

/-- The comparison predicates of CMP on two codes of a format (R79, R81, R173). -/
def cmpPred (f : Fmt) (p : Nat) (a b : Nat) : Bool :=
  let x := decodeElem f a
  let y := decodeElem f b
  let un := x == .nan || y == .nan
  let o := x.cmp y
  match p with
  | 0 => !un && o == .eq
  | 1 => un || o != .eq
  | 2 => !un && o == .lt
  | 3 => !un && o != .gt
  | 4 => !un && o == .gt
  | 5 => !un && o != .lt
  | 6 => un
  | 7 => !un
  | 8 => if fmtInt f then o != .gt else decide (totalKey f a ≤ totalKey f b)
  | _ => false

/-- The class number of a code of FP32 or FP16, as held (R173). -/
def classOf (f : Fmt) (c : Nat) : Nat :=
  let man := fmtMan f
  let s := decide (2 ^ (fmtBits f - 1) ≤ c)
  let mag := c % 2 ^ (fmtBits f - 1)
  let inf := fmtMax f + 1
  if inf < mag then (if mag / 2 ^ (man - 1) % 2 = 1 then 1 else 0)
  else if mag = inf then (if s then 2 else 9)
  else if mag = 0 then (if s then 5 else 6)
  else if mag < 2 ^ man then (if s then 4 else 7)
  else (if s then 3 else 8)

end Sys2Proof.Machine
end

