-- ==== Sys2Proof/Machine/Approx.lean ====
section
/-! DEFINITION. The approximated functions of the vector engine (R175 to R179): an enclosure of the exact value, and a
value within the stated bound of it, which one of them the specification leaves open. -/

namespace Sys2Proof.Machine

/-- The functions of opcodes 0x32 to 0x3E (R166), the attention exponential apart. -/
inductive Fn where
  | rsqrt | exp | exp2 | log | log2 | tanh | sigmoid | silu | gelu | geluTanh | erf | softplus | sin | cos
deriving DecidableEq, Repr

/-- A number for each function, the first argument of the free choice. -/
def Fn.id : Fn → Nat
  | .rsqrt => 0 | .exp => 1 | .exp2 => 2 | .log => 3 | .log2 => 4 | .tanh => 5 | .sigmoid => 6 | .silu => 7
  | .gelu => 8 | .geluTanh => 9 | .erf => 10 | .softplus => 11 | .sin => 12 | .cos => 13

/-- A closed interval of reals, both ends in units of 2^-fixP. -/
structure Iv where
  lo : Int
  hi : Int
deriving DecidableEq, Repr

/-- Fraction bits of the enclosures. -/
def fixP : Nat := 448

/-- The fixed-point one. -/
def fixOne : Int := 2 ^ fixP

/-- i / 2^n rounded down. -/
def floorShr (i : Int) (n : Nat) : Int := i / (2 ^ n : Nat)

/-- i / 2^n rounded up. -/
def ceilShr (i : Int) (n : Nat) : Int := -((-i) / (2 ^ n : Nat))

/-- A dyadic value as an interval. -/
def Iv.ofDyadic (neg : Bool) (m : Nat) (e : Int) : Iv :=
  let s : Int := if neg then -1 else 1
  let k := e + fixP
  if 0 ≤ k then let v := s * (m <<< k.toNat : Nat); ⟨v, v⟩
  else ⟨floorShr (s * m) (-k).toNat, ceilShr (s * m) (-k).toNat⟩

/-- Interval sum. -/
def Iv.add (a b : Iv) : Iv := ⟨a.lo + b.lo, a.hi + b.hi⟩
/-- Interval negation. -/
def Iv.neg (a : Iv) : Iv := ⟨-a.hi, -a.lo⟩
/-- Interval difference. -/
def Iv.sub (a b : Iv) : Iv := a.add b.neg

/-- Interval product. -/
def Iv.mul (a b : Iv) : Iv :=
  let p := a.lo * b.lo; let q := a.lo * b.hi; let r := a.hi * b.lo; let s := a.hi * b.hi
  ⟨floorShr (min (min p q) (min r s)) fixP, ceilShr (max (max p q) (max r s)) fixP⟩

/-- Interval quotient by a positive interval. -/
def Iv.div (a b : Iv) : Iv :=
  let dn (x y : Int) : Int := (x * fixOne) / y
  let up (x y : Int) : Int := -(((-x) * fixOne) / y)
  ⟨min (dn a.lo b.lo) (dn a.lo b.hi), max (up a.hi b.lo) (up a.hi b.hi)⟩

/-- The interval widened by n units on both sides. -/
def Iv.widen (n : Int) (a : Iv) : Iv := ⟨a.lo - n, a.hi + n⟩

/-- An integer as an interval. -/
def Iv.ofInt (i : Int) : Iv := ⟨i * fixOne, i * fixOne⟩

/-- A ratio of integers, the divisor positive, as an interval. -/
def Iv.ratio (a : Int) (b : Nat) : Iv := ⟨a * fixOne / b, -((-(a * fixOne)) / b)⟩

/-- The sum of the atanh series z + z^3/3 + ... for |z| at most 1/3, `n` terms from index k; `p` is the power. -/
def atanhTerms (z2 : Iv) : Nat → Nat → Iv → Iv
  | 0, _, _ => ⟨0, 0⟩
  | n + 1, k, p =>
    (⟨p.lo / (2 * k + 1 : Nat), -((-p.hi) / (2 * k + 1 : Nat))⟩ : Iv).add (atanhTerms z2 n (k + 1) (p.mul z2))

/-- 2 atanh(z), for |z| at most 1/3; the tail is far below the widening. -/
def twoAtanh (z : Iv) : Iv :=
  let t := atanhTerms (z.mul z) 145 0 z
  ((t.add t).widen 16)

/-- ln 2. -/
def ln2 : Iv := twoAtanh (Iv.ratio 1 3)

/-- The arctangent series of 1/n, `k` terms. -/
def atanRecip (n : Nat) : Nat → Nat → Iv → Iv
  | 0, _, _ => ⟨0, 0⟩
  | f + 1, k, p =>
    let t : Iv := ⟨p.lo / (2 * k + 1 : Nat), -((-p.hi) / (2 * k + 1 : Nat))⟩
    let p' : Iv := ⟨p.lo / (n * n : Nat), -((-p.hi) / (n * n : Nat))⟩
    (if k % 2 = 0 then t else t.neg).add (atanRecip n f (k + 1) p')

/-- pi, by 16 atan(1/5) - 4 atan(1/239). -/
def piIv : Iv :=
  let a := atanRecip 5 110 0 (Iv.ratio 1 5)
  let b := atanRecip 239 40 0 (Iv.ratio 1 239)
  (((Iv.ofInt 16).mul a).sub ((Iv.ofInt 4).mul b)).widen 64

/-- The exponential series 1 + r + r^2/2 + ... for 0 <= r <= 1, `n` terms from index k. -/
def expTerms (r : Iv) : Nat → Nat → Iv → Iv
  | 0, _, _ => ⟨0, 0⟩
  | n + 1, k, t =>
    let u := t.mul r
    t.add (expTerms r n (k + 1) ⟨u.lo / (k + 1 : Nat), -((-u.hi) / (k + 1 : Nat))⟩)

/-- e^x, for x between -160 and 160; below that range [0, 2^-200]. -/
def expIv (x : Iv) : Iv :=
  if x.hi < -160 * fixOne then ⟨0, 2 ^ (fixP - 200)⟩ else
    let k := x.lo / ln2.lo
    let r := x.sub ((Iv.ofInt k).mul ln2)
    let s := (expTerms r 110 0 (Iv.ofInt 1)).widen 8
    if 0 ≤ k then ⟨s.lo * (2 ^ k.toNat : Nat), s.hi * (2 ^ k.toNat : Nat)⟩
    else ⟨floorShr s.lo (-k).toNat, ceilShr s.hi (-k).toNat⟩

/-- ln of a positive fixed-point number. -/
def lnFix (v : Nat) : Iv :=
  let k : Int := Nat.log2 v
  let e : Int := k - fixP
  let z : Iv :=
    let d := 2 ^ Nat.log2 v
    Iv.ratio ((v : Int) - (d : Nat)) (v + d)
  ((Iv.ofInt e).mul ln2).add (twoAtanh z)

/-- ln of a positive interval. -/
def lnIv (x : Iv) : Iv := ⟨(lnFix x.lo.toNat).lo, (lnFix x.hi.toNat).hi⟩

/-- The alternating series of sin (from k = 1) or cos (from k = 0): t - t r^2/((k+1)(k+2)) + ... -/
def trigTerms (r2 : Iv) : Nat → Nat → Iv → Iv
  | 0, _, _ => ⟨0, 0⟩
  | n + 1, k, t =>
    let u := t.mul r2
    let d := (k + 1) * (k + 2)
    t.add (trigTerms r2 n (k + 2) (Iv.neg ⟨u.lo / (d : Nat), -((-u.hi) / (d : Nat))⟩))

/-- sin x where `c` is false and cos x where it is true, by exact reduction modulo pi/2 (R176). -/
def trigIv (c : Bool) (x : Iv) : Iv :=
  let h : Iv := ⟨floorShr piIv.lo 1, ceilShr piIv.hi 1⟩
  let n := (2 * x.lo + h.lo) / (2 * h.lo)
  let r := x.sub ((Iv.ofInt n).mul h)
  let r2 := r.mul r
  let s := (trigTerms r2 60 1 r).widen 8
  let k := (trigTerms r2 60 0 (Iv.ofInt 1)).widen 8
  match (n % 4).toNat, c with
  | 0, false => s | 1, false => k | 2, false => s.neg | _, false => k.neg
  | 0, true => k | 1, true => s.neg | 2, true => k.neg | _, true => s

/-- The alternating series of erf without its factor: t/(2k+1), t -> -t x^2/(k+1). -/
def erfTerms (x2 : Iv) : Nat → Nat → Iv → Iv
  | 0, _, _ => ⟨0, 0⟩
  | n + 1, k, t =>
    let u := t.mul x2
    (⟨t.lo / (2 * k + 1 : Nat), -((-t.hi) / (2 * k + 1 : Nat))⟩ : Iv).add
      (erfTerms x2 n (k + 1) (Iv.neg ⟨u.lo / (k + 1 : Nat), -((-u.hi) / (k + 1 : Nat))⟩))

/-- A square root of a nonnegative interval. -/
def sqrtIv (x : Iv) : Iv := ⟨isqrt (x.lo.toNat <<< fixP), isqrt (x.hi.toNat <<< fixP) + 1⟩

/-- erf x for x at least 0. -/
def erfIv (x : Iv) : Iv :=
  if 8 * fixOne ≤ x.lo then ⟨fixOne - 2 ^ (fixP - 60), fixOne⟩ else
    let s := (erfTerms (x.mul x) 330 0 x).widen 8
    ((Iv.ofInt 2).mul s).div (sqrtIv piIv)

/-- 1 / (1 + e^-x). -/
def sigmoidIv (x : Iv) : Iv :=
  if 150 * fixOne < x.lo then ⟨fixOne - 2 ^ (fixP - 200), fixOne⟩
  else if x.hi < -150 * fixOne then ⟨0, 2 ^ (fixP - 200)⟩
  else (Iv.ofInt 1).div ((Iv.ofInt 1).add (expIv x.neg))

/-- An enclosure of the exact value of a function at a finite nonzero operand of its domain. -/
def enclose (f : Fn) (s : Bool) (m : Nat) (e : Int) : Iv :=
  let x := Iv.ofDyadic s m e
  let big := 160 * fixOne
  match f with
  | .rsqrt =>
    -- 1/sqrt(m 2^e), from the integer square root of 2^(3 fixP) / (x 2^fixP)
    let q := (2 ^ (3 * fixP)) / x.lo.toNat
    ⟨isqrt q, isqrt (q + 1) + 1⟩
  | .exp => expIv x
  | .exp2 => expIv (x.mul ln2)
  | .log => lnIv x
  | .log2 => (lnIv x).div ln2
  | .tanh =>
    if 40 * fixOne < x.lo then ⟨fixOne - 2 ^ (fixP - 60), fixOne⟩
    else
      let t := expIv (x.add x)
      (t.sub (Iv.ofInt 1)).div (t.add (Iv.ofInt 1))
  | .sigmoid => sigmoidIv x
  | .silu => if big < x.lo then ⟨x.lo - 2 ^ (fixP - 200), x.hi⟩
             else if x.hi < -big then ⟨-(2 ^ (fixP - 100)), 0⟩ else x.mul (sigmoidIv x)
  | .gelu =>
    if 20 * fixOne < x.lo then ⟨x.lo - 2 ^ (fixP - 200), x.hi⟩
    else if x.hi < -20 * fixOne then ⟨-(2 ^ (fixP - 100)), 0⟩
    else
      let r := sqrtIv (Iv.ofInt 2)
      if s then
        -- x (1 - erf(|x| / sqrt 2)) / 2
        let w := (Iv.ofInt 1).sub (erfIv (x.neg.div r))
        let v := x.mul w
        ⟨floorShr v.lo 1, ceilShr v.hi 1⟩
      else
        let v := x.mul ((Iv.ofInt 1).add (erfIv (x.div r)))
        ⟨floorShr v.lo 1, ceilShr v.hi 1⟩
  | .geluTanh =>
    if 20 * fixOne < x.lo then ⟨x.lo - 2 ^ (fixP - 200), x.hi⟩
    else if x.hi < -20 * fixOne then ⟨-(2 ^ (fixP - 100)), 0⟩
    else
      let c := sqrtIv ((Iv.ofInt 2).div piIv)
      let u := c.mul (x.add ((Iv.ratio 44715 1000000).mul (x.mul (x.mul x))))
      x.mul (sigmoidIv (u.add u))
  | .erf => erfIv x
  | .softplus => if big < x.lo then ⟨x.lo, x.hi + 2 ^ (fixP - 200)⟩
                 else if x.hi < -big then ⟨0, 2 ^ (fixP - 200)⟩
                 else lnIv ((Iv.ofInt 1).add (expIv x))
  | .sin => trigIv false x
  | .cos => trigIv true x

/-- ulp(v) of R175 in FP32, in units of 2^-fixP, for a magnitude in those units. -/
def ulp32 (v : Nat) : Int :=
  if v = 0 then 2 ^ (fixP - 149) else
    let k : Int := (Nat.log2 v : Int) - fixP
    2 ^ (max (k - 23) (-149) + fixP).toNat

/-- The error bound of R176 in FP32 at an operand: a number of ulps, or an absolute bound of 2^-n. -/
def boundOf (f : Fn) (s : Bool) (m : Nat) (e : Int) : Nat × Option Nat :=
  let below (k : Int) := s && (Val.cmp (.fin s m e) (Val.ofInt k) == .lt)
  match f with
  | .rsqrt | .exp | .exp2 | .log | .log2 => (1, none)
  | .tanh | .sigmoid | .erf | .softplus | .sin | .cos => (2, none)
  | .silu => if below (-20) then (0, some 40) else (2, none)
  | .gelu | .geluTanh => if below (-4) then (0, some 32) else (3, none)

/-- The key of an FP32 magnitude just at or below (or, where `up`, at or above) a nonnegative fixed-point number; 0x7F800000
stands for a magnitude beyond the largest finite one. -/
def keyOf (up : Bool) (v : Nat) : Nat :=
  if v = 0 then 0 else
    let e : Int := -(fixP : Int)
    let q := max (e + Nat.log2 v - 23) (-149)
    let sh := (q - e).toNat
    let k := v >>> sh + (if up ∧ v % 2 ^ sh ≠ 0 then 1 else 0)
    min 0x7F800000 (if q = -149 then k else (q + 149).toNat * 2 ^ 23 + k)

/-- The signed key of a fixed-point number, rounded down or up. -/
def signedKey (up : Bool) (v : Int) : Int :=
  if 0 ≤ v then keyOf up v.toNat else -(keyOf (!up) (-v).toNat : Nat)

/-- The FP32 code of a signed key; a zero takes the sign given. -/
def codeOfKey (zneg : Bool) (k : Int) : Nat :=
  if k = 0 then (if zneg then 0x80000000 else 0) else if 0 < k then k.toNat else 0x80000000 + (-k).toNat

/-- The signed key of a value that FP32 holds. -/
def keyOfVal (x : Val) : Int :=
  let c := toF32 x
  if c < 0x80000000 then c else -((c - 0x80000000 : Nat) : Int)

/-- Values between which a monotone function (R178) must stay at an operand, from its exact cases (R177, R178). -/
def anchors (f : Fn) (s : Bool) (m : Nat) (e : Int) : Option Val × Option Val :=
  let x := Val.fin s m e
  let half := Val.fin false 1 (-1)
  let gt1 := x.cmp .one == .gt
  match f with
  | .exp => if s then (some .zero, some .one) else (some .one, none)
  | .exp2 =>
    let fl : Int := if 0 ≤ e then alignTo s m e 0 else alignTo s m 0 0 / (2 ^ (-e).toNat : Nat)
    if x.cmp (Val.ofInt (-400)) == .lt then (some .zero, some (.fin false 1 (-149)))
    else (some (.fin false 1 fl), some (.fin false 1 (fl + 1)))
  | .log => if gt1 then (some .zero, none) else (none, some .zero)
  | .log2 => let k := e + Nat.log2 m; (some (Val.ofInt k), some (Val.ofInt (k + 1)))
  | .tanh | .erf => (some .zero, some .one)
  | .sigmoid => if s then (some .zero, some half) else (some half, some .one)
  | .softplus => let l := Val.fin false ln2.lo.toNat (-(fixP : Int)); if s then (some .zero, some l) else (some l, none)
  | _ => (none, none)

/-- The functions that do not decrease as their operand increases (R178). -/
def Fn.monotone : Fn → Bool
  | .exp | .exp2 | .log | .log2 | .tanh | .sigmoid | .erf | .softplus => true
  | .rsqrt | .silu | .gelu | .geluTanh | .sin | .cos => false

/-- The height of a curve of steps at a key. -/
def stepsAt (k : Int) (l : List (Int × Int)) : Int := l.foldl (fun m p => if p.1 ≤ k then max m p.2 else m) (-0x7F800000)

/-- A value within the bound of R176, which of them left open by the specification; that of a monotone function lies on a nondecreasing
curve (R178). -/
def pickWithin (f : Fn) (s : Bool) (m : Nat) (e : Int) (bits : Nat) : Nat :=
  let v := enclose f s m e
  let b := boundOf f s m e
  let slack : Int :=
    match b.2 with
    | some n => 2 ^ (fixP - n)
    | none =>
      let top := max v.lo.natAbs v.hi.natAbs
      b.1 * ulp32 (if f = .tanh ∨ f = .erf ∨ f = .sigmoid then min top (2 ^ fixP - 1) else top)
  let a := anchors f s m e
  let lo := max (signedKey true (v.lo - slack)) ((a.1.map keyOfVal).getD (-0x7F800000))
  let hi := min (signedKey false (v.hi + slack)) ((a.2.map keyOfVal).getD 0x7F800000)
  let zneg := decide (v.hi ≤ 0)
  if hi < lo then codeOfKey zneg (signedKey false v.lo)
  else if f.monotone then codeOfKey zneg (max lo (min hi (stepsAt (keyOfVal (.fin s m e)) (Config.approxSteps (Fn.id f)))))
  else codeOfKey zneg (lo + (Config.approxPick (Fn.id f) (BitVec.ofNat 32 bits) % ((hi - lo).toNat + 1) : Nat))

/-- The results that the specification fixes exactly (R177, R178), by function and FP32 operand; none where only the bound
of R176 holds. -/
def exactCase (f : Fn) (x : Val) : Option Val :=
  match x with
  | .nan => some .nan
  | .inf s =>
    some (match f with
      | .rsqrt => if s then .nan else .zero
      | .exp | .exp2 | .softplus => if s then .zero else .inf false
      | .log | .log2 => if s then .nan else .inf false
      | .tanh | .erf => .fin s 1 0
      | .sigmoid => if s then .zero else .one
      | .silu | .gelu | .geluTanh => if s then .fin true 0 0 else .inf false
      | .sin | .cos => .nan)
  | .fin s m e =>
    if m = 0 then
      (match f with
      | .rsqrt => some (.inf s)
      | .exp | .exp2 | .cos => some .one
      | .log | .log2 => some (.inf true)
      | .tanh | .erf | .silu | .gelu | .geluTanh | .sin => some (.fin s 0 0)
      | .sigmoid => some (.fin false 1 (-1))
      | .softplus => some (.fin false ln2.lo.toNat (-(fixP : Int))))
    else
      (match f with
      | .rsqrt => if s then some .nan else none
      | .exp => if x.cmp (Val.ofInt 128) == .gt then some (.inf false) else none
      | .exp2 =>
        if x.cmp (Val.ofInt 129) == .gt then some (.inf false)
        else if x.cmp (Val.ofInt (-400)) == .lt then some .zero
        else
          let i := rneInt s m e
          if x.cmp (Val.ofInt i) == .eq then some (.fin false 1 i) else none
      | .log | .log2 =>
        if s then some .nan
        else if m = 2 ^ Nat.log2 m then
          (let k := e + Nat.log2 m
           if f = .log2 then some (Val.ofInt k) else if k = 0 then some .zero else none)
        else none
      | _ => none)

/-- A function at FP32 operand bits: its FP32 result bits. Odd and even functions are computed on the magnitude (R178). -/
def approx (f : Fn) (bits : Nat) : Nat :=
  let x := f32 bits
  match exactCase f x with
  | some y => toF32 y
  | none =>
    match x with
    | .fin s m e =>
      (match f with
      | .tanh | .erf | .sin =>
        let c := pickWithin f false m e (bits % 0x80000000)
        if s then c ^^^ 0x80000000 else c
      | .cos => pickWithin f false m e (bits % 0x80000000)
      | _ => pickWithin f s m e bits)
    | _ => fmtNan .fp32

end Sys2Proof.Machine
end

