-- ==== Sys2Proof/Machine/Mem.lean ====
section
/-! DEFINITION. Byte memory as a canonical list of cells: addresses strictly rising, no cell holding the byte that an
unlisted address reads as, which is 0 in every memory of the model (R414, R333; external memory: log 2). -/

namespace Sys2Proof.Machine

/-- A byte memory. -/
abbrev Mem := List Host.Cell

/-- The byte an unlisted address reads as. -/
def unlisted : Byte := 0

/-- The canonical form, from a lower bound on the next address. -/
def Mem.wfFrom : Nat → Mem → Bool
  | _, [] => true
  | lo, (a, b) :: m => decide (lo ≤ a) && (b != unlisted) && Mem.wfFrom (a + 1) m

/-- The canonical form of a memory. -/
def Mem.wf (m : Mem) : Bool := Mem.wfFrom 0 m

/-- Read one byte. -/
def Mem.read : Mem → Nat → Byte
  | [], _ => unlisted
  | (k, b) :: m, a => if a = k then b else Mem.read m a

/-- Write one byte, keeping the canonical form. -/
def Mem.write : Mem → Nat → Byte → Mem
  | [], a, v => if v = unlisted then [] else [(a, v)]
  | (k, b) :: m, a, v =>
    if a < k then (if v = unlisted then (k, b) :: m else (a, v) :: (k, b) :: m)
    else if a = k then (if v = unlisted then m else (k, v) :: m)
    else (k, b) :: Mem.write m a v

/-- Read n bytes. -/
def Mem.readN (m : Mem) (a : Nat) : Nat → List Byte
  | 0 => []
  | n + 1 => m.read a :: m.readN (a + 1) n

/-- Write a list of bytes. -/
def Mem.writeN (m : Mem) (a : Nat) : List Byte → Mem
  | [] => m
  | b :: bs => (m.write a b).writeN (a + 1) bs

/-- Read n bytes as a little-endian number (R10). -/
def Mem.readLe (m : Mem) (a n : Nat) : Nat := ofLeBytes (m.readN a n)

/-- Write a number as n little-endian bytes (R10). -/
def Mem.writeLe (m : Mem) (a n v : Nat) : Mem := m.writeN a (leBytes n v)

/-- Drop every cell of an address range (its bytes read 0 afterwards). -/
def Mem.clear (m : Mem) (lo n : Nat) : Mem := m.filter fun c => decide (c.1 < lo ∨ lo + n ≤ c.1)

end Sys2Proof.Machine
end

