-- ==== Sys2Proof/Machine/Types.lean ====
section
/-! DEFINITION. The records that State is made of: operands as bound at issue, instructions in flight, translation. -/

namespace Sys2Proof.Machine

/-! ### Operands and writes -/

/-- A memory that a slice's units address: its slice store, its tile registers (16,384 bytes each), the emulsion by
physical address, external memory by physical address. -/
inductive Space where
  | store | tile | emul | ext
deriving DecidableEq, Repr

/-- The bits of one byte that a write replaces. -/
structure BitWrite where
  space : Space
  addr  : Nat
  mask  : Byte
  val   : Byte
deriving DecidableEq, Repr

/-- The write of one element (or of one scale byte), with the unit of progress it belongs to. -/
structure ElemWrite where
  unit  : Nat
  parts : List BitWrite
deriving DecidableEq, Repr

/-- One dimension of a tensor (R117). -/
structure Dim where
  extent : Nat
  stride : Int
deriving DecidableEq, Repr

/-- Meter controls of a descriptor that feeds a slot (R70), with the destination format of step 3 of R73. -/
structure MeterCtl where
  slot : Nat
  head : Nat
  pub  : Bool
  preg : Nat
  fmt  : Fmt
deriving DecidableEq, Repr

/-- An index tensor as bound at issue (R204, R205): a PACKED slice-store tensor of an integer format, with its window (R122). -/
structure IdxRef where
  dim    : Nat
  handle : Nat
  base   : Int
  fmt    : Fmt
  dims   : List Dim
  limit  : Option Nat
deriving DecidableEq, Repr

/-- A descriptor as bound at issue (R117 to R122). -/
structure Tensor where
  handle     : Nat
  virt       : Bool
  domain     : Nat
  epoch      : Nat
  base       : Int
  scaleBase  : Int
  fmt        : Fmt
  planar     : Bool
  safe       : Bool
  tscale     : Nat
  dims       : List Dim
  meter      : Option MeterCtl
  idx        : Option IdxRef
  limit      : Option Nat
  fixWait    : Bool
  fixTimeout : Nat
deriving DecidableEq, Repr

/-- An operand of an instruction as bound at issue (R114): none, a tile register, or a tensor. -/
inductive Operand where
  | none
  | tile (n : Nat)
  | tensor (t : Tensor)
deriving DecidableEq, Repr

/-- The operands of an instruction, and its scalars as codes of the compute format (R164). -/
structure Operands where
  dst  : Operand
  a    : Operand
  b    : Operand
  c    : Operand
  pred : Operand
  scalB : Option Nat
  scalC : Option Nat
  more : List Operand
deriving DecidableEq, Repr

/-- One token of one stream as stored: element codes and scale codes (R273, R282). -/
structure TokenRow where
  codes  : List Nat
  scales : List Nat
deriving DecidableEq, Repr

/-- What a KV_SEQ ATTN samples of one context at issue (R297): lengths, the end of the LIVE pages, the tray, and where the
layer's streams lie in the window (R272). -/
structure KvItem where
  ctx     : Nat
  layer   : Nat
  len     : Nat
  high    : Nat
  pageEnd : Nat
  width   : Nat
  base0   : Nat
  base1   : Nat
  scale0  : Nat
  scale1  : Nat
  tray0   : List TokenRow
  tray1   : List TokenRow
deriving DecidableEq, Repr

/-- One batch item of an ATTN: its key length, and its sequence where KV_SEQ is 1. -/
structure AttnItem where
  kLen : Nat
  kv   : Option KvItem
deriving DecidableEq, Repr

/-- The parameters of an ATTN or ATTN_BWD as read at issue (R247, R249, R250). -/
structure AttnArgs where
  qPos0   : Nat
  kPos0   : Nat
  qLen    : Nat
  smScale : Nat
  width   : Nat
  margin  : Nat
  screenH : Nat
  dqk     : Nat
  dv      : Nat
  heads   : Nat
  kvHeads : Nat
  bq      : Nat
  bk      : Nat
  pFmt    : Nat
  qTokens : Nat
  keys    : Nat
  globals : List Nat
  items   : List AttnItem
deriving DecidableEq, Repr

/-! ### Instructions in flight -/

/-- What the interlock compares (R126): an alias class of handles, or a tile register. -/
inductive Res where
  | handle (n : Nat)
  | tile (n : Nat)
deriving DecidableEq, Repr

/-- The first NaN or infinity of an instruction's outputs (R95, R96); `order` is what "first" compares within a unit. Its TIMESTAMP is
that of its unit's completion (`State.fogTime`). -/
structure FogEvent where
  unit   : Nat
  order  : Int
  kind   : Nat
  output : Nat
  ndim   : Nat
  coords : List Nat
  offset : Int
deriving DecidableEq, Repr

/-- The counts of an instruction up to the end of a unit of progress (R94, R95, R151); `ext` is the EXT of an ATTN by then (R253). -/
structure Counts where
  sat     : Nat
  flush   : Nat
  inexact : Nat
  aux     : Nat
  nonfin  : Nat
  fog     : Option FogEvent
  ext     : List Byte
deriving DecidableEq, Repr

/-- The counts before any unit. -/
def Counts.zero : Counts := ⟨0, 0, 0, 0, 0, none, []⟩

/-- What a unit of progress feeds into a meter slot (R71): the largest finite magnitude, as an FP32 code of the value
rounded, whether a finite and whether a nonfinite value was seen. -/
structure Feed where
  unit   : Nat
  ctl    : MeterCtl
  amax   : Nat
  seen   : Bool
  nonfin : Bool
deriving DecidableEq, Repr

/-- A pin of a KV context by an instruction (R297), released when it completes. -/
structure PinRef where
  ctx   : Nat
  layer : Nat
deriving DecidableEq, Repr

/-- A read-modify-write (R209, R210): its unit, the position and offset of its first contribution, the index tuple, the bytes it
updates, and the combined contribution. -/
structure Rmw where
  unit   : Nat
  pos    : Nat
  offset : Int
  coords : List Nat
  place  : List (Space × Nat)
  val    : Nat
deriving DecidableEq, Repr

/-- An item of an ATTN that reached its fade point (R253): context, layer, FADE_START, FADE_END. -/
structure FadeItem where
  ctx   : Nat
  layer : Nat
  start : Nat
  stop  : Nat
deriving DecidableEq, Repr

/-- What the end of an instruction still does: its read-modify-writes (R209 to R211); the elements of a SCATTER in memories that
others write (R208); the granules whose poison its writes replaced (R332); the units below which its high-water mark cannot fall,
because other members of its group have passed them (R131, R135); the items whose fade points it reached (R253). -/
structure Pend where
  rmws    : List Rmw
  land    : List ElemWrite
  cleared : List Nat
  floor   : Nat
  fades   : List FadeItem
deriving DecidableEq, Repr

/-- Nothing to do at the end. -/
def Pend.none : Pend := ⟨[], [], [], 0, []⟩

/-- What a started instruction has done so far: the bits it replaced, per unit the counts, and its results. -/
structure Running where
  total   : Nat
  done    : Nat
  undo    : List ElemWrite
  snaps   : List Counts
  feeds   : List Feed
  cmpVal  : Option Bool
  status  : Nat
  fault   : Nat
  extra   : List Byte
  startNs : Nat
  pend    : Pend
deriving DecidableEq, Repr

/-- Where an instruction in flight is. -/
inductive Phase where
  | queued
  | running (r : Running)
deriving DecidableEq, Repr

/-- An instruction issued and not yet complete (R125, R126). `early` holds FADE_START and FADE_END of an APPEND that its check
at issue ends with RECOMPUTE (R291); `args` the parameter and counter values that a reel or KV instruction read at issue
(R289, R309, R310). -/
structure Entry where
  key     : Nat
  op      : Nat
  fields  : Fields
  index   : Nat
  routine : Option Nat
  group   : Option Nat
  frame   : Nat
  opds    : Operands
  attn    : Option AttnArgs
  early   : Option (Nat × Nat)
  args    : List Nat
  reads   : List Res
  writes  : List Res
  cmpW    : Option (Fin 4)
  issueNs : Nat
  phase   : Phase
deriving DecidableEq, Repr

/-- The open STRIP group (R129): its number, whether it doubles tiles, and SHAPE. -/
structure Group where
  num    : Nat
  double : Bool
  shape  : Nat
deriving DecidableEq, Repr

/-! ### Translation (R214 to R227) -/

/-- An entry of the domain table (R215). -/
structure Domain where
  id       : Nat
  valid    : Bool
  root     : Nat
  target   : Nat
  writeEn  : Bool
  atomicEn : Bool
deriving DecidableEq, Repr

/-- A cached leaf or fine granule (R222). -/
structure TlbEntry where
  domain : Nat
  va     : Nat
  log2   : Nat
  pa     : Nat
  emul   : Bool
  rd     : Bool
  wr     : Bool
  at_    : Bool
  level  : Nat
  entry  : Nat
deriving DecidableEq, Repr

/-- A cached non-leaf entry (R222): domain, level, the virtual address bits above the level's index field's low end. -/
structure WalkEntry where
  domain : Nat
  level  : Nat
  vpn    : Nat
  entry  : Nat
deriving DecidableEq, Repr

/-- The kind of a memory access (R224, R226). -/
inductive Access where
  | read | write | atomic | index
deriving DecidableEq, Repr

/-- The code of an access kind (R226). -/
def Access.code : Access → Nat
  | .read => 0 | .write => 1 | .atomic => 2 | .index => 3

/-- The kind of an access at an MPORT: read, write, atomic (R396). -/
def Access.portKind : Access → Nat
  | .read | .index => 0 | .write => 1 | .atomic => 2

/-- An access of a granule of external memory by an instruction (R26, R397): the granule, its kind as an MPORT numbers it (0 read,
1 write, 2 atomic), the unit of progress and the operand that it serves, and the virtual address that was translated. -/
structure ExtAcc where
  pa      : Nat
  kind    : Nat
  unit    : Nat
  operand : Nat
  domain  : Nat
  va      : Nat
deriving DecidableEq, Repr

/-- Why an access failed (R224 to R226): the fault code is given by the operation that raises it. `entry` is ENTRY of R226; where an
entry could not be read (reason 9) it says where that lies, and ENTRY is 0. -/
structure AccessFault where
  code    : Nat
  va      : Nat
  pos     : Nat
  domain  : Nat
  reason  : Nat
  access  : Access
  level   : Nat
  operand : Nat
  entry   : Nat
deriving DecidableEq, Repr

/-- The hub's part of translation: domain table, hub TLB, walk cache, counters. -/
structure HubXl where
  domains : List Domain
  tlb     : List TlbEntry
  walkc   : List WalkEntry
  walks   : Nat
deriving DecidableEq, Repr

end Sys2Proof.Machine
end

