-- ==== Sys2Proof/Machine/Run.lean ====
section
/-! DEFINITION. The working state of one engine instruction, translation of virtual addresses (R214 to R225), and the
reads and writes of single bytes with their checks (R120, R122). -/

namespace Sys2Proof.Machine

/-- What an instruction's run does not change: the slice, what can be reached. -/
structure RunEnv where
  slice      : Nat
  storeBytes : Nat
  columns    : List Nat
  halts      : List Nat
  poison     : List Nat
  tables     : List Nat
  double     : Bool
  inGroup    : Bool
  total      : Nat
deriving DecidableEq, Repr

/-- The working state of a run: memories, translation caches, counts, and the bits it replaced. A fault is sticky. `exts` lists the
accesses of external memory that it made, latest first; `kvErrs` the (context, token, address) of page reads that met an
uncorrectable error (R297); `fades` the items whose fade points it reached (R253). -/
structure Run where
  env    : RunEnv
  store  : Mem
  tiles  : Mem
  emul   : Mem
  ext    : Mem
  hub    : HubXl
  micro  : List TlbEntry
  misses : Nat
  unit   : Nat
  cnt    : Counts
  undo   : List ElemWrite
  snaps  : List Counts
  feeds  : List Feed
  fault  : Option AccessFault
  cmpVal : Option Bool
  status : Nat
  extra  : List Byte
  buf    : List (Option (Nat × Nat))
  rmws   : List Rmw
  exts   : List ExtAcc
  kvErrs : List (Nat × Nat × Nat)
  fades  : List FadeItem
  free   : Nat
deriving DecidableEq, Repr

/-! ### Translation -/

/-- Bytes of one emulsion column (R214). -/
def columnBytes : Nat := 0x70000000

/-- An emulsion physical address names a column that is reachable and an offset inside it (R214, reason 8 of R224). -/
def emulAddrOk (cols : List Nat) (pa : Nat) : Bool :=
  decide (pa / 2 ^ 36 = 0) && decide (pa % 2 ^ 31 < columnBytes) && cols.contains (pa / 2 ^ 31)

/-- The granule of an emulsion address (R330). -/
def granuleOf (pa : Nat) : Nat := pa / 64 * 64

/-- Bits [hi:lo] of a word. -/
def bits (w hi lo : Nat) : Nat := (w / 2 ^ lo) % 2 ^ (hi + 1 - lo)

/-- The physical address that an entry's PA field names (R217). -/
def entryPa (e : Nat) : Nat := bits e 53 12 * 1024

/-- How a page walk ends (R221). -/
inductive WalkEnd where
  | leaf (t : TlbEntry)
  | stop (reason level entry : Nat)
deriving DecidableEq, Repr

/-- The index of an address at a level, and the level's shift (R216). -/
def levelShift : Nat → Nat
  | 3 => 39 | 2 => 30 | 1 => 21 | _ => 12

/-- A leaf of 2^lg bytes at a level, where its physical address is aligned (R217). -/
def leafEnd (dom va lg level e : Nat) : WalkEnd :=
  if entryPa e % 2 ^ lg ≠ 0 then .stop 7 level e
  else .leaf ⟨dom, va / 2 ^ lg * 2 ^ lg, lg, entryPa e, bits e 54 54 == 1, bits e 4 4 == 1, bits e 5 5 == 1,
              bits e 6 6 == 1, level, e⟩

/-- The reserved fields of an entry are as R217 asks. -/
def entryFormOk (e : Nat) : Bool :=
  bits e 11 11 == 0 && decide (bits e 55 54 < 2) && (bits e 63 56 == 0 || bits e 3 1 == 3)

/-- Read one table entry, or the reason why none is read: its address names no place in the emulsion, or the read ends in an
uncorrectable error (R221, R224); 0 where its column is in HALT, so that the read waits (R338, R560). -/
def readEntry (env : RunEnv) (emul ext : Mem) (inEmul : Bool) (pa : Nat) : Except Nat Nat :=
  if inEmul then
    (if !emulAddrOk env.columns pa then .error 8
     else if env.halts.contains (pa / 2 ^ 31) then .error 0
     else if env.poison.contains (granuleOf pa) then .error 9 else .ok (emul.readLe pa 8))
  else if env.tables.contains (granuleOf pa) then .error 9
  else .ok (ext.readLe pa 8)

/-- What a walk keeps of an entry that it could not read: where the entry lies, for reason WALK_ERROR. -/
def failedEntry (reason : Nat) (inEmul : Bool) (pa : Nat) : Nat := if reason = 9 then 2 * pa + (if inEmul then 1 else 0) else 0

/-- An entry through the walk cache: the entry, and the cache after it (R222). Only non-leaf entries are kept. -/
def cachedEntry (env : RunEnv) (emul ext : Mem) (wc : List WalkEntry) (dom level va : Nat) (inEmul : Bool) (pa : Nat) :
    Except Nat Nat × List WalkEntry :=
  let vpn := va / 2 ^ levelShift level
  match wc.find? (fun w => w.domain == dom && w.level == level && w.vpn == vpn) with
  | some w => (.ok w.entry, w :: wc.erase w)
  | none =>
    match readEntry env emul ext inEmul pa with
    | .error c => (.error c, wc)
    | .ok e =>
      let keep := bits e 0 0 == 1 && (bits e 3 1 == 0 || bits e 3 1 == 2) && entryFormOk e
      (.ok e, if keep then (⟨dom, level, vpn, e⟩ :: wc).take 131072 else wc)

/-- The fine table of a level-1 FINE entry (R220). -/
def fineWalk (env : RunEnv) (emul ext : Mem) (dom va e : Nat) : WalkEnd :=
  let g := bits e 10 8
  if g = 7 ∨ entryPa e % (2 ^ (11 - g) * 8) ≠ 0 then .stop 7 1 e
  else
    let idx := va % 2 ^ 21 / 2 ^ (10 + g)
    match readEntry env emul ext (bits e 54 54 == 1) (entryPa e + 8 * idx) with
    | .error c => .stop c 4 (failedEntry c (bits e 54 54 == 1) (entryPa e + 8 * idx))
    | .ok f =>
      if bits f 0 0 = 0 then .stop 1 4 f
      else if !entryFormOk f then .stop 7 4 f
      else if bits f 3 1 = 3 then .stop 6 4 f
      else if bits f 3 1 = 1 then leafEnd dom va (10 + g) 4 f
      else .stop 7 4 f

/-- The walk from a level's table downward (R216 to R221); `n` is the level plus one. -/
def walkFrom (env : RunEnv) (emul ext : Mem) (dom va : Nat) : Nat → Bool → Nat → List WalkEntry → WalkEnd × List WalkEntry
  | 0, _, _, wc => (.stop 7 0 0, wc)
  | level + 1, inEmul, table, wc =>
    let idx := va % (if level = 3 then 2 ^ 56 else 2 ^ (levelShift level + 9)) / 2 ^ levelShift level
    match cachedEntry env emul ext wc dom level va inEmul (table + 8 * idx) with
    | (.error c, wc') => (.stop c level (failedEntry c inEmul (table + 8 * idx)), wc')
    | (.ok e, wc') =>
      let kind := bits e 3 1
      if bits e 0 0 = 0 then (.stop 1 level e, wc')
      else if !entryFormOk e then (.stop 7 level e, wc')
      else if kind = 0 ∧ 0 < level then
        (if entryPa e % 4096 ≠ 0 then (.stop 7 level e, wc')
         else walkFrom env emul ext dom va level (bits e 54 54 == 1) (entryPa e) wc')
      else if kind = 1 ∧ level = 2 then (leafEnd dom va 30 2 e, wc')
      else if kind = 1 ∧ level = 1 then (leafEnd dom va 21 1 e, wc')
      else if kind = 2 ∧ level = 1 then (fineWalk env emul ext dom va e, wc')
      else if kind = 1 ∧ level = 0 then
        (if bits e 7 7 = 1 then
          (if bits (entryPa e) 15 12 ≠ bits va 15 12 ∨ entryPa e % 4096 ≠ 0 then (.stop 7 0 e, wc')
           else
            (.leaf ⟨dom, va / 65536 * 65536, 16, entryPa e / 65536 * 65536, bits e 54 54 == 1, bits e 4 4 == 1,
                    bits e 5 5 == 1, bits e 6 6 == 1, 0, e⟩, wc'))
         else (leafEnd dom va 12 0 e, wc'))
      else if kind = 3 ∧ level = 0 then (.stop 6 0 e, wc')
      else (.stop 7 level e, wc')

/-- A cached translation covers an address of a domain. -/
def TlbEntry.covers (t : TlbEntry) (dom va : Nat) : Bool :=
  t.domain == dom && decide (va / 2 ^ t.log2 = t.va / 2 ^ t.log2)

/-- Whether a leaf and its domain allow an access, or the reason they do not (R221, R224). -/
def permReason (d : Domain) (t : TlbEntry) : Access → Option Nat
  | .read | .index => if t.rd then none else some 3
  | .write => if t.wr && d.writeEn then none else some 4
  | .atomic =>
    if !t.rd then some 3
    else if !(t.wr && d.writeEn) then some 4
    else if !(t.at_ && d.atomicEn) then some 5 else none

/-- Keep the first `n` entries of a list that satisfy a test, and every other entry. -/
def keepFirst (p : TlbEntry → Bool) : Nat → List TlbEntry → List TlbEntry
  | _, [] => []
  | n, t :: ts => if p t then (match n with | 0 => keepFirst p 0 ts | m + 1 => t :: keepFirst p m ts) else t :: keepFirst p n ts

/-- Put a leaf into the hub TLB, latest used first: 65,536 entries, 8 ways, the least recently used of its set leaves (R222, R560). -/
def hubInsert (tlb : List TlbEntry) (t : TlbEntry) : List TlbEntry :=
  let set (u : TlbEntry) : Nat := Config.tlbSet u.domain u.va u.log2 % 8192
  if tlb.length < 8 then t :: tlb else t :: keepFirst (fun u => set u == set t) 7 tlb

/-- Find the leaf of an address: micro-TLB, then hub TLB, then a walk (R222). Of the 16 entries of an inconsistent CONTIG region an
access uses the one cached last for the region, else its own page's: R104 and R219 leave open which. DESIGN CHOICE, unsafe (log 36). -/
def findLeaf (r : Run) (dom va : Nat) (d : Domain) : WalkEnd × Run :=
  match r.micro.find? (·.covers dom va) with
  | some t => (.leaf t, { r with micro := t :: r.micro.erase t })
  | none =>
    let r := { r with misses := r.misses + 1 }
    match r.hub.tlb.find? (·.covers dom va) with
    | some t =>
      (.leaf t, { r with micro := (t :: r.micro).take 64, hub := { r.hub with tlb := t :: r.hub.tlb.erase t } })
    | none =>
      let w := if d.target < 2 then walkFrom r.env r.emul r.ext dom va 4 (d.target == 1) d.root r.hub.walkc
        else (.stop 7 3 0, r.hub.walkc)
      let hub := { r.hub with walkc := w.2, walks := r.hub.walks + 1 }
      match w.1 with
      | .leaf t =>
        (.leaf t, { r with micro := (t :: r.micro).take 64, hub := { hub with tlb := hubInsert hub.tlb t } })
      | .stop a b c => (.stop a b c, { r with hub := hub })

/-- Translate a virtual address for an access: where it lies, or the fault with its reason (R224). -/
def translate (r : Run) (dom : Nat) (va : Int) (acc : Access) (pos opnd : Nat) : Run × Option (Bool × Nat) :=
  let fail (r : Run) (reason level entry : Nat) : Run × Option (Bool × Nat) :=
    ({ r with fault := some ⟨if reason = 0 then 0 else 0x0200 + reason, va.toNat, pos, dom, reason, acc, level, opnd, entry⟩ }, none)
  if va < 0 ∨ 2 ^ 56 ≤ va then fail r 10 0xFF 0 else
    match r.hub.domains.find? (fun d => d.id == dom && d.valid) with
    | none => fail r 2 0xFF 0
    | some d =>
      match findLeaf r dom va.toNat d with
      | (.stop reason level entry, r) => fail r reason level entry
      | (.leaf t, r) =>
        match permReason d t acc with
        | some reason => fail r reason t.level t.entry
        | none =>
          let pa := t.pa + (va.toNat % 2 ^ t.log2)
          if t.emul && !emulAddrOk r.env.columns pa then fail r 8 t.level t.entry
          else if t.emul && r.env.halts.contains (pa / 2 ^ 31) then
            ({ r with fault := some ⟨0, va.toNat, pos, dom, 0, acc, t.level, opnd, t.entry⟩ }, none)
          else (r, some (t.emul, pa))

/-! ### Bytes -/

/-- A byte of a memory of the run. -/
def Run.peek (r : Run) : Space → Nat → Byte
  | .store, a => r.store.read a
  | .tile, a => r.tiles.read a
  | .emul, a => r.emul.read a
  | .ext, a => r.ext.read a

/-- Put a byte into a memory of the run. -/
def Run.poke (r : Run) : Space → Nat → Byte → Run
  | .store, a, b => { r with store := r.store.write a b }
  | .tile, a, b => { r with tiles := r.tiles.write a b }
  | .emul, a, b => { r with emul := r.emul.write a b }
  | .ext, a, b => { r with ext := r.ext.write a b }

/-- Where the byte at an address of a tensor lies, after the bounds window, the slice-store size and translation
(R120, R122, R542). `plane` marks the scale plane in OPERAND (R226). -/
def locate (r : Run) (t : Tensor) (a : Int) (acc : Access) (pos opnd : Nat) : Run × Option (Space × Nat) :=
  if r.fault.isSome then (r, none) else
    let oob : Bool :=
      (match t.limit with
       | some l => decide (a < t.base ∨ t.base + l ≤ a)
       | none => false) || (!t.virt && decide (a < 0 ∨ (r.env.storeBytes : Int) ≤ a))
    if oob then
      ({ r with fault := some ⟨0x0103, a.toNat, pos, t.domain, 0, acc, 0xFF, opnd, 0⟩ }, none)
    else if t.virt then
      match translate r t.domain a acc pos opnd with
      | (r, none) => (r, none)
      | (r, some (em, pa)) =>
        if em then (r, some (.emul, pa))
        else
          let x : ExtAcc := ⟨granuleOf pa, acc.portKind, r.unit, opnd, t.domain, a.toNat / 64 * 64⟩
          ({ r with exts := if r.exts.contains x then r.exts else x :: r.exts }, some (.ext, pa))
    else (r, some (.store, a.toNat))

/-- Read the byte at an address of a tensor; an uncorrectable granule raises EMUL_DATA (R331). -/
def readByte (r : Run) (t : Tensor) (a : Int) (acc : Access) (pos opnd : Nat) : Run × Byte :=
  match locate r t a acc pos opnd with
  | (r, none) => (r, 0)
  | (r, some (sp, x)) =>
    if sp = .emul ∧ r.env.poison.contains (granuleOf x) then
      ({ r with fault := some ⟨0x0301, x, pos, t.domain, 0, acc, 0xFF, opnd, 0⟩ }, 0)
    else (r, r.peek sp x)

/-- Read n bytes from an address of a tensor upward. -/
def readBytes (r : Run) (t : Tensor) (acc : Access) (pos opnd : Nat) : Int → Nat → Run × List Byte
  | _, 0 => (r, [])
  | a, n + 1 =>
    let x := readByte r t a acc pos opnd
    let y := readBytes x.1 t acc pos opnd (a + 1) n
    (y.1, x.2 :: y.2)

/-- Apply the bit writes of one element, and the bits they replaced. -/
def applyParts (r : Run) : List BitWrite → Run × List BitWrite
  | [] => (r, [])
  | w :: ws =>
    let old := r.peek w.space w.addr
    let r' := r.poke w.space w.addr ((old &&& ~~~w.mask) ||| (w.val &&& w.mask))
    let y := applyParts r' ws
    (y.1, ⟨w.space, w.addr, w.mask, old⟩ :: y.2)

/-- Write one element, remembering what it replaced under the current unit of progress (R147). -/
def Run.write (r : Run) (ws : List BitWrite) : Run :=
  let x := applyParts r ws
  { x.1 with undo := ⟨r.unit, x.2⟩ :: x.1.undo }

end Sys2Proof.Machine
end

