-- ==== Sys2Proof/Machine/Operands.lean ====
section
/-! DEFINITION. Operand forms: the elements of tensors and tile registers, read and written with their conversions
(R53 to R69, R119 to R122, R132 to R134, R165, R192, R204, R561). -/

namespace Sys2Proof.Machine

/-! ### Shapes -/

/-- The element count: the product of the extents (R119). -/
def Tensor.count (t : Tensor) : Nat := t.dims.foldl (fun n d => n * d.extent) 1

/-- The index tuple at an iteration position, dimension 0 fastest (R119). -/
def coordsOf : List Dim → Nat → List Nat
  | [], _ => []
  | d :: ds, i => i % d.extent :: coordsOf ds (i / d.extent)

/-- The linear element offset of an index tuple (R55). -/
def linearOf : List Dim → List Nat → Int
  | d :: ds, i :: is => i * d.stride + linearOf ds is
  | _, _ => 0

/-- The iteration position of an index tuple over its dimensions' extents. -/
def positionOf : List Dim → List Nat → Nat
  | d :: ds, i :: is => i + d.extent * positionOf ds is
  | _, _ => 0

/-- Bytes of a PACKED element (R54). -/
def packedBytes (f : Fmt) : Nat := fmtBits f / 8

/-- The element count that an operand stands for: a tile register is 4,096 elements (R133). -/
def Operand.count? : Operand → Option Nat
  | .none => Option.none
  | .tile _ => some 4096
  | .tensor t => some t.count

/-- The linear element offset at an iteration position, an indexed dimension taken from its index tensor (R204). -/
def elemOffset (r : Run) (t : Tensor) (pos : Nat) : Run × Int :=
  let cs := coordsOf t.dims pos
  match t.idx with
  | none => (r, linearOf t.dims cs)
  | some ix =>
    let j := positionOf (t.dims.drop ix.dim) (cs.drop ix.dim)
    let o := linearOf ix.dims (coordsOf ix.dims j)
    let w := packedBytes ix.fmt
    let side : Tensor := { t with virt := false, base := ix.base, limit := ix.limit }
    let x := readBytes r side .index pos 5 (ix.base + o * w) w
    let v := intOfCode ix.fmt (ofLeBytes x.2)
    let strided := (t.dims.zip cs).map fun p => (p.2 : Int) * p.1.stride
    let own := ((t.dims.drop ix.dim).head?.map (·.stride)).getD 0
    let here := (strided.drop ix.dim).head?.getD 0
    (x.1, strided.foldl (· + ·) 0 - here + v * own)

/-- The byte address of plane `p` of element `e` of a PLANAR tensor (R55). -/
def planeAddr (t : Tensor) (e : Int) (p : Nat) : Int :=
  t.base + e / 1024 * (fmtBits t.fmt * 128 : Nat) + (p * 128 : Nat) + e % 1024 / 8

/-- The planes `p` to `p + n - 1` of an element, most significant bit first. -/
def readPlanes (r : Run) (t : Tensor) (pos opnd : Nat) (e : Int) : Nat → Nat → Nat → Run × Nat
  | _, 0, acc => (r, acc)
  | p, n + 1, acc =>
    let x := readByte r t (planeAddr t e p) .read pos opnd
    let b := x.2.toNat / 2 ^ (e % 8).toNat % 2
    readPlanes x.1 t pos opnd e (p + 1) n (2 * acc + b)

/-- The code of the element at a linear offset. -/
def readCodeAt (r : Run) (t : Tensor) (pos opnd : Nat) (e : Int) : Run × Nat :=
  if t.planar then readPlanes r t pos opnd e 0 (fmtBits t.fmt) 0
  else
    let w := packedBytes t.fmt
    let x := readBytes r t .read pos opnd (t.base + e * w) w
    (x.1, ofLeBytes x.2)

/-- The address space of a tensor's scale plane: its base moved, its window the same (R56, R122). -/
def scaleAddr (t : Tensor) (e : Int) : Int := t.scaleBase + e / 32

/-- The scale code of the block of an element; 127, which is 1, for a format that is not MX (R56). -/
def readScaleAt (r : Run) (t : Tensor) (pos opnd : Nat) (e : Int) : Run × Nat :=
  if fmtMx t.fmt then
    let x := readByte r t (scaleAddr t e) .read pos (0x80 + opnd)
    (x.1, x.2.toNat)
  else (r, 127)

/-- A decoded element times its block scale; a scale of 0xFF reads as NaN (R50, R52). -/
def scaled (x : Val) (sc : Nat) : Val :=
  if sc = 255 then .nan else x.mul (.fin false 1 ((sc : Int) - 127))

/-- The tile register that a name means at an iteration position (R134). -/
def tileAt (r : Run) (n pos : Nat) : Nat :=
  if r.env.double ∧ pos / 4096 % 2 = 1 then n + 16 else n

/-- The raw element of a tile register (R133, R165). -/
def readTile (r : Run) (f : Fmt) (n pos : Nat) : Nat :=
  let base := tileAt r n pos * 16384
  let i := pos % 4096
  if f = .mask1 then (r.tiles.read (base + i / 8)).toNat / 2 ^ (i % 8) % 2
  else r.tiles.readLe (base + i * packedBytes f) (packedBytes f)

/-- The per-tensor scale as a value; MASK1 ignores it (R59). -/
def Tensor.scaleVal (t : Tensor) : Val := if t.fmt = .mask1 then .one else f32 t.tscale

/-- An element as held: its code, and its exact value with block scale and tensor scale (R59, R61). `tf` is the format of
a tile-register operand. -/
def loadElem (r : Run) (o : Operand) (tf : Fmt) (pos opnd : Nat) : Run × Nat × Val :=
  match o with
  | .none => (r, 0, .zero)
  | .tile n => let c := readTile r tf n pos; (r, c, decodeElem tf c)
  | .tensor t =>
    let e := elemOffset r t pos
    let c := readCodeAt e.1 t pos opnd e.2
    let s := readScaleAt c.1 t pos opnd e.2
    (s.1, c.2, (scaled (decodeElem t.fmt c.2) s.2).mul t.scaleVal)

/-! ### Counts, fog and meters -/

/-- Count a saturated element (R94); the count stops at its top. -/
def Run.countSat (r : Run) (b : Bool) : Run :=
  if b then { r with cnt := { r.cnt with sat := satAdd 0xFFFFFFFF r.cnt.sat 1 } } else r

/-- Count into AUX, which stops at its top (R169). -/
def Run.countAux (r : Run) (n : Nat) : Run :=
  { r with cnt := { r.cnt with aux := satAdd 0xFFFFFFFF r.cnt.aux n } }

/-- Count a flushed accumulator (R87, R94). -/
def Run.countFlush (r : Run) (n : Nat) : Run :=
  { r with cnt := { r.cnt with flush := satAdd 0xFFFFFFFF r.cnt.flush n } }

/-- Count an inexact low part (R100). -/
def Run.countInexact (r : Run) (b : Bool) : Run :=
  if b then { r with cnt := { r.cnt with inexact := satAdd 0xFFFFFFFF r.cnt.inexact 1 } } else r

/-- The kind of a fog event (R97). -/
def fogKind : Val → Nat
  | .nan => 1
  | .inf s => if s then 3 else 2
  | .fin _ _ _ => 0

/-- One fog event comes before another in the production order of R95. -/
def FogEvent.before (a b : FogEvent) : Bool :=
  decide (a.output < b.output) ||
    (a.output == b.output && (decide (a.unit < b.unit) || (a.unit == b.unit && decide (a.order < b.order))))

/-- Record a NaN or infinity written at an output (R95, R96). -/
def Run.noteFog (r : Run) (ev : FogEvent) : Run :=
  let first := match r.cnt.fog with
    | none => true
    | some f => ev.before f
  { r with cnt := { r.cnt with nonfin := satAdd 0xFFFFFFFF r.cnt.nonfin 1, fog := if first then some ev else r.cnt.fog } }

/-- Note an element written, when it reads back as a NaN or an infinity. -/
def Run.noteElem (r : Run) (o : Operand) (out pos : Nat) (offset : Int) (x : Val) (order : Option Int := none) : Run :=
  if x.nonfinite then
    (match o with
     | .tensor t => r.noteFog ⟨r.unit, order.getD offset, fogKind x, out, t.dims.length, coordsOf t.dims pos, offset⟩
     | _ => r.noteFog ⟨r.unit, order.getD offset, fogKind x, out, 1, [pos], pos⟩)
  else r

/-- The FP32 code of a finite magnitude for AMAX, at most the largest finite one (log 22). -/
def amaxCode (x : Val) : Nat := min (toF32 x.abs) 0x7F7FFFFF

/-- Feed a value into a meter slot for the current unit (R71). -/
def Run.feed (r : Run) (m : Option MeterCtl) (x : Val) : Run :=
  match m with
  | none => r
  | some ctl =>
    let nf := x.nonfinite
    let a := if nf then 0 else amaxCode x
    match r.feeds with
    | f :: fs =>
      if f.unit = r.unit ∧ f.ctl = ctl then
        { r with feeds := { f with amax := max f.amax a, seen := f.seen || !nf, nonfin := f.nonfin || nf } :: fs }
      else { r with feeds := ⟨r.unit, ctl, a, !nf, nf⟩ :: f :: fs }
    | [] => { r with feeds := [⟨r.unit, ctl, a, !nf, nf⟩] }

/-- Load an element into a compute format: its code in that format, with the load path's count and meter (R61, R66, R71). -/
def loadCfmt (r : Run) (o : Operand) (cf : Fmt) (pos opnd : Nat) : Run × Nat :=
  match o with
  | .tensor t =>
    let x := loadElem r o cf pos opnd
    let c := encodeElem cf x.2.2
    ((x.1.countSat c.2).feed t.meter (decodeElem cf c.1), c.1)
  | _ => let x := loadElem r o cf pos opnd; (x.1, x.2.1)

/-! ### Stores -/

/-- A value to be stored at a position: exact, with its code in the compute format; `copy` stores a tensor element's code
as it is (R62); `quiet` is a PZERO zero, which is not counted, metered or recorded (R165); `order` is the production order where it is not the offset (R95). -/
structure PosVal where
  pos   : Nat
  val   : Val
  code  : Nat
  copy  : Bool
  quiet : Bool
  order : Option Int := none
deriving DecidableEq, Repr

/-- RTS: 1 / TSCALE rounded to FP32 (R61). -/
def Tensor.rts (t : Tensor) : Val := if t.fmt = .mask1 then .one else rnd32 (Val.one.div (f32 t.tscale))

/-- The bit writes of one element's code at a linear offset, each byte checked and translated. -/
def packedParts (r : Run) (t : Tensor) (acc : Access) (pos opnd : Nat) (a : Int) : List Byte → Run × List BitWrite
  | [] => (r, [])
  | b :: bs =>
    let x := locate r t a acc pos opnd
    let y := packedParts x.1 t acc pos opnd (a + 1) bs
    (y.1, match x.2 with
      | some (sp, ad) => ⟨sp, ad, 0xFF, b⟩ :: y.2
      | none => y.2)

/-- The bit writes of one element of a PLANAR tensor: bit (b - 1 - p) of the code into plane p (R55). -/
def planarParts (r : Run) (t : Tensor) (acc : Access) (pos opnd : Nat) (e : Int) (code : Nat) :
    Nat → Nat → Run × List BitWrite
  | _, 0 => (r, [])
  | p, n + 1 =>
    let x := locate r t (planeAddr t e p) acc pos opnd
    let k := (e % 8).toNat
    let bit := code / 2 ^ n % 2
    let y := planarParts x.1 t acc pos opnd e code (p + 1) n
    (y.1, match x.2 with
      | some (sp, ad) => ⟨sp, ad, BitVec.ofNat 8 (2 ^ k), BitVec.ofNat 8 (bit * 2 ^ k)⟩ :: y.2
      | none => y.2)

/-- The bit writes of one element of a tensor. -/
def elemParts (r : Run) (t : Tensor) (acc : Access) (pos opnd : Nat) (e : Int) (code : Nat) : Run × List BitWrite :=
  if t.planar then planarParts r t acc pos opnd e code 0 (fmtBits t.fmt)
  else packedParts r t acc pos opnd (t.base + e * packedBytes t.fmt) (leBytes (packedBytes t.fmt) code)

/-- Write one element's code, unless an address of it failed. -/
def writeElem (r : Run) (t : Tensor) (pos opnd : Nat) (e : Int) (code : Nat) : Run :=
  let x := elemParts r t .write pos opnd e code
  if x.1.fault.isSome then x.1 else x.1.write x.2

/-- Write one raw element of a tile register (R133, R165). -/
def writeTile (r : Run) (f : Fmt) (n pos code : Nat) : Run :=
  let base := tileAt r n pos * 16384
  let i := pos % 4096
  if f = .mask1 then
    r.write [⟨.tile, base + i / 8, BitVec.ofNat 8 (2 ^ (i % 8)), BitVec.ofNat 8 (code % 2 * 2 ^ (i % 8))⟩]
  else
    let w := packedBytes f
    r.write ((leBytes w code).zipIdx.map fun p => ⟨.tile, base + i * w + p.2, 0xFF, p.1⟩)

/-- The exponent of an element format's largest finite value (R68). -/
def emaxOf : Fmt → Int
  | .mxE4m3 => 8 | .mxE5m2 => 15 | .mxE3m2 => 4 | .mxE2m3 => 2 | .mxE2m1 => 2 | _ => 0

/-- A scaled magnitude lies at or past the format's threshold (R63, R68). -/
def pastThreshold (f : Fmt) : Val → Bool
  | .fin _ m e =>
    if f = .mxInt8 then decide (127 < rneInt false m (e + 6))
    else decide (fmtMax f < magCode (fmtMan f) (fmtQmin f) m e)
  | _ => false

/-- The shared exponent of a block from its largest finite magnitude, and its scale code (R68). -/
def blockScale (f : Fmt) (safe : Bool) (amax : Val) : Nat :=
  if amax.isZero then 0x7F else
    let x0 := amax.ilog2 - emaxOf f
    let x1 := if safe && pastThreshold f (amax.mul (.fin false 1 (-x0))) then x0 + 1 else x0
    (max (-127) (min 127 x1) + 127).toNat

/-- The largest finite magnitude of a list. -/
def amaxOf (vs : List Val) : Val :=
  vs.foldl (fun a x => if x.nonfinite then a else if a.cmp x.abs == .lt then x.abs else a) .zero

/-- The positions of one MX block, as (offset in block, value to write). -/
def lookupBlock (ws : List (Nat × PosVal)) (j : Nat) : Option PosVal :=
  (ws.filter fun p => p.1 == j).getLast?.map (·.2)

/-- Read the kept elements of a block that is written in part, exactly and in the stored domain (R561). -/
def keptVals (r : Run) (t : Tensor) (pos opnd : Nat) (b : Int) (sc : Nat) (ws : List (Nat × PosVal)) :
    List Nat → Run × List (Nat × Option PosVal × Val)
  | [] => (r, [])
  | j :: js =>
    match lookupBlock ws j with
    | some p =>
      let y := keptVals r t pos opnd b sc ws js
      (y.1, (j, some p, p.val.mul t.rts) :: y.2)
    | none =>
      let c := readCodeAt r t pos opnd (32 * b + j)
      let y := keptVals c.1 t pos opnd b sc ws js
      (y.1, (j, none, scaled (decodeElem t.fmt c.2) sc) :: y.2)

/-- Encode and write the elements of a block against its scale code (R68). -/
def writeBlockElems (r : Run) (o : Operand) (t : Tensor) (pos opnd out : Nat) (b : Int) (sc : Nat) :
    List (Nat × Option PosVal × Val) → Run
  | [] => r
  | (j, p?, v) :: rest =>
    let x : Int := (sc : Int) - 127
    let c := if sc = 255 then (0, false) else encodeElem t.fmt (v.mul (.fin false 1 (-x)))
    let e := 32 * b + j
    let r1 := (writeElem r t ((p?.map (·.pos)).getD pos) opnd e c.1).countSat c.2
    let r2 :=
      match p? with
      | some p => if p.quiet || sc == 255 then r1
                  else r1.noteElem o out p.pos e (scaled (decodeElem t.fmt c.1) sc) p.order
      | none => r1
    writeBlockElems r2 o t pos opnd out b sc rest

/-- The position of the first element of the block that holds the element of a position at a linear offset (R53, R95). A tensor indexed
along dimension 0 has no such position: the position itself stands. -/
def blockPos (t : Tensor) (pos : Nat) (e : Int) : Nat :=
  match t.idx with
  | some ix => if ix.dim = 0 then pos else pos - (e % 32).toNat
  | none => pos - (e % 32).toNat

/-- The writes made since the list of replaced bits had `n` entries become one. -/
def Run.joinWrites (r : Run) (n : Nat) : Run :=
  let k := r.undo.length - n
  { r with undo := ⟨r.unit, (r.undo.take k).flatMap (·.parts)⟩ :: r.undo.drop k }

/-- Write the scale code of a block whose elements are written since the list of replaced bits had `n` entries. An element of the block
means its code with the scale code, so that with another scale code the block is old or new as a whole (R104, R147). -/
def writeScale (r : Run) (t : Tensor) (pos opnd n : Nat) (b : Int) (sc : Nat) : Run :=
  let x := locate r t (scaleAddr t (32 * b)) .write pos (0x80 + opnd)
  match x.2 with
  | some (sp, a) =>
    let same := x.1.peek sp a == BitVec.ofNat 8 sc
    let r := x.1.write [⟨sp, a, 0xFF, BitVec.ofNat 8 sc⟩]
    if same then r else r.joinWrites n
  | none => x.1

/-- Store one MX block: its written positions, its kept elements where it is written in part (R68, R561). A block cut by an extent that
is bound to no multiple of 32 is rewritten in the same way, without a fault: R53 asks the multiple of the static extents. A block that
becomes NaN only through a kept NaN records no fog event, and its other elements read back as NaN: R561 does not say.
DESIGN CHOICE, unsafe (log 37). -/
def storeBlock (r : Run) (o : Operand) (t : Tensor) (opnd out : Nat) (b : Int) (ws : List (Nat × PosVal)) : Run :=
  let pos := (ws.head?.map (·.2.pos)).getD 0
  let full := (List.range 32).all fun j => (lookupBlock ws j).isSome
  let s := if full then (r, 127) else readScaleAt r t pos opnd (32 * b)
  let ks := keptVals s.1 t pos opnd b s.2 ws (List.range 32)
  let vals := ks.2.map (·.2.2)
  let nanBlock := nanViaScale t.fmt && vals.any (· == Val.nan)
  let sc := if nanBlock then 255 else blockScale t.fmt t.safe (amaxOf vals)
  let r1 := writeBlockElems ks.1 o t pos opnd out b sc ks.2
  let r2 := writeScale r1 t pos opnd ks.1.undo.length b sc
  let newNan := ws.any fun p => !p.2.quiet && p.2.val == Val.nan
  let first := blockPos t pos ((ws.head?.map (·.1)).getD 0 : Nat)
  if nanBlock && newNan then r2.noteElem o out first (32 * b) .nan ((ws.head?.map (·.2.order)).join) else r2

/-- Store the blocks of a unit, each with all of its written positions. -/
def storeBlocks (o : Operand) (t : Tensor) (opnd out : Nat) : Nat → Run → List (Int × PosVal) → Run
  | 0, r, _ => r
  | _, r, [] => r
  | n + 1, r, (e, p) :: rest =>
    let b := e / 32
    let all := (e, p) :: rest
    let mine := all.filter fun q => q.1 / 32 == b
    let others := rest.filter fun q => q.1 / 32 != b
    storeBlocks o t opnd out n (storeBlock r o t opnd out b (mine.map fun q => ((q.1 % 32).toNat, q.2))) others

/-- The linear offsets of the positions of a unit. -/
def offsetsOf (t : Tensor) : Run → List PosVal → Run × List (Int × PosVal)
  | r, [] => (r, [])
  | r, p :: ps =>
    let e := elemOffset r t p.pos
    let y := offsetsOf t e.1 ps
    (y.1, (e.2, p) :: y.2)

/-- Store the positions of a unit one after another into a tensor that is not MX. -/
def storePlain (o : Operand) (t : Tensor) (opnd out : Nat) : Run → List PosVal → Run
  | r, [] => r
  | r, p :: ps =>
    let e := elemOffset r t p.pos
    let c := if p.copy then (p.code, false) else encodeElem t.fmt (p.val.mul t.rts)
    let r1 := writeElem e.1 t p.pos opnd e.2 c.1
    let r2 := if p.quiet then r1 else (r1.countSat c.2).noteElem o out p.pos e.2 (decodeElem t.fmt c.1) p.order
    storePlain o t opnd out r2 ps

/-- The addresses of the positions of a unit in an MX tensor, checked in iteration order: the first that fails faults (R206, R542). -/
def checkStores (t : Tensor) (opnd : Nat) : Run → List PosVal → Run
  | r, [] => r
  | r, p :: ps =>
    let e := elemOffset r t p.pos
    let x := elemParts e.1 t .write p.pos opnd e.2 0
    checkStores t opnd (locate x.1 t (scaleAddr t e.2) .write p.pos (0x80 + opnd)).1 ps

/-- Store the positions of a unit into a tile register, raw in its format. -/
def storeTile (o : Operand) (f : Fmt) (n out : Nat) : Run → List PosVal → Run
  | r, [] => r
  | r, p :: ps =>
    let r1 := writeTile r f n p.pos p.code
    let r2 := if p.quiet ∨ f = .mask1 then r1 else r1.noteElem o out p.pos p.pos (decodeElem f p.code) p.order
    storeTile o f n out r2 ps

/-- Feed the values that an engine produced into the destination's meter (R71). -/
def feedAll (m : Option MeterCtl) (r : Run) (ps : List PosVal) : Run :=
  ps.foldl (fun r p => if p.quiet then r else r.feed m p.val) r

/-- Store one unit's values into a destination (R61, R68, R71, R95). -/
def storeUnit (r : Run) (o : Operand) (f : Fmt) (opnd out : Nat) (ps : List PosVal) : Run :=
  match o with
  | .none => r
  | .tile n => storeTile o f n out r ps
  | .tensor t =>
    let r := feedAll t.meter r ps
    if fmtMx t.fmt then
      let c := checkStores t opnd r ps
      if c.fault.isSome then c else
        let es := offsetsOf t r ps
        storeBlocks o t opnd out es.2.length es.1 es.2
    else storePlain o t opnd out r ps

/-! ### Units of progress -/

/-- Close the current unit: its counts are kept for a stop (R94, R147). -/
def Run.endUnit (r : Run) : Run :=
  if r.fault.isSome then r else { r with unit := r.unit + 1, snaps := r.cnt :: r.snaps }

/-- Run a unit step over the units of a list, stopping at a fault. -/
def runUnits (f : Run → Nat → Run) : Run → List Nat → Run
  | r, [] => r
  | r, u :: us => if r.fault.isSome then r else runUnits f ((f r u).endUnit) us

/-- The positions of strip k of n positions (R130, R132). -/
def stripPositions (n k : Nat) : List Nat := List.range' (4096 * k) (min 4096 (n - 4096 * k))

/-- The predicate at a position (R165). -/
def predAt (r : Run) (o : Operand) (inv : Bool) (pos : Nat) : Run × Bool :=
  match o with
  | .none => (r, true)
  | _ => let x := loadElem r o .mask1 pos 4; (x.1, (x.2.1 % 2 == 1) != inv)

end Sys2Proof.Machine
end

