-- ==== Sys2Proof/Machine/Element.lean ====
section
/-! DEFINITION. The element-wise instructions of the vector engine, 0x20 to 0x4E (R160 to R180): one function per
opcode on codes of the compute format, and the strip walk they share. -/

namespace Sys2Proof.Machine

/-- What an element function reads: the compute format, FUNC, IMM32, its codes and the iteration position. -/
structure EArg where
  f    : Fmt
  func : Nat
  imm  : Nat
  a    : Nat
  b    : Nat
  c    : Nat
  pos  : Nat
deriving DecidableEq, Repr

/-- What an element function delivers: the codes of its outputs, whether AUX counts, whether the low part is inexact. -/
structure ERes where
  out     : Nat
  out2    : Nat
  aux     : Bool
  inexact : Bool
deriving DecidableEq, Repr

/-- A result with one output. -/
def ERes.one (c : Nat) : ERes := ⟨c, 0, false, false⟩

/-- FUNC bit 0. -/
def EArg.f0 (x : EArg) : Bool := x.func % 2 == 1

/-- Deliver an exact value in a floating-point compute format, rounded once (R76). -/
def fpOut (f : Fmt) (v : Val) : ERes := .one (encodeElem f v).1

/-- Deliver an exact integer: wrapped, or replaced by the extreme and counted (R169). -/
def intOut (f : Fmt) (sat : Bool) (i : Int) : ERes :=
  if sat && (decide (intMax f < i) || decide (i < intMin f)) then
    ⟨codeOfInt f (if intMax f < i then intMax f else intMin f), 0, true, false⟩
  else .one (codeOfInt f i)

/-- An operation with an integer and a floating-point form. -/
def arith (x : EArg) (onInt : Int → Int → Int → Int) (onVal : Val → Val → Val → Val) : ERes :=
  if fmtInt x.f then
    intOut x.f x.f0 (onInt (intOfCode x.f x.a) (intOfCode x.f x.b) (intOfCode x.f x.c))
  else fpOut x.f (onVal (decodeElem x.f x.a) (decodeElem x.f x.b) (decodeElem x.f x.c))

/-- ADD (R169, R171). -/
def elAdd (x : EArg) : ERes := arith x (fun a b _ => a + b) (fun a b _ => a.add b)
/-- SUB. -/
def elSub (x : EArg) : ERes := arith x (fun a b _ => a - b) (fun a b _ => a.sub b)
/-- MUL. -/
def elMul (x : EArg) : ERes := arith x (fun a b _ => a * b) (fun a b _ => a.mul b)
/-- FMA: one rounding. -/
def elFma (x : EArg) : ERes := arith x (fun a b c => a * b + c) (fun a b c => (a.mul b).add c)
/-- FNMA: -(a b) + c, one rounding. -/
def elFnma (x : EArg) : ERes := arith x (fun a b c => -(a * b) + c) (fun a b c => ((a.mul b).negate).add c)
/-- ABS. -/
def elAbs (x : EArg) : ERes := arith x (fun a _ _ => a.natAbs) (fun a _ _ => a.abs)
/-- NEG. -/
def elNeg (x : EArg) : ERes := arith x (fun a _ _ => -a) (fun a _ _ => a.negate)

/-- Round to FP32, then once to the compute format (R179). -/
def viaF32 (f : Fmt) (v : Val) : ERes := fpOut f (rnd32 v)

/-- DIV (R175, R179). -/
def elDiv (x : EArg) : ERes := viaF32 x.f ((decodeElem x.f x.a).div (decodeElem x.f x.b))
/-- RCP is DIV(1, a) (R175). -/
def elRcp (x : EArg) : ERes := viaF32 x.f (Val.one.div (decodeElem x.f x.a))
/-- SQRT (R175). -/
def elSqrt (x : EArg) : ERes := viaF32 x.f (decodeElem x.f x.a).sqrt

/-- MIN (R80, R172). -/
def elMin (x : EArg) : ERes :=
  arith { x with func := if fmtInt x.f then 0 else x.func } (fun a b _ => min a b) (fun a b _ => Val.min' x.f0 a b)
/-- MAX (R80, R172). -/
def elMax (x : EArg) : ERes :=
  arith { x with func := if fmtInt x.f then 0 else x.func } (fun a b _ => max a b) (fun a b _ => Val.max' x.f0 a b)
/-- CLAMP is MIN(MAX(a, b), c) (R172). -/
def elClamp (x : EArg) : ERes :=
  arith { x with func := if fmtInt x.f then 0 else x.func } (fun a b c => min (max a b) c)
    (fun a b c => Val.min' x.f0 (Val.max' x.f0 a b) c)

/-- COPYSIGN: the magnitude of a with the sign bit of b as held; NaN stays the canonical NaN (R171). -/
def elCopysign (x : EArg) : ERes :=
  let a := decodeElem x.f x.a
  let s := decide (2 ^ (fmtBits x.f - 1) ≤ x.b)
  fpOut x.f (if s then a.abs.negate else a.abs)

/-- TWOSUM (R98). -/
def twoSum (a b : Val) : Val × Val :=
  let t := a.add b
  let s := rnd32 t
  if s.nonfinite then (s, s) else
    let e := rnd32 (t.sub s)
    (s, if e.isZero then .zero else e)

/-- TWOSUM as an element function. -/
def elTwosum (x : EArg) : ERes :=
  let p := twoSum (decodeElem x.f x.a) (decodeElem x.f x.b)
  ⟨toF32 p.1, toF32 p.2, false, false⟩

/-- TWOPROD (R99, R100). -/
def elTwoprod (x : EArg) : ERes :=
  let t := (decodeElem x.f x.a).mul (decodeElem x.f x.b)
  let p := rnd32 t
  if p.nonfinite then ⟨toF32 p, toF32 p, false, false⟩ else
    let d := t.sub p
    let e := rnd32 d
    ⟨toF32 p, if e.isZero then 0 else toF32 e, false, !(d.sub e).isZero⟩

/-- ROUNDINT: the sign of the operand is kept (R174). -/
def elRoundint (x : EArg) : ERes :=
  match decodeElem x.f x.a with
  | .fin s m e => fpOut x.f (.fin s (rneInt false m e).natAbs 0)
  | v => fpOut x.f v

/-- BCAST: its scalar stands in the b slot (R164, R174). -/
def elBcast (x : EArg) : ERes :=
  if fmtInt x.f then .one x.b else fpOut x.f (decodeElem x.f x.b)

/-- A function of 0x32 to 0x3E at a code (R175 to R179). -/
def elApprox (fn : Fn) (x : EArg) : ERes := fpOut x.f (f32 (approx fn (toF32 (decodeElem x.f x.a))))

/-- CMP (R173). -/
def elCmp (x : EArg) : ERes := .one (if cmpPred x.f (x.func % 16) x.a x.b then 1 else 0)

/-- CLASS (R173). -/
def elClass (x : EArg) : ERes := .one (x.imm / 2 ^ classOf x.f x.a % 2)

/-- SELECT: c is the mask bit (R174). -/
def elSelect (x : EArg) : ERes :=
  let v := if x.c % 2 = 1 then x.a else x.b
  if fmtFloat x.f then fpOut x.f (decodeElem x.f v) else .one v

/-- AND (R170). -/
def elAnd (x : EArg) : ERes := .one (x.a &&& x.b)
/-- OR (R170). -/
def elOr (x : EArg) : ERes := .one (x.a ||| x.b)
/-- XOR (R170). -/
def elXor (x : EArg) : ERes := .one (x.a ^^^ x.b)
/-- NOT (R170). -/
def elNot (x : EArg) : ERes := .one (2 ^ fmtBits x.f - 1 - x.a % 2 ^ fmtBits x.f)

/-- SHL: amounts at or above the width give 0 (R170). -/
def elShl (x : EArg) : ERes :=
  .one (if fmtBits x.f ≤ x.b then 0 else (x.a * 2 ^ x.b) % 2 ^ fmtBits x.f)

/-- SHR, logical or arithmetic (R170). -/
def elShr (x : EArg) : ERes :=
  if x.f0 then .one (codeOfInt x.f (intOfCode x.f x.a / (2 ^ min x.b 64 : Nat)))
  else .one (if fmtBits x.f ≤ x.b then 0 else x.a / 2 ^ x.b)

/-- IOTA (R174). -/
def elIota (x : EArg) : ERes := .one ((x.pos + x.imm) % 2 ^ 32)

/-- The element function of an opcode (R166). -/
def elemFn (op func : Nat) : EArg → ERes :=
  match op with
  | 0x20 => elAdd | 0x21 => elSub | 0x22 => elMul | 0x23 => elFma | 0x24 => elFnma | 0x25 => elDiv
  | 0x26 => elMin | 0x27 => elMax | 0x28 => elClamp | 0x29 => elAbs | 0x2A => elNeg | 0x2B => elCopysign
  | 0x2C => elTwosum | 0x2D => elTwoprod | 0x2E => elRoundint | 0x2F => elBcast | 0x30 => elRcp | 0x31 => elSqrt
  | 0x32 => elApprox .rsqrt | 0x33 => elApprox .exp | 0x34 => elApprox .exp2 | 0x35 => elApprox .log
  | 0x36 => elApprox .log2 | 0x37 => elApprox .tanh | 0x38 => elApprox .sigmoid | 0x39 => elApprox .silu
  | 0x3A => elApprox (if func % 2 = 1 then .geluTanh else .gelu) | 0x3B => elApprox .erf
  | 0x3C => elApprox .softplus | 0x3D => elApprox .sin | 0x3E => elApprox .cos
  | 0x40 => elCmp | 0x41 => elClass | 0x42 => elSelect | 0x48 => elAnd | 0x49 => elOr | 0x4A => elXor
  | 0x4B => elNot | 0x4C => elShl | 0x4D => elShr | _ => elIota

/-- The format of the primary output: MASK1 for CMP and CLASS (R161). -/
def elemOutFmt (op : Nat) (cf : Fmt) : Fmt := if op = 0x40 ∨ op = 0x41 then .mask1 else cf

/-- The compute format of an instruction's IMM field (R160, R181, R191); a reserved ID, which Onori rejects, computes as
FP32 (log 23). -/
def immFmt (imm : Nat) : Fmt := (fmtOfId (bits imm 55 51)).getD .fp32

/-- A source slot at a position: its scalar, or its element in the compute format. -/
def loadSlot (r : Run) (o : Operand) (sc : Option Nat) (cf : Fmt) (pos opnd : Nat) : Run × Nat :=
  match sc with
  | some c => (r, c)
  | none => loadCfmt r o cf pos opnd

/-- One position of an element-wise instruction: its outputs, if any (R165). -/
def elemPos (op : Nat) (fl : Fields) (os : Operands) (r : Run) (pos : Nat) :
    Run × Option (PosVal × PosVal) :=
  let imm := fl.imm.toNat
  let cf := immFmt imm
  let rf := elemOutFmt op cf
  let p := predAt r os.pred (bits imm 37 37 == 1) pos
  if !p.2 then
    (p.1, if bits imm 38 38 = 1 then some (⟨pos, .zero, 0, false, true, none⟩, ⟨pos, .zero, 0, false, true, none⟩) else none)
  else
    let a := loadSlot p.1 os.a none cf pos 1
    let b := loadSlot a.1 os.b os.scalB cf pos 2
    let c := if op = 0x42 then loadSlot b.1 os.c none .mask1 pos 3
             else if op = 0x2C ∨ op = 0x2D then (b.1, 0)
             else loadSlot b.1 os.c os.scalC cf pos 3
    let y := elemFn op fl.func.toNat ⟨cf, fl.func.toNat, imm % 2 ^ 32, a.2, b.2, c.2, pos⟩
    let r := (c.1.countAux (if y.aux then 1 else 0)).countInexact y.inexact
    (r, some (⟨pos, decodeElem rf y.out, y.out, false, false, none⟩, ⟨pos, decodeElem rf y.out2, y.out2, false, false, none⟩))

/-- All positions of a strip, in order. -/
def elemAll (op : Nat) (fl : Fields) (os : Operands) : Run → List Nat → Run × List (PosVal × PosVal)
  | r, [] => (r, [])
  | r, p :: ps =>
    let x := elemPos op fl os r p
    let y := elemAll op fl os x.1 ps
    (y.1, match x.2 with | some v => v :: y.2 | none => y.2)

/-- One strip of an element-wise instruction: every element is read before its own is written (R163). -/
def elemStrip (op : Nat) (fl : Fields) (os : Operands) (r : Run) (k : Nat) : Run :=
  let rf := elemOutFmt op (immFmt fl.imm.toNat)
  let x := elemAll op fl os r (stripPositions r.env.total k)
  if x.1.fault.isSome then x.1 else
    let r1 := storeUnit x.1 os.dst rf 0 0 (x.2.map (·.1))
    if op = 0x2C ∨ op = 0x2D then storeUnit r1 os.c rf 3 1 (x.2.map (·.2)) else r1

end Sys2Proof.Machine
end

