-- ==== Sys2Proof/Machine/Move.lean ====
section
/-! DEFINITION. The move engine, 0x70 to 0x73, and the gather/scatter unit, 0x80 to 0x84 (R191 to R213). -/

namespace Sys2Proof.Machine

/-- FP32 1.0. -/
def f32One : Nat := 0x3F800000

/-- What R62 compares of an operand: format, layout, and whether its tensor scale is exactly 1.0. -/
def copyKey (tf : Fmt) : Operand → Option (Fmt × Bool)
  | .none => none
  | .tile _ => some (tf, false)
  | .tensor t => if fmtMx t.fmt ∨ (t.tscale ≠ f32One ∧ t.fmt ≠ .mask1) then none else some (t.fmt, t.planar)

/-- A move is a bit copy (R62). -/
def isBitCopy (tf : Fmt) (src dst : Operand) : Bool :=
  match copyKey tf src, copyKey tf dst with
  | some a, some b => a == b
  | _, _ => false

/-- The value of a source at a position as a move takes it, with its meter (R71, R196). -/
def moveLoad (r : Run) (src : Operand) (tf : Fmt) (copy : Bool) (spos dpos : Nat) : Run × PosVal :=
  let x := loadElem r src tf spos 1
  let m := match src with
    | .tensor t => t.meter
    | _ => none
  (x.1.feed m x.2.2, ⟨dpos, x.2.2, if copy then x.2.1 else (encodeElem tf x.2.2).1, copy, false, none⟩)

/-- The positions of a unit of a move: each predicate, then each source element; `src` maps a destination position to the
source position (R165, R194, R201). -/
def moveAll (fl : Fields) (os : Operands) (copy : Bool) (src : Nat → Nat) (zero : Bool) :
    Run → List Nat → Run × List PosVal
  | r, [] => (r, [])
  | r, p :: ps =>
    let imm := fl.imm.toNat
    let tf := immFmt imm
    let q := predAt r os.pred (bits imm 37 37 == 1) p
    if !q.2 then
      let y := moveAll fl os copy src zero q.1 ps
      (y.1, if zero && bits imm 38 38 == 1 then ⟨p, .zero, 0, false, true, none⟩ :: y.2 else y.2)
    else
      let x := moveLoad q.1 os.a tf copy (src p) p
      let y := moveAll fl os copy src zero x.1 ps
      (y.1, x.2 :: y.2)

/-- Count the saturations of a conversion into a tile register (R66, R94). -/
def countTileVals (r : Run) (o : Operand) (f : Fmt) (ps : List PosVal) : Run :=
  match o with
  | .tile _ => ps.foldl (fun r p => if p.quiet || p.copy then r else r.countSat (encodeElem f p.val).2) r
  | _ => r

/-- Store the values of a move's unit. -/
def moveStore (r : Run) (o : Operand) (tf : Fmt) (opnd out : Nat) (ps : List PosVal) : Run :=
  if r.fault.isSome then r else storeUnit (countTileVals r o tf ps) o tf opnd out ps

/-- Add the micro-TLB misses of a unit to AUX (R196). -/
def auxMisses (before : Nat) (r : Run) : Run := r.countAux (r.misses - before)

/-- Strip k of MOVE (R196). -/
def moveStrip (fl : Fields) (os : Operands) (r : Run) (k : Nat) : Run :=
  let tf := immFmt fl.imm.toNat
  let copy := isBitCopy tf os.a os.dst
  let x := moveAll fl os copy id true r (stripPositions r.env.total k)
  auxMisses r.misses (moveStore x.1 os.dst tf 0 0 x.2)

/-- The extents of the two innermost destination dimensions of a MOVET: source DIM1 and DIM0 (R201). -/
def movetDims (os : Operands) : Nat × Nat :=
  match os.dst with
  | .tensor t => ((t.dims.head?.map (·.extent)).getD 1, ((t.dims.drop 1).head?.map (·.extent)).getD 1)
  | _ => (1, 1)

/-- The source position of a destination position: the two innermost indices exchanged (R201). -/
def movetSource (d : Nat × Nat) (p : Nat) : Nat :=
  let tile := d.1 * d.2
  let i := p % tile
  p / tile * tile + i / d.1 + d.2 * (i % d.1)

/-- Positions p of a list through MOVET. -/
def movetPositions (fl : Fields) (os : Operands) (r : Run) (ps : List Nat) : Run :=
  let tf := immFmt fl.imm.toNat
  let copy := isBitCopy tf os.a os.dst
  let x := moveAll fl os copy (movetSource (movetDims os)) true r ps
  auxMisses r.misses (moveStore x.1 os.dst tf 0 0 x.2)

/-- Tile t of MOVET outside a group (R202). -/
def movetTile (fl : Fields) (os : Operands) (r : Run) (t : Nat) : Run :=
  let d := movetDims os
  movetPositions fl os r (List.range' (t * (d.1 * d.2)) (d.1 * d.2))

/-- Strip k of MOVET inside a group (R203). -/
def movetStrip (fl : Fields) (os : Operands) (r : Run) (k : Nat) : Run :=
  movetPositions fl os r (stripPositions r.env.total k)

/-- The value that FILL writes (R197). -/
def fillVal (fl : Fields) : Val :=
  let w := fl.imm.toNat % 2 ^ 32
  if fl.func.toNat % 2 = 1 then Val.ofInt (intOfCode .int32 w) else f32 w

/-- The positions of a strip of FILL. -/
def fillAll (fl : Fields) (os : Operands) : Run → List Nat → Run × List PosVal
  | r, [] => (r, [])
  | r, p :: ps =>
    let imm := fl.imm.toNat
    let v := fillVal fl
    let q := predAt r os.pred (bits imm 37 37 == 1) p
    let y := fillAll fl os q.1 ps
    (y.1,
      if q.2 then ⟨p, v, (encodeElem (immFmt imm) v).1, false, false, none⟩ :: y.2
      else if bits imm 38 38 = 1 then ⟨p, .zero, 0, false, true, none⟩ :: y.2 else y.2)

/-- Strip k of FILL (R197). -/
def fillStrip (fl : Fields) (os : Operands) (r : Run) (k : Nat) : Run :=
  let x := fillAll fl os r (stripPositions r.env.total k)
  auxMisses r.misses (moveStore x.1 os.dst (immFmt fl.imm.toNat) 0 0 x.2)

/-- The bounds of a proof-read element: its h present bits, the scale code (R58). The present exponent planes of an E5M2
element that all read ones make it non-finite. -/
def proofBounds (f : Fmt) (h hi sc : Nat) : Val × Val :=
  let n := fmtBits f
  let lo := hi * 2 ^ (n - h)
  let up := lo + (2 ^ (n - h) - 1)
  let expo := bits up 6 2
  if f = .mxE5m2 ∧ expo = 31 ∧ 2 ≤ h then (.nan, .nan)
  else
    let u := if f = .mxE4m3 ∧ up % 128 = 127 then Val.fin (decide (128 ≤ up)) 480 0 else decodeElem f up
    (scaled (decodeElem f lo) sc, scaled u sc)

/-- The proof read of one position: L and U with block scale and tensor scale, which the source's meter takes (R58, R71, R198). -/
def proofPos (h : Nat) (o : Operand) (r : Run) (pos : Nat) : Run × Val × Val :=
  match o with
  | .tensor t =>
    let e := elemOffset r t pos
    let c := readPlanes e.1 t pos 1 e.2 0 h 0
    let s := readScaleAt c.1 t pos 1 e.2
    let b := proofBounds t.fmt h c.2 s.2
    let lo := b.1.mul t.scaleVal
    let up := b.2.mul t.scaleVal
    ((s.1.feed t.meter lo).feed t.meter up, lo, up)
  | _ => (r, .zero, .zero)

/-- The positions of a strip of PROOF: lower and upper bounds. -/
def proofAll (fl : Fields) (os : Operands) : Run → List Nat → Run × List (PosVal × PosVal)
  | r, [] => (r, [])
  | r, p :: ps =>
    let imm := fl.imm.toNat
    let tf := immFmt imm
    let q := predAt r os.pred (bits imm 37 37 == 1) p
    if !q.2 then
      let y := proofAll fl os q.1 ps
      let z : PosVal := ⟨p, .zero, 0, false, true, none⟩
      (y.1, if bits imm 38 38 = 1 then (z, z) :: y.2 else y.2)
    else
      let x := proofPos (fl.func.toNat % 8) os.a q.1 p
      let y := proofAll fl os x.1 ps
      (y.1, (⟨p, x.2.1, (encodeElem tf x.2.1).1, false, false, none⟩, ⟨p, x.2.2, (encodeElem tf x.2.2).1, false, false, none⟩) :: y.2)

/-- Strip k of PROOF (R198). -/
def proofStrip (fl : Fields) (os : Operands) (r : Run) (k : Nat) : Run :=
  let tf := immFmt fl.imm.toNat
  let x := proofAll fl os r (stripPositions r.env.total k)
  let r1 := moveStore x.1 os.dst tf 0 0 (x.2.map (·.1))
  auxMisses r.misses (moveStore r1 os.c tf 3 1 (x.2.map (·.2)))

/-! ### Gather and scatter -/

/-- The byte addresses that an element at an offset takes in its tensor's data. -/
def elemAddrs (t : Tensor) (e : Int) : List Int :=
  if t.planar then (List.range (fmtBits t.fmt)).map (planeAddr t e)
  else [t.base + e * packedBytes t.fmt]

/-- The lines (slice store) or granules (VIRT) that a group of positions addresses, each once (R212). -/
def touched (t : Tensor) (es : List Int) : Nat :=
  let unit : Int := if t.virt then 64 else 128
  ((es.flatMap (elemAddrs t)).map (· / unit)).eraseDups.length

/-- The lines or granules of a strip's present positions, in groups of 128 consecutive positions of the strip, added to AUX (R212). -/
def auxTouched (o : Operand) (r : Run) (ps : List Nat) : Run :=
  match o with
  | .tensor t =>
    (List.range 32).foldl (fun r g =>
      r.countAux (touched t ((ps.filter fun p => p % 4096 / 128 == g).map fun p => (elemOffset r t p).2))) r
  | _ => r

/-- Strip k of GATHER (R207). -/
def gatherStrip (fl : Fields) (os : Operands) (r : Run) (k : Nat) : Run :=
  let tf := immFmt fl.imm.toNat
  let copy := isBitCopy tf os.a os.dst
  let x := moveAll fl os copy id true r (stripPositions r.env.total k)
  let r1 := moveStore x.1 os.dst tf 0 0 x.2
  if r1.fault.isSome then r1 else auxTouched os.a r1 (x.2.filterMap fun p => if p.quiet then none else some p.pos)

/-- Strip k of SCATTER: positions are written in ascending order, so the highest one stays (R208). -/
def scatterStrip (fl : Fields) (os : Operands) (r : Run) (k : Nat) : Run :=
  let tf := immFmt fl.imm.toNat
  let copy := isBitCopy tf os.a os.dst
  let x := moveAll fl os copy id false r (stripPositions r.env.total k)
  let r1 := moveStore x.1 os.dst tf 0 0 x.2
  if r1.fault.isSome then r1 else auxTouched os.dst r1 (x.2.map (·.pos))

/-- The combining operation of SCATTER_ADD, SCATTER_MAX and SCATTER_MIN on codes of the destination (R209, R211). -/
def scatterFn (op func : Nat) (f : Fmt) (a b : Nat) : Nat :=
  if f = .int32 then
    let x := intOfCode .int32 a
    let y := intOfCode .int32 b
    codeOfInt .int32 (if op = 0x82 then x + y else if op = 0x83 then max x y else min x y)
  else
    let x := f32 a
    let y := f32 b
    let num := func % 2 == 1
    toF32 (if op = 0x82 then x.add y else if op = 0x83 then Val.max' num x y else Val.min' num x y)

/-- The index tuple of a position with the index value, as 32 bits, in the indexed dimension (R96, R209). -/
def indexedCoords (r : Run) (t : Tensor) (pos : Nat) : List Nat :=
  let cs := coordsOf t.dims pos
  match t.idx with
  | none => cs
  | some ix =>
    let j := positionOf (t.dims.drop ix.dim) (cs.drop ix.dim)
    let o := linearOf ix.dims (coordsOf ix.dims j)
    let w := packedBytes ix.fmt
    let v := intOfCode ix.fmt (r.store.readLe (ix.base + o * w).toNat w)
    cs.take ix.dim ++ [(v % 2 ^ 32).toNat] ++ cs.drop (ix.dim + 1)

/-- Add a contribution to the read-modify-writes of a strip, combining with an earlier one of its address (R209). -/
def addContribution (op func : Nat) (f : Fmt) (w : Rmw) : List Rmw → List Rmw
  | [] => [w]
  | x :: xs =>
    if x.offset = w.offset then { x with val := scatterFn op func f x.val w.val } :: xs
    else x :: addContribution op func f w xs

/-- The contributions of a strip, in ascending position (R209); every address is checked as an atomic (R217). -/
def contributions (op : Nat) (fl : Fields) (t : Tensor) : Run → List PosVal → List Rmw → Run × List Rmw
  | r, [], acc => (r, acc)
  | r, p :: ps, acc =>
    let e := elemOffset r t p.pos
    let c := encodeElem t.fmt p.val
    let x := packedParts e.1 t .atomic p.pos 0 (t.base + e.2 * 4) (leBytes 4 c.1)
    let r1 := (x.1.countSat c.2).feed t.meter p.val
    let w : Rmw := ⟨r1.unit, p.pos, e.2, indexedCoords r1 t p.pos, x.2.map fun b => (b.space, b.addr), c.1⟩
    contributions op fl t r1 ps (addContribution op fl.func.toNat t.fmt w acc)

/-- The granule of a read-modify-write is uncorrectable: it is left unchanged (R331). -/
def Rmw.bad (w : Rmw) (poison : List Nat) : Bool := w.place.any fun p => p.1 == .emul && poison.contains (granuleOf p.2)

/-- Apply one read-modify-write at its owning memory, atomically, with its fog (R209, R331). -/
def applyRmw (op func : Nat) (t : Tensor) (r : Run) (w : Rmw) : Run :=
  if w.bad r.env.poison then r
  else
    let old := ofLeBytes (w.place.map fun p => r.peek p.1 p.2)
    let new := scatterFn op func t.fmt old w.val
    let r1 := { r with unit := w.unit }
    let r2 := r1.write ((w.place.zip (leBytes 4 new)).map fun p => ⟨p.1.1, p.1.2, 0xFF, p.2⟩)
    let v := decodeElem t.fmt new
    let r3 := if v.nonfinite then
      r2.noteFog ⟨w.unit, w.pos, fogKind v, 0, t.dims.length, w.coords, w.offset⟩ else r2
    { r3 with unit := r.unit }

/-- Apply read-modify-writes in order. -/
def applyRmws (op func : Nat) (t : Tensor) : Run → List Rmw → Run
  | r, [] => r
  | r, w :: ws => applyRmws op func t (applyRmw op func t r w) ws

/-- Read-modify-writes in a free order (R104, R210): draw one of those left, again and again. -/
def freeOrder : Nat → Nat → List Rmw → List Rmw
  | 0, _, ws => ws
  | _, _, [] => []
  | n + 1, k, w :: ws =>
    let i := (Config.freeValue k).toNat % (ws.length + 1)
    let all := w :: ws
    (all.drop i).head?.toList ++ freeOrder n (k + 1) (all.eraseIdx i)

/-- Strip k of SCATTER_ADD, SCATTER_MAX and SCATTER_MIN: its contributions are combined, and its read-modify-writes kept until the
instruction completes or stops (R209 to R211, `State.settle`). An uncorrectable granule stops it (R331). -/
def scatterOpStrip (op : Nat) (fl : Fields) (os : Operands) (r : Run) (k : Nat) : Run :=
  match os.dst with
  | .tensor t =>
    let x := moveAll fl os false id false r (stripPositions r.env.total k)
    if x.1.fault.isSome then x.1 else
      let c := contributions op fl t x.1 x.2 []
      let r1 := c.1.countAux c.2.length
      let r2 := { r1 with rmws := r1.rmws ++ c.2 }
      if r2.fault.isSome then r2 else
        match c.2.find? (·.bad r.env.poison) with
        | some w => { r2 with fault := some ⟨0x0301, (w.place.head?.map (·.2)).getD 0, w.pos, t.domain, 0, .atomic, 0xFF, 0, 0⟩ }
        | none => r2
  | _ => r

/-- Some of the members of a list, as free values say (R104, R397). -/
def freeSome {α : Type} : Nat → List α → List α
  | _, [] => []
  | k, w :: ws => if (Config.freeValue k).toNat % 2 = 1 then w :: freeSome (k + 1) ws else freeSome (k + 1) ws

/-- Apply the read-modify-writes of an instruction that has completed `h` units: those of its completed units each exactly once, an
unordered SCATTER_ADD's in a free order, the others in ascending strips, with their fog; those above each applied or not (R104, R147,
R209 to R211). -/
def settleRmws (op : Nat) (fl : Fields) (t : Tensor) (h : Nat) (ws : List Rmw) (r : Run) : Run :=
  let low := ws.filter fun w => decide (w.unit < h)
  let high := ws.filter fun w => decide (h ≤ w.unit)
  let low := if op = 0x82 ∧ bits fl.imm.toNat 36 36 = 0 then freeOrder low.length r.free low else low
  let free := r.free + ws.length
  let r1 := applyRmws op fl.func.toNat t { r with free := free + high.length } low
  { applyRmws op fl.func.toNat t r1 (freeSome free high) with cnt := r1.cnt }

end Sys2Proof.Machine
end

