-- ==== Sys2Proof/Machine/Attention.lean ====
section
/-! DEFINITION. The attention pipeline, 0x90 to 0x93 (R82 to R91, R231 to R267). -/

namespace Sys2Proof.Machine

/-! ### Dot-product units (R82 to R88) -/

/-- An element as a dot-product unit takes it: its value without block scale, and the shared exponent of its block. -/
abbrev MxElem := Val × Int

/-- An element from its code and its block's scale code; a NaN scale makes it NaN and is no exponent: it lies below all of them (R52, R82,
R84). -/
def mxElem (f : Fmt) (code sc : Nat) : MxElem :=
  if fmtMx f then (if sc = 255 then (.nan, -128) else (decodeElem f code, (sc : Int) - 127)) else (decodeElem f code, 0)

/-- The group sum S of exact products, cut to multiples of 2^(Pmax - 27) and added exactly (R83). -/
def groupSum (ps : List Val) : Val :=
  let nz := ps.filter fun p => !p.isZero
  match nz with
  | [] => if ps.all (·.neg?) then .fin true 0 0 else .zero
  | p :: rest =>
    let pmax := rest.foldl (fun a x => max a x.ilog2) p.ilog2
    let q := pmax - 27
    let cut : Val → Int := fun x =>
      match x with
      | .fin s m e =>
        let k : Nat := if q ≤ e then m <<< (e - q).toNat else m >>> (q - e).toNat
        if s then -(k : Int) else k
      | _ => 0
    let s := (nz.map cut).foldl (· + ·) 0
    if s = 0 then .zero else .fin (decide (s < 0)) s.natAbs q

/-- The shared exponent of a group of one operand: that of its elements, where those in place of masked or absent ones carry 0 (R84). -/
def groupExp (xs : List MxElem) : Int := ((xs.find? fun x => x.2 != 0).map (·.2)).getD 0

/-- The value of a group of at most 32 products with its factor; a group of fewer is completed with +0 (R83, R84, R88). -/
def groupVal (as bs : List MxElem) : Val :=
  let prods := (as.zip bs).map fun p => p.1.1.mul p.2.1
  if prods.any (· == .nan) then .nan
  else if prods.any (· == .inf false) && prods.any (· == .inf true) then .nan
  else if prods.any (· == .inf false) then .inf false
  else if prods.any (· == .inf true) then .inf true
  else
    (groupSum (if prods.length < 32 then prods ++ [.zero] else prods)).mul (.fin false 1 (groupExp as + groupExp bs))

/-- Round to FP32 with the flush of R87: the value, and whether it was flushed. -/
def flush32 (x : Val) : Val × Bool :=
  match x with
  | .fin s m e =>
    if m = 0 then (x, false) else
      let q := e + Nat.log2 m - 23
      let k := if e ≤ q then rneShr m (q - e).toNat else m <<< (e - q).toNat
      if Val.cmp (.fin false k q) (.fin false 1 (-126)) == .lt then (.fin s 0 0, true) else (rnd32 x, false)
  | _ => (x, false)

/-- An accumulator with the flushes counted so far. -/
abbrev Acc := Val × Nat

/-- One accumulation step (R85, R87). -/
def accStep (a : Acc) (g : Val) : Acc :=
  let x := flush32 (a.1.add g)
  (x.1, a.2 + (if x.2 then 1 else 0))

/-- Groups of 32 in ascending order along the reduction axis (R85). -/
def dotGroups : Nat → Acc → List MxElem → List MxElem → Acc
  | 0, a, _, _ => a
  | _, a, [], _ => a
  | n + 1, a, as, bs => dotGroups n (accStep a (groupVal (as.take 32) (bs.take 32))) (as.drop 32) (bs.drop 32)

/-- The tensor-scale step (R86, R87). -/
def scaleStep (a : Acc) (f : Val) : Acc :=
  let x := flush32 (a.1.mul f)
  (x.1, a.2 + (if x.2 then 1 else 0))

/-- A whole dot product from the accumulator's start at -0 (R85, R86). -/
def dotProduct (as bs : List MxElem) (f : Val) : Acc :=
  scaleStep (dotGroups (as.length / 32 + 1) (.fin true 0 0, 0) as bs) f

/-! ### The softmax stage -/

/-- EXP2 of a rounded FP32 value, with the accuracy of R176 (R237). -/
def exp2Val (x : Val) : Val := f32 (approx .exp2 (toF32 x))

/-- LOG2 of an FP32 value (R241). -/
def log2Val (x : Val) : Val := f32 (approx .log2 (toF32 x))

/-- The constant c = RNE(SM_SCALE * log2 e) (R236). -/
def smConst (scale : Nat) : Val :=
  match f32 scale with
  | .fin s m e =>
    let v := (Iv.ofDyadic false m e).div ln2
    rnd32 (.fin s (2 * v.lo.toNat + 1) (-(fixP : Int) - 1))
  | x => x

/-- One row of a query tile and its running state (R237, R240). -/
structure Row where
  head  : Nat
  token : Nat
  qp    : Nat
  q     : List MxElem
  m     : Val
  l     : Val
  acc   : List Val
  seen  : Bool
  nan   : Bool
deriving DecidableEq, Repr

/-- A key's row: its position, its K elements and its V elements with their exponents. -/
structure KeyRow where
  k : Nat
  ks : List MxElem
  vs : List MxElem
deriving DecidableEq, Repr

/-- Counts of an ATTN beyond those of every instruction (R253); FADE_START and FADE_END of its lowest item that reached a fade point. -/
structure AttnCnt where
  done     : Nat
  masked   : Nat
  proof    : Nat
  screened : Nat
  reblock  : Nat
  nanRows  : Nat
  fadeS    : Nat
  fadeE    : Nat
deriving DecidableEq, Repr

/-- No counts. -/
def AttnCnt.zero : AttnCnt := ⟨0, 0, 0, 0, 0, 0, 0, 0⟩

/-- FUNC bits of ATTN (R246). -/
def fBit (fl : Fields) (i : Nat) : Bool := fl.func.toNat / 2 ^ i % 2 == 1

/-- The mask of R242 for a row and a key position; existence of the key is checked apart. -/
def allowed (fl : Fields) (a : AttnArgs) (qp kp : Nat) : Bool :=
  let causal := fBit fl 2
  let c := !causal || decide (kp ≤ qp)
  let wn := !fBit fl 3 ||
    (if causal then decide (qp < kp + a.width) else decide (qp < kp + a.width ∧ kp + 1 ≤ qp + a.width))
  let g := fBit fl 4 && a.globals.contains kp
  c && (wn || g)

/-- The elements of a row of an operand: DIM0 values d0 to d0 + n - 1 at (head, token, batch) (R245). -/
def rowElems (o : Operand) (opnd hd tok b : Nat) : Nat → Nat → Run → Run × List MxElem
  | _, 0, r => (r, [])
  | d, n + 1, r =>
    match o with
    | .tensor t =>
      let pos := positionOf t.dims [d, hd, tok, b]
      let e := elemOffset r t pos
      let c := readCodeAt e.1 t pos opnd e.2
      let s := readScaleAt c.1 t pos opnd e.2
      let x := mxElem t.fmt c.2 s.2
      let y := rowElems o opnd hd tok b (d + 1) n (s.1.feed t.meter ((scaled (decodeElem t.fmt c.2) s.2).mul t.scaleVal))
      (y.1, x :: y.2)
    | _ => (r, [])

/-- The format of a tensor operand. -/
def opFmt : Operand → Fmt
  | .tensor t => t.fmt
  | _ => .fp32

/-- The tensor scale of an operand. -/
def opScale : Operand → Val
  | .tensor t => t.scaleVal
  | _ => .one

/-- Elements of a token row kept in a tray, which feed the operand's meter (R71, R297). -/
def trayElems (t : Tensor) (row : TokenRow) (lo n : Nat) (r : Run) : Run × List MxElem :=
  let es := (List.range' lo n).map fun i => ((row.codes[i]?).getD 0, (row.scales[i / 32]?).getD 127)
  (es.foldl (fun r e => r.feed t.meter ((scaled (decodeElem t.fmt e.1) e.2).mul t.scaleVal)) r,
    es.map fun e => mxElem t.fmt e.1 e.2)

/-- A KV view placed on a stream of its sequence (R273, R276). -/
def kvTensor (t : Tensor) (base scale : Nat) : Tensor := { t with base := base, scaleBase := scale, limit := none }

/-- Elements of a sequence's stream at consecutive offsets of a token, from its LIVE page; they feed the operand's meter (R71). -/
def seqElems (t : Tensor) (pos opnd : Nat) : Nat → Nat → Run → Run × List MxElem
  | _, 0, r => (r, [])
  | e, n + 1, r =>
    let c := readCodeAt r t pos opnd e
    let s := readScaleAt c.1 t pos opnd e
    let y := seqElems t pos opnd (e + 1) n (s.1.feed t.meter ((scaled (decodeElem t.fmt c.2) s.2).mul t.scaleVal))
    (y.1, mxElem t.fmt c.2 s.2 :: y.2)

/-- The `n` values of a key's row in K (stream 0) or V (stream 1) of KV head g (R245, R251, R297). -/
def keyElems (r : Run) (a : AttnArgs) (it : AttnItem) (o : Operand) (opnd stream b g k n : Nat) : Run × List MxElem :=
  match it.kv, o with
  | some kv, .tensor t =>
    let tok := a.kPos0 + k
    let off := g * a.dqk
    if tok < kv.pageEnd then
      let tt := if stream = 0 then kvTensor t kv.base0 kv.scale0 else kvTensor t kv.base1 kv.scale1
      seqElems tt k opnd (tok * kv.width + off) n r
    else
      let rows := if stream = 0 then kv.tray0 else kv.tray1
      trayElems t ((rows[tok - kv.pageEnd]?).getD ⟨[], []⟩) off n r
  | _, _ => rowElems o opnd g k b 0 n r

/-- Keys of a block as rows: K elements, and V elements, which are the first DV of K in absorbed mode (R245, R261). -/
def keyRows (fl : Fields) (os : Operands) (a : AttnArgs) (it : AttnItem) (b g : Nat) : Run → List Nat → Run × List KeyRow
  | r, [] => (r, [])
  | r, k :: ks =>
    let x := keyElems r a it os.b 2 0 b g k a.dqk
    let v := if fBit fl 0 then (x.1, x.2.take a.dv)
             else keyElems x.1 a it ((os.more.head?).getD .none) 2 1 b g k a.dv
    let y := keyRows fl os a it b g v.1 ks
    (y.1, ⟨k, x.2, v.2⟩ :: y.2)

/-- Re-express one element against the largest exponent of its group (R239): the element and whether rounding changed it. At that
exponent already it stays, MXINT8's -2 too. -/
def reblockElem (f : Fmt) (x' : Int) (v : MxElem) : MxElem × Bool :=
  if v.2 = x' then (v, false) else
  match v.1 with
  | .fin s m e =>
    let w := Val.fin s m (e + (v.2 - x'))
    let y := decodeElem f (encodeElem f w).1
    ((y, x'), !(y.cmp w == .eq))
  | z => ((z, x'), false)

/-- Re-block the value elements of a group of up to 32 keys, column by column (R239). -/
def reblockGroup (f : Fmt) (rows : List (List MxElem)) : List (List MxElem) × Nat :=
  let cols := (rows.head?.map List.length).getD 0
  let x' (j : Nat) : Int :=
    match (rows.filterMap fun r => (r[j]?).map (·.2)) with
    | [] => 0
    | x :: xs => xs.foldl max x
  let xs := (List.range cols).map x'
  let out := rows.map fun r => (r.zip xs).map fun p => reblockElem f p.2 p.1
  (out.map fun r => r.map (·.1), (out.map fun r => (r.filter (·.2)).length).foldl (· + ·) 0)

/-- Cut rows into groups of 32 along the key axis. -/
def groups32 {α : Type} : Nat → List α → List (List α)
  | 0, _ => []
  | _, [] => []
  | n + 1, l => l.take 32 :: groups32 n (l.drop 32)

/-- The probability format (R248). -/
def probFmt : Nat → Fmt
  | 1 => .mxE4m3
  | 2 => .mxE2m1
  | _ => .fp16

/-- Quantise a group of values along the reduction axis: SAFE blocks with a tensor scale of 1.0, or FP16 (R238). A NaN in a format
without a NaN code makes the whole block NaN (R64, R68). -/
def quantGroup (f : Fmt) (ps : List Val) : List MxElem :=
  if nanViaScale f && ps.any (· == .nan) then ps.map fun _ => mxElem f 0 255
  else if fmtMx f then
    let sc := blockScale f true (amaxOf ps)
    ps.map fun p => mxElem f (encodeElem f (p.mul (.fin false 1 (127 - (sc : Int))))).1 sc
  else ps.map fun p => (decodeElem f (encodeElem f p).1, 0)

/-- The value of an MX element with its exponent. -/
def MxElem.value (x : MxElem) : Val := x.1.mul (.fin false 1 x.2)

/-- Score a row against the keys it may see: (score, key) pairs, none where masked; flushes counted (R236, R242). -/
def scoreRow (fl : Fields) (a : AttnArgs) (os : Operands) (row : Row) (skip : Nat → Bool) (keys : List KeyRow) :
    List (Option Val) × Nat :=
  let f := (opScale os.a).mul (opScale os.b)
  let xs := keys.map fun kr =>
    if skip kr.k || !allowed fl a row.qp (a.kPos0 + kr.k) then (none, 0)
    else let d := dotProduct row.q kr.ks f; (some d.1, d.2)
  (xs.map (·.1), (xs.map (·.2)).foldl (· + ·) 0)

/-- Rescale a row's accumulators by a factor (R237). -/
def rescale (accs : List Val) (f : Val) : List Val × Nat :=
  let xs := accs.map fun v => flush32 (v.mul f)
  (xs.map (·.1), (xs.filter (·.2)).length)

/-- One block for one row: scores, running maximum, probabilities, row sum and value accumulation (R236 to R240). A row that the mask
leaves no key of the block adds its groups of +0 products (R88). -/
def blockRow (fl : Fields) (a : AttnArgs) (os : Operands) (c : Val) (skip : Nat → Bool) (keys : List KeyRow)
    (vgroups : List (List (List MxElem))) (row : Row) : Row × Nat :=
  let sc := scoreRow fl a os row skip keys
  let own := sc.1.filterMap id
  let seen := row.seen || !own.isEmpty
  let nan := row.nan || own.any fun s => s == .nan || s == .inf false
  let ts := sc.1.map fun o => o.map fun s => rnd32 (s.mul c)
  let mNew := (ts.filterMap id).foldl (fun x y => Val.max' false x y) row.m
  if nan then ({ row with m := mNew, seen := seen, nan := true }, sc.2) else
      let re := row.m.cmp mNew == .lt
      let f := if row.m == .inf true then .zero else exp2Val (rnd32 (row.m.sub mNew))
      let s1 := if re then rescale row.acc f else (row.acc, 0)
      let l1 := if re then rnd32 (row.l.mul f) else row.l
      let ps := ts.map fun o => o.map fun t => if t == .inf true then Val.zero else exp2Val (rnd32 (t.sub mNew))
      let pf := probFmt a.pFmt
      let pg := (groups32 (ps.length + 1) ps).map fun g =>
        (quantGroup pf (g.map fun o => o.getD .zero)).zip (g.map Option.isSome)
      let l2 := pg.foldl (fun l g => rnd32 (l.add ((g.map fun x => x.1.value).foldl Val.add .zero))) l1
      let col (j : Nat) (acc : Val) : Acc :=
        (pg.zip vgroups).foldl (fun ac gp =>
          let as := gp.1.map fun x => if x.2 then x.1 else (Val.zero, x.1.2)
          let bs := (gp.2.zip (gp.1.map (·.2))).map fun p =>
            let v := (p.1[j]?).getD (Val.zero, 0)
            if p.2 then v else (Val.zero, v.2)
          accStep ac (groupVal as bs)) (acc, 0)
      let accs := s1.1.zipIdx.map fun p => col p.2 p.1
      ({ row with m := mNew, l := l2, acc := accs.map (·.1), seen := seen },
        sc.2 + s1.2 + (accs.map (·.2)).foldl (· + ·) 0)

/-- Fold the rows of a tile over a block. -/
def blockRows (fl : Fields) (a : AttnArgs) (os : Operands) (c : Val) (skip : Nat → Bool) (keys : List KeyRow)
    (vgroups : List (List (List MxElem))) (rows : List Row) : List Row × Nat :=
  let xs := rows.map (blockRow fl a os c skip keys vgroups)
  (xs.map (·.1), (xs.map (·.2)).foldl (· + ·) 0)

/-! ### Proof screening (R262 to R264) -/

/-- The interval [lo, hi] of a proof-read key element, with its block scale; none where it is non-finite (R58, R262). -/
def proofInterval (f : Fmt) (h code sc : Nat) : Option (Val × Val) :=
  let n := fmtBits f
  let b := proofBounds f h (code / 2 ^ (n - h)) sc
  if b.1.nonfinite || b.2.nonfinite then none
  else if b.1.neg? then some (b.2, b.1) else some (b.1, b.2)

/-- The interval sum for one key and one row: the sum of max(q lo, q hi) (R262). -/
def boundSum (q : List MxElem) (iv : List (Val × Val)) : Val :=
  ((q.zip iv).map fun p =>
    let v := MxElem.value p.1
    let x := v.mul p.2.1
    Val.max' false x (v.mul p.2.2)).foldl Val.add .zero

/-- A value as numbers, an argument of an opaque constant. -/
def Val.numbers : Val → List Int
  | .nan => [2, 0, 0]
  | .inf s => [3, if s then 1 else 0, 0]
  | .fin s m e => [if s then 1 else 0, m, e]

/-- The bound that the block computes where the exact interval bound is `b`: `b` to 2^-18 of its magnitude above it, a function of the
page and the row (R262, R264). -/
def screenBoundOf (b : Val) (key : List Int) : Val :=
  let u := Config.screenBound key
  let x := Val.fin (decide (u.1 < 0)) u.1.natAbs u.2
  let top := b.add (b.abs.mul (.fin false 1 (-18)))
  if b.nonfinite || x.cmp b == .lt then b else if top.cmp x == .lt then top else x

/-- Whether a row lets its page be skipped: B below m - MARGIN; keys that the row may not see take no part (R262, R263). -/
def rowSkips (fl : Fields) (a : AttnArgs) (os : Operands) (c : Val) (ivs : List (Nat × List (Val × Val))) (row : Row) : Bool :=
  let mine := ivs.filter fun p => allowed fl a row.qp (a.kPos0 + p.1)
  match mine.map fun p => ((c.mul (opScale os.a)).mul (opScale os.b)).mul (boundSum row.q p.2) with
  | [] => true
  | b :: bs =>
    let top := bs.foldl (Val.max' false) b
    let key := (c :: opScale os.a :: opScale os.b :: row.q.map MxElem.value ++
      mine.flatMap fun p => p.2.flatMap fun iv => [iv.1, iv.2]).flatMap Val.numbers
    top != .nan && row.m != .nan && (screenBoundOf top key).cmp (row.m.sub (f32 a.margin)) == .lt

/-- The proof intervals of one key's K row; none where an element is non-finite, which keeps its page (R263). -/
def keyIntervals (a : AttnArgs) (it : AttnItem) (o : Operand) (b g k : Nat) (r : Run) :
    Nat → Nat → Run × Option (List (Val × Val))
  | _, 0 => (r, some [])
  | d, n + 1 =>
    match o with
    | .tensor t =>
      let tok := a.kPos0 + k
      let tt := match it.kv with
        | some kv => kvTensor t kv.base0 kv.scale0
        | none => t
      let e : Int := match it.kv with
        | some kv => (tok * kv.width + g * a.dqk + d : Nat)
        | none => linearOf t.dims [d, g, k, b]
      let h := a.screenH
      let c := readPlanes r tt k 2 e 0 h 0
      let s := readScaleAt c.1 tt k 2 e
      let iv := proofInterval t.fmt h (c.2 * 2 ^ (fmtBits t.fmt - h)) s.2
      let y := keyIntervals a it o b g k s.1 (d + 1) n
      (y.1, match iv, y.2 with
        | some x, some xs => some (x :: xs)
        | _, _ => none)
    | _ => (r, none)

/-- The proof intervals of the keys of a page. -/
def pageIntervals (a : AttnArgs) (it : AttnItem) (o : Operand) (b g : Nat) :
    Run → List Nat → Run × Option (List (Nat × List (Val × Val)))
  | r, [] => (r, some [])
  | r, k :: ks =>
    let x := keyIntervals a it o b g k r 0 a.dqk
    let y := pageIntervals a it o b g x.1 ks
    (y.1, match x.2, y.2 with
      | some v, some vs => some ((k, v) :: vs)
      | _, _ => none)

/-- The page a key belongs to: of 16 tokens of its sequence, or of 16 keys (R262). -/
def pageOfKey (a : AttnArgs) (it : AttnItem) (k : Nat) : Nat :=
  match it.kv with
  | some _ => (a.kPos0 + k) / 16
  | none => k / 16

/-- A page that screening never tests: one with tray tokens or a global position (R262). -/
def pageExempt (fl : Fields) (a : AttnArgs) (it : AttnItem) (ks : List Nat) : Bool :=
  ks.any fun k =>
    (fBit fl 4 && a.globals.contains (a.kPos0 + k)) ||
    (match it.kv with
     | some kv => decide (kv.pageEnd ≤ a.kPos0 + k)
     | none => false)

/-- Screen the pages of a block: the pages skipped, with their counts (R262, R263). -/
def screenPages (fl : Fields) (a : AttnArgs) (os : Operands) (it : AttnItem) (c : Val) (b g : Nat) (rows : List Row)
    (keys : List Nat) : List Nat → Run → Run × List Nat × Nat
  | [], r => (r, [], 0)
  | p :: ps, r =>
    let ks := keys.filter fun k => pageOfKey a it k == p
    if pageExempt fl a it ks then screenPages fl a os it c b g rows keys ps r
    else
      let iv := pageIntervals a it os.b b g r ks
      let skip := match iv.2 with
        | some ivs => rows.all (rowSkips fl a os c ivs)
        | none => false
      let y := screenPages fl a os it c b g rows keys ps iv.1
      (y.1, if skip then p :: y.2.1 else y.2.1, y.2.2 + 1)

/-! ### Work units -/

/-- The query row tokens of a unit: rows whose token exists (R232, R242). -/
def unitRows (os : Operands) (a : AttnArgs) (b g qb : Nat) (gs : Nat) : Run → List Nat → Run × List Row
  | r, [] => (r, [])
  | r, i :: is =>
    let tok := a.bq * qb + i / gs
    let hd := g * gs + i % gs
    if a.qLen ≤ tok ∨ a.qTokens ≤ tok then unitRows os a b g qb gs r is
    else
      let q := rowElems os.a 1 hd tok b 0 a.dqk r
      let y := unitRows os a b g qb gs q.1 is
      (y.1, ⟨hd, tok, a.qPos0 + tok, q.2, .inf true, .zero, List.replicate a.dv (.fin true 0 0), false, false⟩ :: y.2)

/-- The keys of block j that exist for an item. -/
def blockKeys (a : AttnArgs) (it : AttnItem) (j : Nat) : List Nat :=
  (List.range' (a.bk * j) (min a.bk (it.kLen - a.bk * j)))

/-- A block that the mask does not empty for the tile (R243). -/
def blockLive (fl : Fields) (a : AttnArgs) (it : AttnItem) (rows : List Row) (j : Nat) : Bool :=
  (blockKeys a it j).any fun k => rows.any fun row => allowed fl a row.qp (a.kPos0 + k)

/-- The V format of an ATTN: K's in absorbed mode. -/
def valueFmt (fl : Fields) (os : Operands) : Fmt := if fBit fl 0 then opFmt os.b else opFmt ((os.more.head?).getD .none)

/-- The V tensor scale. -/
def valueScale (fl : Fields) (os : Operands) : Val :=
  if fBit fl 0 then opScale os.b else opScale ((os.more.head?).getD .none)

/-- Bytes of `n` values of a row, with their scales. -/
def rowBytes (f : Fmt) (n : Nat) : Nat := n * fmtBits f / 8 + (if fmtMx f then n / 32 else 0)

/-- Bytes of a key's row of an operand that the staging area takes: none from a slice store (R24, R234). -/
def stagedRow (o : Operand) (n : Nat) : Nat :=
  match o with
  | .tensor t => if t.virt then rowBytes t.fmt n else 0
  | _ => 0

/-- Land bytes of a block in the staging area: which byte of the block each one is stays open. -/
def stageBytes (draw a : Nat) : Nat → Run → Run
  | 0, r => r
  | n + 1, r => stageBytes draw (a + 1) n (r.poke .store a (Config.stagedByte draw a))

/-- The keys and values of the j-th block that a unit takes land in one half of the staging area, [22 MiB, 24 MiB); the halves take
turns, and which is first is open (R24, R234). -/
def stageBlock (ko vo : Operand) (dqk dv keys j : Nat) (r : Run) : Run :=
  let n := keys * (stagedRow ko dqk + stagedRow vo dv)
  if n = 0 then r else
    let half := (j + (Config.stagedByte 0 0).toNat) % 2
    stageBytes r.free (23068672 + 1048576 * half) (min n 1048576) { r with free := r.free + 1 }

/-- The value operand, apart from K. -/
def valueOp (fl : Fields) (os : Operands) : Operand := if fBit fl 0 then .none else (os.more.head?).getD .none

/-- Process one block for a tile (R236 to R239, R262). -/
def attnBlock (fl : Fields) (os : Operands) (a : AttnArgs) (it : AttnItem) (c : Val) (b g : Nat) (screen : Bool)
    (st : Run × List Row × AttnCnt) (j : Nat) : Run × List Row × AttnCnt :=
  let (r, rows, cnt) := st
  if r.fault.isSome then st else
    let ks := blockKeys a it j
    let s : Run × List Nat × Nat :=
      if screen then screenPages fl a os it c b g rows ks ((ks.map (pageOfKey a it)).eraseDups) r else (r, [], 0)
    let gone := fun k => s.2.1.contains (pageOfKey a it k)
    let kr := keyRows fl os a it b g s.1 (ks.filter fun k => !gone k)
    if kr.1.fault.isSome then (kr.1, rows, cnt) else
      let r := stageBlock os.b (valueOp fl os) a.dqk a.dv kr.2.length cnt.done kr.1
      let full := ks.map fun k => ((kr.2.find? (·.k == k)).getD ⟨k, [], []⟩)
      let vf := valueFmt fl os
      let vgs := (groups32 (full.length + 1) full).map fun grp =>
        let rs := grp.map (·.vs)
        if fmtMx vf then
          let read := rs.filter (!·.isEmpty)
          let re := reblockGroup vf (read)
          (fillRows rs re.1, re.2)
        else (rs, 0)
      let out := blockRows fl a os c gone full (vgs.map (·.1)) rows
      (r.countFlush out.2, out.1,
        { cnt with done := cnt.done + 1, proof := cnt.proof + s.2.2, screened := cnt.screened + s.2.1.length,
                   reblock := cnt.reblock + (vgs.map (·.2)).foldl (· + ·) 0 })
where
  /-- Put the re-blocked rows back where their keys were read. -/
  fillRows : List (List MxElem) → List (List MxElem) → List (List MxElem)
    | [], _ => []
    | r :: rs, ys => if r.isEmpty then r :: fillRows rs ys else (ys.head?.getD []) :: fillRows rs (ys.drop 1)

/-- The finished output and statistics of a row (R241): O, MAX, SUM, LSE2, with the flushes. -/
def finalRow (fl : Fields) (os : Operands) (row : Row) : List Val × (Val × Val × Val) × Nat :=
  if row.nan then (row.acc.map fun _ => .nan, (.nan, .nan, .nan), 0)
  else if !row.seen then (row.acc.map fun _ => .zero, (.inf true, .zero, .inf true), 0)
  else
    let xs := row.acc.map fun v => flush32 (v.mul (valueScale fl os))
    let o := xs.map fun x => if fBit fl 7 then x.1 else rnd32 (x.1.div row.l)
    (o, (row.m, row.l, rnd32 (row.m.add (log2Val row.l))), (xs.filter (·.2)).length)

/-- The destination tuple of an O element: the exchanged one with OUT_T (R252). -/
def outCoords (fl : Fields) (d hd tok b : Nat) : List Nat :=
  if bits fl.imm.toNat 9 9 = 1 then [tok, hd, d, b] else [d, hd, tok, b]

/-- The iteration position of a tuple in a tensor operand. -/
def opPosition (o : Operand) (cs : List Nat) : Nat :=
  match o with
  | .tensor t => positionOf t.dims cs
  | _ => 0

/-- Write the rows of a finished unit, output 0 then output 1 (R241, R253). -/
def writeRows (fl : Fields) (os : Operands) (b dv : Nat) (r : Run) (rows : List Row) : Run :=
  let fs := rows.map fun row => (row, finalRow fl os row)
  let outs := fs.zipIdx.flatMap fun p =>
    p.1.2.1.zipIdx.map fun v =>
      (⟨opPosition os.dst (outCoords fl v.2 p.1.1.head p.1.1.token b), v.1, toF32 v.1, false, false,
        some ((p.2 * dv + v.2 : Nat) : Int)⟩ : PosVal)
  let r1 := storeUnit r os.dst .fp32 0 0 outs
  let stats := fs.zipIdx.flatMap fun p =>
    [p.1.2.2.1.1, p.1.2.2.1.2.1, p.1.2.2.1.2.2].zipIdx.map fun v =>
      (⟨opPosition os.c [v.2, p.1.1.head, p.1.1.token, b], v.1, toF32 v.1, false, false,
        some ((p.2 * 3 + v.2 : Nat) : Int)⟩ : PosVal)
  let r2 := if fBit fl 6 then storeUnit r1 os.c .fp32 3 1 stats else r1
  let empty := (rows.filter fun row => !row.seen && !row.nan).length
  (r2.countAux empty).countFlush ((fs.map (·.2.2.2)).foldl (· + ·) 0)

/-- The order of a unit's blocks: ascending, or with SCREEN the last one first (R262); each with whether it is screened. -/
def blockOrder (screen : Bool) (js : List Nat) : List (Nat × Bool) :=
  if screen then
    match js.reverse with
    | [] => []
    | j :: rest => (j, false) :: rest.reverse.map fun k => (k, true)
  else js.map fun j => (j, false)

/-- One work unit of ATTN: batch item b, KV head g, query block qb (R231). -/
def attnUnit (fl : Fields) (os : Operands) (a : AttnArgs) (it : AttnItem) (b g qb : Nat) (st : Run × AttnCnt) :
    Run × AttnCnt :=
  let gs := a.heads / max 1 a.kvHeads
  let q := unitRows os a b g qb gs st.1 (List.range (gs * a.bq))
  if q.2.isEmpty then (q.1, st.2) else
    let js := List.range (ceilDiv a.keys a.bk)
    let live := js.filter (blockLive fl a it q.2)
    let c := smConst a.smScale
    let x := (blockOrder (fBit fl 5) live).foldl (fun s j => attnBlock fl os a it c b g j.2 s j.1)
      (q.1, q.2, { st.2 with masked := st.2.masked + (js.length - live.length) })
    if x.1.fault.isSome then (x.1, x.2.2) else
      (writeRows fl os b a.dv x.1 x.2.1, { x.2.2 with nanRows := x.2.2.nanRows + (x.2.1.filter (·.nan)).length })

/-- EXT of ATTN (R253). -/
def attnExtra (c : AttnCnt) : List Byte :=
  [c.done, c.masked, c.proof, c.screened, c.reblock, c.nanRows, c.fadeS, c.fadeE].flatMap
    fun v => leBytes 4 (min v 0xFFFFFFFF)

/-- Put the ATTN's own counts so far beside the others, for a stop at this unit (R253). -/
def Run.noteExt (r : Run) (c : AttnCnt) : Run := { r with cnt := { r.cnt with ext := attnExtra c } }

/-- The units of one item, from a list of (KV head, query block). A page read that meets an uncorrectable error ends the
item's keys at that page's first token, and units that had used later keys run again (R297); `fuel` bounds the retries: the keys
lose a page each time. Each unit counts as its last run did: DESIGN CHOICE, unsafe (log 46). The first token of the last such page is
answered. -/
def itemUnits (fl : Fields) (os : Operands) (a : AttnArgs) (b : Nat) (units : List (Nat × Nat)) :
    Nat → Option Nat → AttnItem → Run × AttnCnt → Run × AttnCnt × Option Nat
  | 0, page, _, st => (st.1, st.2, page)
  | n + 1, page, it, st =>
    let go := units.foldl (fun (s : Run × AttnCnt) u =>
      if s.1.fault.isSome then s else
        let x := attnUnit fl os a it b u.1 u.2 s
        ((x.1.noteExt x.2).endUnit, x.2)) st
    match go.1.fault, it.kv with
    | some f, some kv =>
      if f.code = 0x0301 ∧ f.operand % 0x80 = 2 then
        let tok := (a.kPos0 + f.pos) / 16 * 16
        let r0 := { go.1 with fault := none, unit := st.1.unit, snaps := st.1.snaps, cnt := st.1.cnt, status := 6,
                               kvErrs := (kv.ctx, tok, f.va) :: go.1.kvErrs }
        itemUnits fl os a b units n (some tok) { it with kLen := max tok a.kPos0 - a.kPos0 } (r0, st.2)
      else (go.1, go.2, page)
    | _, _ => (go.1, go.2, page)

/-- All items of an ATTN in order (R231, R258). An item that reaches its fade point, by a lost suffix or by an uncorrectable page, is
noted for the contact sheet, and the lowest one for EXT (R251, R253, R297). -/
def attnItems (fl : Fields) (os : Operands) (a : AttnArgs) : Nat → List AttnItem → Run × AttnCnt → Run × AttnCnt
  | _, [], st => st
  | b, it :: its, st =>
    if st.1.fault.isSome then st else
      let qbs := ceilDiv a.qTokens a.bq
      let units := (List.range a.kvHeads).flatMap fun g => (List.range qbs).map fun qb => (g, qb)
      let stop := a.kPos0 + it.kLen
      match it.kv with
      | none => let x := itemUnits fl os a b units 1 none it st; attnItems fl os a (b + 1) its (x.1, x.2.1)
      | some kv =>
        let lost := decide (kv.len < stop ∧ kv.len < kv.high)
        let lim := { it with kLen := min it.kLen (kv.len - a.kPos0) }
        let x := itemUnits fl os a b units (lim.kLen / 16 + 2) (if lost then some kv.len else none) lim st
        let y := match x.2.2 with
          | none => (x.1, x.2.1)
          | some p =>
            ({ x.1 with status := 6, fades := ⟨kv.ctx, kv.layer, p, stop⟩ :: x.1.fades },
              if x.1.fades.isEmpty then { x.2.1 with fadeS := p, fadeE := stop } else x.2.1)
        attnItems fl os a (b + 1) its y

/-- Units of an ATTN (R231, R253). -/
def attnTotal (a : AttnArgs) : Nat := a.items.length * a.kvHeads * ceilDiv a.qTokens a.bq

/-- ATTN whole (R245). -/
def runAttn (fl : Fields) (os : Operands) (a : AttnArgs) (r : Run) : Run :=
  let x := attnItems fl os a 0 a.items (r, AttnCnt.zero)
  { x.1.noteExt x.2 with extra := attnExtra x.2 }

/-! ### MERGE (R257) -/

/-- One partial of a row: MAX, SUM and the values. -/
abbrev Partial := Val × Val × List Val

/-- Combine two partials (R257). -/
def mergeStep (x y : Partial) : Partial :=
  let m2 := Val.max' false x.1 y.1
  let a := exp2Val (rnd32 (x.1.sub m2))
  let b := exp2Val (rnd32 (y.1.sub m2))
  (m2, rnd32 ((x.2.1.mul a).add (rnd32 (y.2.1.mul b))),
    (x.2.2.zip y.2.2).map fun p => rnd32 ((p.1.mul a).add (rnd32 (p.2.mul b))))

/-- Load `n` FP32 elements at consecutive positions. -/
def loadRow (o : Operand) (opnd : Nat) : Nat → Nat → Run → Run × List Val
  | _, 0, r => (r, [])
  | p, n + 1, r =>
    let x := loadCfmt r o .fp32 p opnd
    let y := loadRow o opnd (p + 1) n x.1
    (y.1, f32 x.2 :: y.2)

/-- The partials of a row, in ascending index; one with SUM = +0 and MAX = -infinity is skipped (R257). -/
def mergeParts (os : Operands) (dv rows row : Nat) : List Nat → Run → Run × List Partial
  | [], r => (r, [])
  | i :: is, r =>
    let s := loadRow os.b 2 (3 * (row + rows * i)) 2 r
    let m := (s.2[0]?).getD .nan
    let l := (s.2[1]?).getD .nan
    if m == .inf true && (l.isZero && !l.neg?) then mergeParts os dv rows row is s.1
    else
      let v := loadRow os.a 1 (dv * (row + rows * i)) dv s.1
      let y := mergeParts os dv rows row is v.1
      (y.1, (m, l, v.2) :: y.2)

/-- The merged outputs of a row: O values and statistics. -/
def mergeRow (norm : Bool) (dv : Nat) (ps : List Partial) : List Val × List Val :=
  match ps with
  | [] => (List.replicate dv .zero, [.inf true, .zero, .inf true])
  | p :: rest =>
    if ps.any fun q => q.1 == .nan || q.2.1 == .nan || q.2.2.any (· == .nan) then
      (List.replicate dv .nan, [.nan, .nan, .nan])
    else
      let x := rest.foldl mergeStep p
      (if norm then x.2.2.map fun v => rnd32 (v.div x.2.1) else x.2.2, [x.1, x.2.1, rnd32 (x.1.add (log2Val x.2.1))])

/-- The rows of a unit of MERGE. -/
def mergeRows (fl : Fields) (os : Operands) (dv rows p : Nat) : Run → List Nat → Run
  | r, [] => r
  | r, row :: rest =>
    let x := mergeParts os dv rows row (List.range p) r
    if x.1.fault.isSome then x.1 else
      let y := mergeRow (fl.func.toNat % 2 == 1) dv x.2
      let st (o : Operand) (w n opnd out : Nat) (vs : List Val) (r : Run) : Run :=
        storeUnit r o .fp32 opnd out (vs.zipIdx.map fun v => ⟨row * w + v.2, v.1, toF32 v.1, false, false,
          some ((row % 128 * n + v.2 : Nat) : Int)⟩)
      mergeRows fl os dv rows p (st os.c 3 3 3 1 y.2 (st os.dst dv dv 0 0 y.1 x.1)) rest

/-- Rows and partials of a MERGE from its operands. -/
def mergeShape (os : Operands) : Nat × Nat × Nat :=
  match os.dst, os.a with
  | .tensor d, .tensor s =>
    let dv := (d.dims.head?.map (·.extent)).getD 1
    let rows := d.count / max 1 dv
    (dv, rows, s.count / max 1 (dv * rows))
  | _, _ => (1, 0, 0)

/-- Unit u of MERGE: 128 rows (R257). -/
def mergeUnit (fl : Fields) (os : Operands) (r : Run) (u : Nat) : Run :=
  let sh := mergeShape os
  mergeRows fl os sh.1 sh.2.1 sh.2.2 r (List.range' (128 * u) (min 128 (sh.2.1 - 128 * u)))

/-! ### EXPAND (R259, R260) -/

/-- The fields of EXPAND: RANK, HEADS, OUT, ROPE_W, heads per chunk. -/
def expandDims (fl : Fields) : Nat × Nat × Nat × Nat × Nat :=
  let i := fl.imm.toNat
  ((bits i 55 51 + 1) * 32, bits i 50 45 + 1, (bits i 44 41 + 1) * 32,
    if fl.func.toNat % 2 = 1 then bits i 40 37 * 16 else 0, bits i 36 31 + 1)

/-- A value to store: with its code, and whether the code is copied (R62). -/
abbrev OutVal := Val × Nat × Bool

/-- The outputs of one head and token: dot products, then the appended latent values (R259). -/
def expandHead (os : Operands) (rank hd : Nat) (lat : List MxElem) (ropeV : List OutVal) :
    List Nat → Run → Run × List OutVal
  | [], r => (r, ropeV)
  | o :: rest, r =>
    let w := rowElems os.b 2 o hd 0 0 rank r
    let d := dotProduct lat w.2 ((opScale os.a).mul (opScale os.b))
    let y := expandHead os rank hd lat ropeV rest (w.1.countFlush d.2)
    (y.1, (d.1, toF32 d.1, false) :: y.2)

/-- The latent's appended part, converted as a move does: metered, and copied bit for bit where R62 holds (R71, R196, R259). -/
def ropeVals (o : Operand) (copy : Bool) (tok : Nat) : Nat → Nat → Run → Run × List OutVal
  | _, 0, r => (r, [])
  | d, n + 1, r =>
    let x := moveLoad r o .fp32 copy (opPosition o [d, tok]) 0
    let y := ropeVals o copy tok (d + 1) n x.1
    (y.1, (x.2.val, x.2.code, x.2.copy) :: y.2)

/-- Heads and tokens of a chunk. -/
def expandCells (fl : Fields) (os : Operands) : Run → List (Nat × Nat) → Run
  | r, [] => r
  | r, (hd, tok) :: rest =>
    if r.fault.isSome then r else
      let (rank, _, out, rope, _) := expandDims fl
      let lat := rowElems os.a 1 tok 0 0 0 rank r
      let rv := ropeVals os.a (isBitCopy .fp32 os.a os.dst) tok rank rope lat.1
      let x := expandHead os rank hd lat.2 rv.2 (List.range out) rv.1
      let r1 := storeUnit x.1 os.dst .fp32 0 0
        (x.2.zipIdx.map fun v => ⟨opPosition os.dst [v.2, hd, tok], v.1.1, v.1.2.1, v.1.2.2, false, none⟩)
      expandCells fl os r1 rest

/-- Tokens of an EXPAND. -/
def expandTokens (os : Operands) : Nat :=
  match os.a with
  | .tensor t => ((t.dims.drop 1).map (·.extent)).foldl (· * ·) 1
  | _ => 0

/-- Chunk u of EXPAND; AUX counts the chunks (R260). -/
def expandUnit (fl : Fields) (os : Operands) (r : Run) (u : Nat) : Run :=
  let (_, heads, _, _, chunk) := expandDims fl
  let hs := List.range' (chunk * u) (min chunk (heads - chunk * u))
  let cells := hs.flatMap fun h => (List.range (expandTokens os)).map fun t => (h, t)
  (expandCells fl os r cells).countAux 1

/-! ### ATTN_BWD (R265 to R267) -/

/-- One query row of a backward pass: its Q and dO elements, LSE2 and D. -/
structure BwdRow where
  head  : Nat
  token : Nat
  qp    : Nat
  q     : List MxElem
  d     : List MxElem
  lse   : Val
  dsum  : Val
deriving DecidableEq, Repr

/-- The operand `i` of the further operands: V, dO, dK, dV (R265). -/
def moreOp (os : Operands) (i : Nat) : Operand := (os.more[i]?).getD .none

/-- Rows of a query block for the backward pass. -/
def bwdRows (os : Operands) (a : AttnArgs) (b g qb gs : Nat) : Run → List Nat → Run × List BwdRow
  | r, [] => (r, [])
  | r, i :: is =>
    let tok := a.bq * qb + i / gs
    let hd := g * gs + i % gs
    if a.qLen ≤ tok ∨ a.qTokens ≤ tok then bwdRows os a b g qb gs r is
    else
      let q := rowElems os.a 1 hd tok b 0 a.dqk r
      let d := rowElems (moreOp os 1) 1 hd tok b 0 a.dv q.1
      let p := opPosition os.c [0, hd, tok, b]
      let s := loadRow os.c 3 p 2 d.1
      let y := bwdRows os a b g qb gs s.1 is
      (y.1, ⟨hd, tok, a.qPos0 + tok, q.2, d.2, (s.2[0]?).getD .nan, (s.2[1]?).getD .nan⟩ :: y.2)

/-- P and dS of a pair, none where masked or where the row is empty (R266). -/
def bwdPair (fl : Fields) (a : AttnArgs) (os : Operands) (c : Val) (row : BwdRow) (kr : KeyRow) :
    Option (Val × Val) × Nat :=
  if !allowed fl a row.qp (a.kPos0 + kr.k) || row.lse == .inf true then (none, 0) else
    let s := dotProduct row.q kr.ks ((opScale os.a).mul (opScale os.b))
    let t := rnd32 (s.1.mul c)
    let p := exp2Val (rnd32 (t.sub row.lse))
    let dp := dotProduct row.d kr.vs ((opScale (moreOp os 1)).mul (opScale (moreOp os 0)))
    (some (p, rnd32 (p.mul (rnd32 (dp.1.sub row.dsum)))), s.2 + dp.2)

/-- Re-block the rows of an operand along the reduction axis where its format is MX (R239). -/
def alongAxis (f : Fmt) (rows : List (List MxElem)) : List (List MxElem) :=
  if fmtMx f then (groups32 (rows.length + 1) rows).flatMap fun g => (reblockGroup f g).1 else rows

/-- Accumulate one column: weights along the reduction axis, quantised group by group, times an operand's column. -/
def bwdColumn (pf : Fmt) (ws : List (Option Val)) (rows : List (List MxElem)) (j : Nat) (acc : Acc) : Acc :=
  let gs := groups32 (ws.length + 1) (ws.zip rows)
  gs.foldl (fun ac g =>
    let q := quantGroup pf (g.map fun p => p.1.getD .zero)
    let as := (q.zip g).map fun p => if p.2.1.isSome then p.1 else (Val.zero, p.1.2)
    let bs := g.map fun p => let v := (p.2[j]?).getD (Val.zero, 0); if p.1.isSome then v else (Val.zero, v.2)
    accStep ac (groupVal as bs)) acc

/-- The accumulators of a KV block: dK and dV, by key and column. -/
abbrev KvAcc := List (List Acc) × List (List Acc)

/-- One query block against one KV block: updates the accumulators and adds into dQ (R266). -/
def bwdQuery (fl : Fields) (os : Operands) (a : AttnArgs) (c : Val) (b g j qb : Nat) (keys : List KeyRow)
    (st : Run × KvAcc) : Run × KvAcc :=
  if st.1.fault.isSome then st else
    let gs := a.heads / max 1 a.kvHeads
    let rs := bwdRows os a b g qb gs st.1 (List.range (gs * a.bq))
    let rows := rs.2
    let live := rows.any fun row => keys.any fun kr => allowed fl a row.qp (a.kPos0 + kr.k)
    let first := j == 0 && fl.func.toNat / 2 % 2 == 0
    if !live && !first then (rs.1, st.2) else
      let pairs := rows.map fun row => keys.map (bwdPair fl a os c row)
      let fl0 := (pairs.map fun l => (l.map (·.2)).foldl (· + ·) 0).foldl (· + ·) 0
      let pf := probFmt a.pFmt
      let dRows := alongAxis (opFmt (moreOp os 1)) (rows.map (·.d))
      let qRows := alongAxis (opFmt os.a) (rows.map (·.q))
      let kRows := alongAxis (opFmt os.b) (keys.map (·.ks))
      let upd (sel : Val × Val → Val) (ops : List (List MxElem)) (accs : List (List Acc)) : List (List Acc) :=
        accs.zipIdx.map fun x =>
          let ws := pairs.map fun l => ((l[x.2]?).bind (·.1)).map sel
          x.1.zipIdx.map fun y => bwdColumn pf ws ops y.2 y.1
      let acc' : KvAcc := (upd (·.2) qRows st.2.1, upd (·.1) dRows st.2.2)
      let fac := (opScale os.b).mul (f32 a.smScale)
      let r1 := (rows.zip pairs).foldl (fun (r : Run) p =>
          let ws := p.2.map fun x => x.1.map (·.2)
          (List.range a.dqk).foldl (fun (r : Run) d =>
            if r.fault.isSome then r else
              let pos := opPosition os.dst [d, p.1.head, p.1.token, b]
              let con := bwdColumn pf ws kRows d (.fin true 0 0, 0)
              let inc := con.1.mul fac
              let old := loadCfmt r os.dst .fp32 pos 0
              let v := if !live then .zero else if first then rnd32 inc else rnd32 ((f32 old.2).add inc)
              storeUnit ((if first then r else old.1).countFlush con.2) os.dst .fp32 0 0
                [⟨pos, v, toF32 v, false, false, none⟩]) r) (rs.1.countFlush fl0)
      (r1, acc')

/-- Write dK and dV of a KV block (R86, R266). -/
def writeKv (os : Operands) (a : AttnArgs) (b g : Nat) (keys : List KeyRow) (r : Run) (acc : KvAcc) : Run :=
  let kf := (opScale os.a).mul (f32 a.smScale)
  let vf := opScale (moreOp os 1)
  let put (r : Run) (o : Operand) (out : Nat) (f : Val) (rows : List (List Acc)) : Run :=
    let cells := (keys.zip rows).flatMap fun p => p.2.zipIdx.map fun x =>
      let y := scaleStep x.1 f
      ((⟨opPosition o [x.2, g, p.1.k, b], y.1, toF32 y.1, false, false, none⟩ : PosVal), y.2)
    (storeUnit r o .fp32 0 out (cells.map (·.1))).countFlush ((cells.map (·.2)).foldl (· + ·) 0)
  put (put r (moreOp os 2) 1 kf acc.1) (moreOp os 3) 2 vf acc.2

/-- Unit u of ATTN_BWD: one KV block of one KV head of one item (R267). -/
def bwdUnit (fl : Fields) (os : Operands) (a : AttnArgs) (r : Run) (u : Nat) : Run :=
  let nb := ceilDiv a.keys a.bk
  let j := u % max 1 nb
  let g := u / max 1 nb % max 1 a.kvHeads
  let b := u / max 1 (nb * a.kvHeads)
  let it := (a.items[b]?).getD ⟨0, none⟩
  let ks := keyRows fl os a it b g r (blockKeys a it j)
  let zero (n : Nat) : List (List Acc) := ks.2.map fun _ => List.replicate n (Val.fin true 0 0, 0)
  let c := smConst a.smScale
  let x := (List.range (ceilDiv a.qTokens a.bq)).foldl (fun st qb => bwdQuery fl os a c b g j qb ks.2 st)
    (stageBlock os.b (moreOp os 0) a.dqk a.dv ks.2.length j ks.1, (zero a.dqk, zero a.dv))
  if x.1.fault.isSome then x.1 else writeKv os a b g ks.2 x.1 x.2

/-- Units of ATTN_BWD. -/
def bwdTotal (a : AttnArgs) : Nat := a.items.length * a.kvHeads * ceilDiv a.keys a.bk

end Sys2Proof.Machine
end

