-- ==== Sys2Proof/Machine/KvTypes.lean ====
section
/-! DEFINITION. The records of the KV page manager (R268 to R305). -/

namespace Sys2Proof.Machine

/-- Tray states (R283). -/
inductive TrayState where
  | resident | fixing | full | parking | parked | restoring
deriving DecidableEq, Repr

/-- The code of a tray state (R283). -/
def TrayState.code : TrayState → Nat
  | .resident => 0 | .fixing => 1 | .full => 2 | .parking => 3 | .parked => 4 | .restoring => 5

/-- Page frame states (R287). -/
inductive FrameState where
  | free | reserved | writing | live | draining
deriving DecidableEq, Repr

/-- The code of a frame state (R287). -/
def FrameState.code : FrameState → Nat
  | .free => 0 | .reserved => 1 | .writing => 2 | .live => 3 | .draining => 4

/-- One token of a tray: stream 0, and stream 1 where the pool has two. -/
structure TrayToken where
  s0 : TokenRow
  s1 : TokenRow
deriving DecidableEq, Repr

/-- One layer of a context: L and H (R269), its tray (R282, R283), its park slot: the column and where it starts in the park area
(R563); FADED pages (R275). -/
structure KvLayer where
  len     : Nat
  high    : Nat
  tray    : TrayState
  wasFull : Bool
  tokens  : List TrayToken
  lastPin : Nat
  column  : Nat
  park    : Nat
  faded   : List (Nat × Nat)
deriving DecidableEq, Repr

/-- A pin of a context (R270): slice, the key of the pinning instruction, the fade generation, whether by an APPEND or FIX,
and the layer it touches. -/
structure KvPin where
  slice : Nat
  key   : Nat
  gen   : Nat
  write : Bool
  layer : Nat
deriving DecidableEq, Repr

/-- An open sequence context (R268 to R270). -/
structure KvCtx where
  num       : Nat
  closing   : Bool
  domain    : Nat
  cls       : Nat
  chain     : List Nat
  maxTokens : Nat
  notice    : Nat
  fadeGen   : Nat
  lastUse   : Nat
  keep      : Bool
  usedFrame : Bool
  layers    : List KvLayer
  pins      : List KvPin
deriving DecidableEq, Repr

/-- A page pool (R277, R278). `places` gives, per column (or the external range), where its share starts. -/
structure KvPool where
  num     : Nat
  emul    : Bool
  streams : Nat
  fmt     : Fmt
  planar  : Bool
  width   : Nat
  colmask : Nat
  share   : Nat
  base    : Nat
  size    : Nat
  stripe  : Nat
  low     : Nat
  high    : Nat
  places  : List (Nat × Nat)
deriving DecidableEq, Repr

/-- A claimed frame group (R279): its place, and the states of its Z frames. -/
structure KvGroup where
  ctx    : Nat
  layer  : Nat
  index  : Nat
  pool   : Nat
  column : Nat
  num    : Nat
  frames : List FrameState
deriving DecidableEq, Repr

/-- What a KV instruction waits for: a free group (R293), a DRAINING frame (R292), a tray's restore (R285), its own fix, or one that an
aborted instruction began (R292). -/
inductive KvWaitKind where
  | group | frame | restore | fix | other
deriving DecidableEq, Repr

/-- A KV instruction that waits (R285, R292, R293). -/
structure KvWaiter where
  kind     : KvWaitKind
  slice    : Nat
  key      : Nat
  ctx      : Nat
  layer    : Nat
  since    : Nat
  deadline : Option Nat
deriving DecidableEq, Repr

/-- An error fade not yet begun: of a context to a token, or of one of its layers (R297, R331). -/
structure ErrFade where
  ctx   : Nat
  len   : Nat
  layer : Option Nat
deriving DecidableEq, Repr

/-- A fade step in progress (R299): of every layer or of one, the step reached; from step 2 on, the old lengths and the groups claimed by
then, as (pool, column, number). -/
structure FadeStep where
  ctx    : Nat
  len    : Nat
  layer  : Option Nat
  cause  : Nat
  step   : Nat
  oldLen : List Nat
  doomed : List (Nat × Nat × Nat)
deriving DecidableEq, Repr

/-- What a table of the window is: the level-2 table of a group of 8 contexts of a domain, a layer's level-1 table, or the fine table of
one of its level-1 entries (R274, R563). -/
inductive TabUse where
  | group (domain num : Nat)
  | layer (ctx layer : Nat)
  | fine (ctx layer slot : Nat)
deriving DecidableEq, Repr

/-- A table of the window: its column, where it starts in the table area, its bytes (R278, R563). -/
structure KvTable where
  use    : TabUse
  column : Nat
  off    : Nat
  size   : Nat
deriving DecidableEq, Repr

/-- The claims of one nanosecond (R304): the quadrant of each and whether it was granted; whether they have counted as contested. -/
structure Claims where
  ns     : Nat
  all    : List (Nat × Bool)
  met    : Bool
deriving DecidableEq, Repr

/-- Counters of a pool (R302, R303). -/
structure PoolStat where
  empty     : W16
  displaced : W16
  low       : W16
  firstNs   : BitVec 48
deriving DecidableEq, Repr

/-- The KV page manager. `tabs` lists the window's tables (R563); `press` the pool chains under pressure (R299); `errFades` the error
fades not yet begun (R297); `closes` the contexts that a retirement closes (R343). -/
structure Kv where
  ctxs     : List KvCtx
  pools    : List KvPool
  groups   : List KvGroup
  waiters  : List KvWaiter
  fades    : List FadeStep
  errFades : List ErrFade
  closes   : List Nat
  tabs     : List KvTable
  press    : List (List Nat)
  quadPtr  : BitVec 2
  contests : W32
  claims   : Claims
  stats    : Vector PoolStat 8
deriving DecidableEq, Repr

/-- No context open, no pool configured (R303). -/
def Kv.reset : Kv where
  ctxs := []
  pools := []
  groups := []
  waiters := []
  fades := []
  errFades := []
  closes := []
  tabs := []
  press := []
  quadPtr := 0
  contests := 0
  claims := ⟨0, [], false⟩
  stats := Vector.replicate 8 ⟨0, 0, 0, 0⟩

end Sys2Proof.Machine
end

