-- ==== Sys2Proof/Machine/ReelTypes.lean ====
section
/-! DEFINITION. The records of the reel engine (R306 to R327). -/

namespace Sys2Proof.Machine

/-- What is known of a foreign step of a round (R319, R322). -/
structure StepRec where
  k        : Nat
  outcome  : Option Nat
  released : Bool
  arriveNs : Nat
  injectNs : Nat
  kPos0    : Nat
  keys     : Nat
deriving DecidableEq, Repr

/-- A round of a channel (R309 to R313). `mode` is 1 FWD, 2 BIDIR. `left` lists the injection copies that still have to leave
(0 on REEL_A, 1 on REEL_B); `began` says that its first header has left, `lost` that a copy will never leave whole (R312, R324). -/
structure Round where
  opened   : Bool
  fwdOnly  : Bool
  injected : Bool
  mode     : Nat
  n        : Nat
  pos      : Nat
  slice    : Nat
  key      : Nat
  round    : Nat
  layer    : Nat
  nslot    : Nat
  stride   : Nat
  qPos0    : Nat
  qLen     : Nat
  kPos0    : Nat
  keys     : Nat
  width    : Nat
  causal   : Bool
  window   : Bool
  globals  : List Nat
  land0    : Option Tensor
  land1    : Option Tensor
  payload  : List Byte
  elemB    : Nat
  scaleB   : Nat
  left     : List Nat
  steps    : List StepRec
  began    : Bool
  lost     : Bool
deriving DecidableEq, Repr

/-- A channel on which no round has opened (R327). -/
def Round.reset : Round :=
  ⟨false, false, false, 0, 0, 0, 0, 0, 0, 0, 0, 0, 0, 0, 0, 0, 0, false, false, [], none, none, [], 0, 0, [], [], false, false⟩

/-- Where an inbound block is: held for its round up to a time, waiting for its slot up to a time, landing into step `k` of a
round, or only passing through (R316, R321, R324, R326). -/
inductive BlkState where
  | held (limit : Nat)
  | waiting (k limit : Nat)
  | landing (k : Nat)
  | passing
deriving DecidableEq, Repr

/-- An inbound block whose header has arrived. `port` is 0 REEL_A, 1 REEL_B; `hdr` the 64 header bytes as received; `got` and `laid` its
64-byte units that have arrived, the header with them, and that have landed (R318). -/
structure Blk where
  id    : Nat
  port  : Nat
  hdr   : List Byte
  state : BlkState
  got   : Nat
  laid  : Nat
deriving DecidableEq, Repr

/-- What an outbound direction sends: an injection of a channel, or the forward of an inbound block, and its 64-byte units that are still
to be sent. `id` is its place in the order of readiness, for a forward that of its block (R316). -/
structure OutItem where
  isFwd : Bool
  id    : Nat
  round : Nat
  units : Nat
deriving DecidableEq, Repr

/-- One reel port (R318, R327, R403): `up` the link, `credits` outbound, the item being sent and what waits, whether the
latest beat sent was an abort marker, and the header sent last. -/
structure ReelPort where
  up      : Bool
  credits : Nat
  cur     : Option OutItem
  queue   : List OutItem
  tx      : W64
  rx      : W64
  down    : W16
  aborted : Bool
  lastHdr : List Byte
deriving DecidableEq, Repr

/-- The reel engine. `expired` lists the headers of the early blocks whose hold ended (R324). -/
structure Reel where
  portA     : ReelPort
  portB     : ReelPort
  rounds    : Vector Round 4
  blocks    : List Blk
  nextId    : Nat
  expired   : List (List Byte)
  hdrCrc    : W16
  corrupt   : W16
  stale     : W16
  missed    : W16
  skipped   : W32
  forwarded : W32
  firstNs   : BitVec 48
deriving DecidableEq, Repr

/-- Both links down, no round opened (R327). -/
def Reel.reset : Reel where
  portA := ⟨false, 0, none, [], 0, 0, 0, false, []⟩
  portB := ⟨false, 0, none, [], 0, 0, 0, false, []⟩
  rounds := Vector.replicate 4 Round.reset
  blocks := []
  nextId := 0
  expired := []
  hdrCrc := 0
  corrupt := 0
  stale := 0
  missed := 0
  skipped := 0
  forwarded := 0
  firstNs := 0

end Sys2Proof.Machine
end

