-- ==== Sys2Proof/Machine/HubTypes.lean ====
section
/-! DEFINITION. The records of the hub: identity, pins, time base, start-up, ports, mailboxes, firmware, security,
emulsion, power, contact sheet, semaphores. -/

namespace Sys2Proof.Machine

/-! ### Identity, pins, time -/

/-- The configuration (R5, R40). -/
inductive Model where
  | v8 | v16 | v32
deriving DecidableEq, Repr

/-- What manufacture and straps fix (R40, R410, R417, R470, R529, R538). -/
structure Chip where
  model      : Model
  stepping   : Byte
  mfgRetired : W32
  strapOrder : Byte
  strapSrc   : Bool
  uid0       : W64
  uid1       : W64
  keyRevoked : BitVec 4
deriving DecidableEq, Repr

/-- Input pins that the block watches as levels, and the test access port (R405, R419): the instruction in its wrapper register, in
the order of R419's list. -/
structure Pins where
  resetLow    : Bool
  supplyWarn  : Bool
  wir         : Nat
  testStopped : Bool
deriving DecidableEq, Repr

/-- The time base (R350 to R355). -/
structure TimeBase where
  now        : W64
  running    : Bool
  capture    : W64
  seq        : W16
  lastCap    : Option Nat
  capAdj     : Int
  slewRemain : Int
  nextSlew   : Nat
  synced     : Bool
  lastOffset : W32
deriving DecidableEq, Repr

/-- The block tick (R355 to R359). -/
structure Tick where
  flywheel : Bool
  active   : Bool
  period   : Nat
  pending  : Option Nat
  last     : W64
  count    : W64
  next     : Nat
  glitch   : W16
  missed   : W16
  overexp  : W16
  slips    : W16
deriving DecidableEq, Repr

/-! ### Start-up, addresses, interrupts, ports -/

/-- START_STATUS.PHASE (R417). -/
inductive Start where
  | steps | training | boot | verify | ready | stoppedLock | stoppedBoot
deriving DecidableEq, Repr

/-- The code of a start-up phase (R417). -/
def Start.code : Start → Nat
  | .steps => 0 | .training => 1 | .boot => 2 | .verify => 3 | .ready => 4 | .stoppedLock => 8 | .stoppedBoot => 9

/-- Start-up (R410 to R417): `done` lists the steps performed. -/
structure StartUp where
  phase           : Start
  order           : Byte
  orderSrc        : BitVec 2
  settingsRefused : Bool
  strapsRefused   : Bool
  fwSlot          : BitVec 2
  slotFallback    : Bool
  warnSeen        : Bool
  lockUs          : W16
  done            : List Nat
  readyNs         : Nat
deriving DecidableEq, Repr

/-- NODE_ADDR and ENUM_OUT (R407, R408). -/
structure Node where
  addr    : W12
  valid   : Bool
  enumOut : Bool
deriving DecidableEq, Repr

/-- IRQ_STATUS and IRQ_ROUTE (R406, R417). -/
structure Irq where
  status : BitVec 9
  route  : BitVec 27
deriving DecidableEq, Repr

/-- A beat of a SPORT (R388). -/
structure Beat where
  vc    : Nat
  phase : Nat
  hdr   : W64
  data  : List Byte
deriving DecidableEq, Repr

/-- One SPORT: outbound credits, inbound credits held by the host, responses waiting for a credit, the last beat sent
(R391, R393). -/
structure Sport where
  out1 : Nat
  out3 : Nat
  in1  : Nat
  in3  : Nat
  wait : List Beat
  last : Option Beat
deriving DecidableEq, Repr

/-- An access of external memory of an instruction (by its key) of a slice, that an outstanding tag stands for or that waits for a
free tag (R26, R397); `tag` is not read while it waits. -/
structure MTag where
  tag   : W12
  slice : Nat
  key   : Nat
  acc   : ExtAcc
deriving DecidableEq, Repr

/-- The clock-change handshake (R34, R394): DVFS_REQ and DVFS_OP; the raised point whose voltage settles; when DVFS_REQ rose; the
earliest switch instant once DVFS_ACK is sampled, and whether the switch waits for a block tick edge; whether a thermal or
emulsion limit set the change. -/
structure Dvfs where
  req      : Bool
  op       : Nat
  settle   : Option Nat
  reqAt    : Nat
  switchAt : Option Nat
  atEdge   : Bool
  therm    : Bool
deriving DecidableEq, Repr

/-- A packet that the block presents on CPORT (R400). -/
structure CpResp where
  op     : Nat
  dst    : W12
  offset : W16
  data   : W64
deriving DecidableEq, Repr

/-- The ports (R386 to R399, R417): `tags` are the outstanding accesses, `waits` those that wait for a free tag, in the order in which
they asked (R26). -/
structure Ports where
  spUp      : W16
  mpUp      : Byte
  credOvf   : W16
  dropped   : W16
  mpErr     : W16
  mpStray   : W16
  aperture  : W32
  sports    : Vector Sport 16
  tags      : List MTag
  waits     : List MTag
  dvfs      : Dvfs
  cpResp    : Option CpResp
deriving DecidableEq, Repr

/-! ### Mailboxes, settings, firmware -/

/-- What a mailbox command can hold (R434). -/
inductive Obj where
  | slice (n : Nat) | context (n : Nat) | pool (n : Nat) | setting (n : Nat) | fwSlot (n : Nat) | column (n : Nat)
  | library | security | power | timeBase | sheet
deriving DecidableEq, Repr

/-- The progress of a MIGRATE (R481): phase 1 waits for E1, 2 for the source's units to stop, 3 for its external writes and the copy,
6 for E2. `skips` counts the periods since E1; `drainBy` is the end of DRAIN_NS, then that of the copy. -/
structure Migration where
  src      : Nat
  dst      : Nat
  phase    : Nat
  oldEpoch : Nat
  skips    : Nat
  drainBy  : Nat
deriving DecidableEq, Repr

/-- A mailbox command in progress (R426, R433, R434). -/
structure Cmd where
  chan     : Nat
  msg      : List Byte
  startNs  : Nat
  deadline : Nat
  late     : Bool
  begun    : Bool
  objs     : List Obj
  mask     : W32
  stopped  : W32
  aborted  : W32
  edge     : Nat
  target   : Nat
  migr     : Option Migration
deriving DecidableEq, Repr

/-- One mailbox channel (R424 to R428, R435). `held` lists, in order, the notices and the completion that wait for a free
completion entry. -/
structure Chan where
  stage   : Vector W64 8
  reqs    : List (List Byte)
  reqWr   : W16
  reqRd   : W16
  cplWr   : W16
  cplRd   : W16
  cpls    : List (List Byte)
  held    : List (List Byte)
  lost    : W16
  running : Option Cmd
deriving DecidableEq, Repr

/-- FW_STATE (R439). -/
inductive FwState where
  | committed | trial | limited
deriving DecidableEq, Repr

/-- The code of a firmware state (R439). -/
def FwState.code : FwState → Nat
  | .committed => 0 | .trial => 1 | .limited => 2

/-- A firmware slot (R456, R486): empty, being staged, or holding an image. -/
structure FwSlot where
  staged   : Nat
  image    : List Byte
  verified : Bool
  factory  : Bool
deriving DecidableEq, Repr

/-- The version of a slot's firmware (R439). -/
def FwSlot.version (x : FwSlot) : W32 := if x.factory then Config.factoryVersion else Config.imageVersion x.image

/-- The settings schema of a slot's firmware (R457): 1 for the factory's. -/
def FwSlot.schema (x : FwSlot) : Nat := if x.factory then 1 else Config.imageSchema x.image

/-- Whether a slot's firmware reads stored settings of a schema (R487). -/
def FwSlot.reads (x : FwSlot) (n : Nat) : Bool := if x.factory then n == 1 else Config.readsSchema x.image n

/-- A routine of the library store (R440). -/
structure Routine where
  id    : Nat
  code  : List Byte
deriving DecidableEq, Repr

/-- The boot record (R485). -/
structure BootRecord where
  preferred : Nat
  previous  : Nat
  state     : FwState
  schema    : Nat
  watchdog  : Nat
  retired   : W32
deriving DecidableEq, Repr

/-- Firmware, its slots, its boot record and the library (R437 to R440, R485 to R492). `owed` is the command whose final completion
the next firmware posts; `owedKind` is 0 for an activation or rollback, 1 for a return by the watchdog. -/
structure Firmware where
  running    : Bool
  state      : FwState
  slot       : Nat
  slotA      : FwSlot
  slotB      : FwSlot
  boot       : BootRecord
  dogUntil   : Option Nat
  owed       : Option Cmd
  owedKind   : Nat
  libVersion : W32
  library    : List Routine
  libDigest  : List Byte
  rrLast     : Nat
  conts      : List Cmd
deriving DecidableEq, Repr

/-- The slot numbered 1 (A) or 2 (B). -/
def Firmware.slotOf (x : Firmware) (n : Nat) : FwSlot := if n = 1 then x.slotA else x.slotB

/-- The slot of the running firmware. -/
def Firmware.current (x : Firmware) : FwSlot := x.slotOf x.slot

/-- Replace a slot. -/
def Firmware.setSlot (x : Firmware) (n : Nat) (y : FwSlot) : Firmware := if n = 1 then { x with slotA := y } else { x with slotB := y }

/-- The settings store's controller (R493 to R495, R500). -/
structure Store where
  replFree  : Nat
  exhausted : Bool
  retired   : Nat
  retries   : W16
  ceReads   : W16
  wear      : List (Nat × Nat)
  sel       : BitVec 10
  replaced  : List (Nat × Nat)
deriving DecidableEq, Repr

/-- Configuration scrubbing (R497 to R500): `bad` lists the frames marked uncorrectable, `due` those that fault their slice
at the next edge. -/
structure Scrub where
  passes    : W32
  late      : W16
  corrected : W32
  uncorr    : W32
  lastSlice : Nat
  lastFrame : Nat
  lastFetch : Bool
  lastValid : Bool
  lastNs    : W64
  startNs   : Option Nat
  bad       : List (Nat × Nat)
  due       : List (Nat × Nat)
deriving DecidableEq, Repr

/-! ### Translation registers and security -/

/-- A queued invalidation (R223). -/
inductive Inval where
  | range (domain va pages : Nat)
  | whole (domain : Nat)
  | all
deriving DecidableEq, Repr

/-- The translation and domain registers (R223, R227, R534, R538). -/
structure Xl where
  hub      : HubXl
  invalVa  : BitVec 44
  invals   : List Inval
  issued   : W32
  done     : W32
  faults   : W32
  walks    : BitVec 48
  lastVa   : W64
  lastInfo : W64
  domSel   : W12
  domRoot  : W32
  domCtl   : BitVec 5
  domIssued : W32
  domDone  : W32
  commit   : Option Nat
deriving DecidableEq, Repr

/-- The security unit (R530 to R538): `nonce` numbers the nonce drawn last. -/
structure Sec where
  minSvn     : Nat
  unlocked   : Bool
  scope      : Byte
  fails      : Nat
  lockedOut  : Bool
  nonce      : Nat
  data       : Vector W64 12
  owner      : W12
  ownerValid : Bool
  violCount  : W32
  lastDomain : W12
  spdmState  : Nat
  spdmPhase  : Nat
  resync     : Bool
deriving DecidableEq, Repr

/-! ### Emulsion -/

/-- EMUL_COLc.STATE (R347). -/
inductive ColState where
  | absent | training | live | sparing | retiring | failed
deriving DecidableEq, Repr

/-- The code of a column state (R347). -/
def ColState.code : ColState → Nat
  | .absent => 0 | .training => 1 | .live => 2 | .sparing => 3 | .retiring => 4 | .failed => 5

/-- A sparing copy in progress (R341): tier, logical bank, the physical bank it leaves and the one it goes to. -/
structure SpareCopy where
  tier : Nat
  bank : Nat
  old  : Nat
  new  : Nat
deriving DecidableEq, Repr

/-- One emulsion column (R336 to R347). `thermal` is the measured state; `hist` the temperatures of the last 1 ms; `banks` the
counts of (tier, logical bank): corrected in the pass, uncorrected; `map` the physical banks that replace logical ones. -/
structure Column where
  state     : ColState
  thermal   : Nat
  early     : Bool
  temps     : Vector Int 4
  hist      : List (Nat × Vector Int 4)
  ce        : W16
  ue        : W16
  spared    : Nat
  lanes     : Nat
  banks     : List (Nat × Nat × Nat × Nat)
  map       : List (Nat × Nat × Nat)
  copy      : Option SpareCopy
  haltNs    : Option Nat
  reportNs  : Nat
  hotNs     : Option Nat
deriving DecidableEq, Repr

/-- The emulsion controller (R346). -/
structure EmulCtl where
  cols       : Vector Column 32
  trained    : Bool
  initDone   : Bool
  mapLost    : Bool
  ce         : W32
  ue         : W32
  firstUe    : BitVec 48
  lastErr    : W64
  passes     : W32
  passNs     : Nat
  retired    : W32
  poisoned   : List Nat
deriving DecidableEq, Repr

/-! ### Power and thermal -/

/-- One telemetry sample (R502): power of each quadrant, the hub and the emulsion, in microwatts. -/
structure PwrSample where
  quads : List Nat
  hub   : Nat
  emul  : Nat
deriving DecidableEq, Repr

/-- The thermal model of a quadrant (R511 to R514): `tref` and `t1` in 2^-64 °C; `trefQ`, `tm` and `pred`, as reported, in 0.25 °C;
`target` the highest point that its prediction allows. -/
structure Quad where
  limit   : Nat
  rth     : Nat
  tau     : Nat
  horizon : Nat
  tref    : Int
  trefQ   : Int
  t1      : Option Int
  tm      : Int
  pred    : Int
  target  : Nat
deriving DecidableEq, Repr

/-- The power manager (R502 to R524). Energy is in picojoules. -/
structure Power where
  op         : Nat
  target     : Nat
  floor      : Nat
  clamp      : Bool
  capLimited : Bool
  thermLimited : Bool
  qhalt      : BitVec 4
  voltMv     : Nat
  capW       : Nat
  nextCap    : Nat
  windowMs   : Nat
  nextWindow : Nat
  winStart   : Nat
  energy     : Nat
  samples    : Nat
  capTarget  : Nat
  lastAvg    : Nat
  lastCap    : Nat
  lastOver   : Bool
  overruns   : W16
  clamps     : W16
  thermSteps : W16
  qhalts     : W16
  overNs     : BitVec 48
  wakes      : List Nat
  admits     : List Nat
  admitted   : W16
  hist       : List PwrSample
  quads      : Vector Quad 4
  hubTemp    : Int
  emulLimit  : Nat
  emulHotNs  : Option Nat
  emulCoolNs : Option Nat
  clampUntil : Option Nat
deriving DecidableEq, Repr

/-! ### Contact sheet and semaphores -/

/-- The contact sheet (R377 to R383): `ring` holds the entries in the hub's ring, the last one written last; `keys` the last
key of each source (R374). -/
structure Sheet where
  ring       : List (List Byte)
  wr         : W32
  rd         : W32
  spillOn    : Bool
  spillErr   : Bool
  log2       : BitVec 5
  base       : BitVec 40
  lost       : W16
  firstNs    : BitVec 48
  lostBefore : Bool
  trace      : BitVec 3
  keys       : List (Nat × Nat × Nat)
deriving DecidableEq, Repr

/-- One semaphore (R547 to R552). -/
structure Sem where
  held      : Bool
  kind      : BitVec 2
  owner     : W12
  abandoned : Bool
  acqAband  : Bool
  waiters   : List Nat
  acquires  : W32
deriving DecidableEq, Repr

/-- A free semaphore. -/
def Sem.reset : Sem := ⟨false, 0, 0, false, false, [], 0⟩

/-- The semaphore unit (R552). -/
structure SemUnit where
  sems     : Vector Sem 256
  cycles   : W16
  aband    : W16
  timeouts : W16
deriving DecidableEq, Repr

end Sys2Proof.Machine
end

