-- ==== Sys2Proof/Machine/Settings.lean ====
section
/-! DEFINITION. The table of settings (R458) and what the configurations fix (R5, R40, R42). -/

namespace Sys2Proof.Machine

/-- Quadrants present (R40). -/
def Model.quads : Model → Nat
  | .v8 => 1 | .v16 => 2 | .v32 => 4

/-- Slices present (R40). -/
def Model.slices (m : Model) : Nat := 8 * m.quads
/-- SPORTs present (R40). -/
def Model.sports (m : Model) : Nat := 4 * m.quads
/-- MPORTs present (R40). -/
def Model.mports (m : Model) : Nat := 2 * m.quads

/-- POWER_CAPS.PEAK_W (R42). -/
def Model.peakW : Model → Nat
  | .v8 => 150 | .v16 => 275 | .v32 => 540

/-- POWER_CAPS.CAP_MIN_W (R42). -/
def Model.capMinW : Model → Nat
  | .v8 => 40 | .v16 => 70 | .v32 => 120

/-- BLOCK_ID.CONFIG (R40). -/
def Model.code : Model → Nat
  | .v8 => 1 | .v16 => 2 | .v32 => 3

/-- A row of R458. -/
structure SettingInfo where
  id     : Nat
  dflt   : Int
  lo     : Int
  hi     : Int
  signed : Bool
deriving DecidableEq, Repr

/-- R458, first half. -/
def settingsA (m : Model) : List SettingInfo :=
  [⟨0x0101, 1000000, 1000, 100000000, false⟩, ⟨0x0102, 0, 0, 1, false⟩, ⟨0x0103, 1000, 100, 10000000, false⟩,
   ⟨0x0104, 0, -1000, 1000, true⟩, ⟨0x0105, 1000, 100, 100000, false⟩,
   ⟨0x0106, 0, 0, 2 ^ m.slices - 1, false⟩, ⟨0x0107, 1000000, 1, 4294967295, false⟩,
   ⟨0x0201, 0x00F8000000000000, 0, 31 * 2 ^ 51, false⟩, ⟨0x0202, 100000, 1000, 100000000, false⟩,
   ⟨0x0203, 256, 1, 1048576, false⟩, ⟨0x0301, 100000000, 10000, 1000000000, false⟩,
   ⟨0x0302, 1000000, 10000, 100000000, false⟩]

/-- R458, second half. -/
def settingsB (m : Model) : List SettingInfo :=
  [⟨0x0401, 60, 1, 86400, false⟩, ⟨0x0402, 1, 0, 1, false⟩, ⟨0x0403, 64, 0, 65535, false⟩,
   ⟨0x0501, 0, 0, 1, false⟩, ⟨0x0502, 12, 8, 16, false⟩, ⟨0x0601, m.peakW, m.capMinW, m.peakW, false⟩,
   ⟨0x0602, 100, 10, 1000, false⟩, ⟨0x0701, 100, 1, 60000, false⟩, ⟨0x0702, 1, 1, 0xFFFF, false⟩,
   ⟨0x0703, 30, 5, 600, false⟩, ⟨0x0704, 1000, 100, 10000, false⟩, ⟨0x0801, 0xE4, 0, 0xFF, false⟩]

/-- The settings of R458, in ascending ID order. -/
def settingTable (m : Model) : List SettingInfo := settingsA m ++ settingsB m

/-- The row of a setting, if its ID exists. -/
def settingInfo (m : Model) (id : Nat) : Option SettingInfo := (settingTable m).find? (fun i => i.id == id)

/-- Every setting at its default (R458), as (ID, 64-bit value). -/
def settingDefaults (m : Model) : List (Nat × W64) := (settingTable m).map (fun i => (i.id, BitVec.ofInt 64 i.dflt))

/-- Whether a start-up order is a permutation of the four steps in which WRITES does not precede LOCK (R411). -/
def orderLegal (o : Byte) : Bool :=
  let st (i : Nat) : Nat := o.toNat / 4 ^ i % 4
  let ids := [st 0, st 1, st 2, st 3]
  let pos (v : Nat) : Nat := ids.findIdx (· == v)
  [0, 1, 2, 3].all (fun v => ids.contains v) && decide (pos 0 < pos 3)

/-- The steps of an order, first to last (R410). -/
def orderSteps (o : Byte) : List Nat := [o.toNat % 4, o.toNat / 4 % 4, o.toNat / 16 % 4, o.toNat / 64 % 4]

end Sys2Proof.Machine
end

