-- ==== Sys2Proof/Machine/SliceTypes.lean ====
section
/-! DEFINITION. The records of one slice: sequencer, brackets, tiles, queues, meters, completion ring, timed streams. -/

namespace Sys2Proof.Machine

/-- SLICE_STATE.STATE (R467). -/
inductive SliceState where
  | off | cold | ready | running | draining | faulted | service
deriving DecidableEq, Repr

/-- The code of a slice state (R467). -/
def SliceState.code : SliceState → Nat
  | .off => 0 | .cold => 1 | .ready => 2 | .running => 3 | .draining => 4 | .faulted => 5 | .service => 6

/-- A frame of the call stack (R140, R558): where RET goes, and the bases of the caller (R141). -/
structure CallFrame where
  pc        : Nat
  routine   : Option Nat
  hbase     : Nat
  tbase     : Nat
deriving DecidableEq, Repr

/-- The kind of a WAIT in progress (R144, R145). -/
inductive WaitKind where
  | acquire (sem : Nat)
  | drain (qmask : Nat)
deriving DecidableEq, Repr

/-- A WAIT that stalls issue. `startNs` is its start key (R548, R551). -/
structure WaitRec where
  kind     : WaitKind
  startNs  : Nat
  deadline : Nat
  fields   : WaitFields
  index    : Nat
  routine  : Option Nat
deriving DecidableEq, Repr

/-- A predicated CALL that waits for its comparator (R143). -/
structure PredWait where
  call  : CallFields
  index : Nat
deriving DecidableEq, Repr

/-- Sequencer registers and state (R139, R140, R154). `seen` counts, for each routine, how far its offsets have issued in the
frame (R554). -/
structure Seq where
  pc        : Nat
  routine   : Option Nat
  hbase     : Nat
  tbase     : Nat
  stack     : List CallFrame
  group     : Option Group
  groups    : Nat
  qfull     : BitVec 6
  interlock : Bool
  predStall : Bool
  pred      : Option PredWait
  wait      : Option WaitRec
  tickWait  : Bool
  cutStop   : Bool
  halted    : Bool
  frame     : W64
  cnt       : Vector W32 8
  cmp       : Vector Bool 4
  cmpOpen   : Vector Bool 4
  tileFmt   : Vector Nat 32
  nextKey   : Nat
  seen      : List (Nat × Nat)
deriving DecidableEq, Repr

/-- The sequencer at reset (R154). -/
def Seq.reset : Seq where
  pc := 0
  routine := none
  hbase := 0
  tbase := 0
  stack := []
  group := none
  groups := 0
  qfull := 0
  interlock := false
  predStall := false
  pred := none
  wait := none
  tickWait := false
  cutStop := false
  halted := false
  frame := 0
  cnt := Vector.replicate 8 0
  cmp := Vector.replicate 4 false
  cmpOpen := Vector.replicate 4 false
  tileFmt := Vector.replicate 32 0xFF
  nextKey := 0
  seen := []

/-- One meter slot of the current frame (R71). -/
structure MeterSlot where
  ctl    : Option MeterCtl
  amax   : Nat
  seen   : Bool
  nonfin : Bool
deriving DecidableEq, Repr

/-- A closed meter register MTRn (R75). -/
structure MeterReg where
  amax      : W32
  seen      : Bool
  nonfin    : Bool
  clamped   : Bool
  published : Bool
  propK     : BitVec 9
deriving DecidableEq, Repr

/-- The completion ring (R149 to R155). -/
structure CompRing where
  base    : Nat
  entries : Nat
  virt    : Bool
  domain  : Nat
  wr      : W16
  rd      : W16
  lost    : W16
deriving DecidableEq, Repr

/-- One entry of the timed schedule of an armed program (R367). `peerSlice` is PEER_KIND. -/
structure TimedStream where
  id        : Nat
  inbound   : Bool
  peerSlice : Bool
  peer      : Nat
  tolerant  : Bool
  start     : Nat
  count     : Nat
  interval  : Nat
  window    : Nat
  winBytes  : Nat
deriving DecidableEq, Repr

/-- A beat waiting in the skid (R371). -/
structure SkidBeat where
  stream : Nat
  index  : Nat
  due    : Nat
  data   : List Byte
deriving DecidableEq, Repr

/-- A beat on its way from slice `src` (R366). -/
structure FlyBeat where
  stream : Nat
  index  : Nat
  src    : Nat
  data   : List Byte
deriving DecidableEq, Repr

/-- The timed-stream state of a slice (R365, R369): the beats on their way to it from other slices; per stream, the beats
handled in the frame; the skid; the streams whose first absorbed slip of the frame is recorded (R371); the SLICE_STREAM
counters. -/
structure Timed where
  fly       : List FlyBeat
  done      : List (Nat × Nat)
  skid      : List SkidBeat
  noted     : List Nat
  tolerated : W16
  dropped   : W16
  slipFault : Bool
deriving DecidableEq, Repr

/-- What the image of a bank says (R110): what the slice keeps of it after a load. `handles` are those that it or its routines
use; `batched` says that it holds a batched ATTN (R258). -/
structure Program where
  length    : Nat
  handles   : List Nat
  alias_    : List (Nat × Nat)
  brackets  : List (Nat × W64)
  routines  : List Nat
  streams   : List TimedStream
  minTick   : Nat
  mhz       : Nat
  libBase   : Nat
  libBytes  : Nat
  cring     : CompRing
  formats   : Nat
  features  : Nat
  batched   : Bool
  image     : List Byte
deriving DecidableEq, Repr

/-- The cut of a slice (R553, R555): `frame` is the armed frame; `next` says that it is the first one to start. -/
structure Cut where
  index   : Nat
  enable  : Bool
  routine : Option Nat
  reached : Bool
  frame   : W64
  next    : Bool
deriving DecidableEq, Repr

/-- Performance and fetch counters at offsets 0x30 to 0x78 (R559). -/
structure Perf where
  cycles         : W64
  issued         : W64
  fetched        : W64
  discarded      : W64
  stallQfull     : W32
  stallInterlock : W32
  stallPred      : W32
  stallWait      : W32
  vecBusy        : W32
  moveBusy       : W32
  gsBusy         : W32
  attnBusy       : W32
  bankWait       : W32
  tlbMiss        : W32
  tickwait       : W32
  storeCe        : W16
  callsTaken     : W16
deriving DecidableEq, Repr

/-- All counters 0 (R559). -/
def Perf.zero : Perf := ⟨0, 0, 0, 0, 0, 0, 0, 0, 0, 0, 0, 0, 0, 0, 0, 0, 0⟩

/-- Why a slice drains, and what it becomes when its last unit stops (R468). -/
structure Drain where
  cause  : Nat
  target : SliceState
  fault  : Nat
deriving DecidableEq, Repr

/-- A completion record of a ring in external memory (R150): its bytes, the DATA of the entry that its loss writes, and the bytes that it
replaced where its write is not answered yet. -/
structure RecOut where
  bytes : List Byte
  data  : List Byte
  undo  : List BitWrite
deriving DecidableEq, Repr

/-- One slice. `patched` and `pwrites` name the inactive registers that the host and the program have written in the frame
(R74, R475), `progNs` and `hostNs` the time base at each one's latest such write of the frame (R137); `overexp` marks an aborted
frame that has not been followed by another (R362); `overNs` and `faultNs` are the nanoseconds of its latest overexposure under
ABORT and of its latest fault (R364); `nextCache` holds the routines of the program that a SWITCH brings in (R142, R475). -/
structure Slice where
  state      : SliceState
  armed      : Bool
  loaded     : Bool
  switchReq  : Bool
  retired    : Bool
  cause      : Nat
  epoch      : Nat
  fault      : Nat
  bank       : Bool
  imem       : Mem
  desc       : Mem
  prog0      : Option Program
  prog1      : Option Program
  bracket    : Bool
  brk0       : Vector W64 64
  brk1       : Vector W64 64
  sticky     : List (Nat × W64)
  patched    : List Nat
  pwrites    : List Nat
  progNs     : List (Nat × Nat)
  hostNs     : List (Nat × Nat)
  seq        : Seq
  store      : Mem
  tiles      : Mem
  flight     : List Entry
  slots      : Vector MeterSlot 8
  mtr        : Vector MeterReg 8
  cring      : CompRing
  timed      : Timed
  libcache   : List (Nat × List Byte)
  nextCache  : List (Nat × List Byte)
  drain      : Option Drain
  startInc   : Bool
  startAt    : Option Nat
  held       : Bool
  heldNs     : Nat
  heldTicks  : W16
  overexp    : Bool
  overNs     : Option Nat
  faultNs    : Option Nat
  overexps   : W16
  skipped    : W16
  perf       : Perf
  cut        : Cut
  arrayGated : Bool
  soft       : List SoftErr
  recOut     : List RecOut
  micro      : List TlbEntry
deriving DecidableEq, Repr

/-- A slice at reset: COLD, everything else clear (R467, R470, R414). -/
def Slice.reset : Slice where
  state := .cold
  armed := false
  loaded := false
  switchReq := false
  retired := false
  cause := 0
  epoch := 0
  fault := 0
  bank := false
  imem := []
  desc := []
  prog0 := none
  prog1 := none
  bracket := false
  brk0 := Vector.replicate 64 0
  brk1 := Vector.replicate 64 0
  sticky := []
  patched := []
  pwrites := []
  progNs := []
  hostNs := []
  seq := Seq.reset
  store := []
  tiles := []
  flight := []
  slots := Vector.replicate 8 ⟨none, 0, false, false⟩
  mtr := Vector.replicate 8 ⟨0, false, false, false, false, 0⟩
  cring := ⟨0, 16, false, 0, 0, 0, 0⟩
  timed := ⟨[], [], [], [], 0, 0, false⟩
  libcache := []
  nextCache := []
  drain := none
  startInc := false
  startAt := none
  held := false
  heldNs := 0
  heldTicks := 0
  overexp := false
  overNs := none
  faultNs := none
  overexps := 0
  skipped := 0
  perf := Perf.zero
  cut := ⟨0, false, none, false, 0, false⟩
  arrayGated := true
  soft := []
  recOut := []
  micro := []

end Sys2Proof.Machine
end

