-- ==== Sys2Proof/Machine/State.lean ====
section
/-! DEFINITION. The state of the block, its state after reset, and the reasons a step can stop. -/

namespace Sys2Proof.Machine

/-- The whole block: every register, store, queue, counter, mode and pin that the specification gives it. `emul` is the
emulsion by physical address (R214, R328), `ext` the host's external memory; `free` counts the free values drawn;
`pending` is the queue of commands, first in first out. -/
structure State where
  chip     : Chip
  pins     : Pins
  tb       : TimeBase
  tick     : Tick
  start    : StartUp
  node     : Node
  irq      : Irq
  ports    : Ports
  mbox     : Vector Chan 16
  settings : List (Nat × W64)
  stored   : List (Nat × W64)
  fw       : Firmware
  ss       : Store
  scrub    : Scrub
  xl       : Xl
  sec      : Sec
  ectl     : EmulCtl
  power    : Power
  sheet    : Sheet
  semu     : SemUnit
  kv       : Kv
  reel     : Reel
  slices   : Vector Slice 32
  emul     : Mem
  ext      : Mem
  free     : Nat
  pending  : List Instr
deriving DecidableEq, Repr

/-- Why the machine would stop with a fault. -/
inductive Fault where
  /-- Raised by no command: every condition that the specification calls a fault is state of the block (R540). Safe. -/
  | notRaised
deriving DecidableEq, Repr

/-- Why a command has no meaning. -/
inductive Refusal where
  /-- Raised by an arm of exec whose command has no meaning yet. Safe. -/
  | notModelled (mnemonic : String)
deriving DecidableEq, Repr

/-! ### Reset -/

/-- What manufacture and straps fix, in the block that is modelled. DESIGN CHOICE, safe: the specification gives three
configurations and leaves these values to manufacture and board (log 1). -/
def Chip.reset : Chip := ⟨.v32, 1, 0, 0xE4, false, 0, 0, 0⟩

/-- RESET_N released, no warning, the wrapper in bypass (R405, R419). -/
def Pins.reset : Pins := ⟨false, false, 0, false⟩

/-- The time base does not run before the PLL locks (R350, R355). -/
def TimeBase.reset : TimeBase := ⟨0, false, 0, 0, none, 0, 0, 0, false, 0⟩

/-- The block tick (R355). -/
def Tick.reset : Tick := ⟨false, false, 0, none, 0, 0, 0, 0, 0, 0, 0⟩

/-- Start-up at the release of RESET_N (R411, R417): the straps' order chosen, no step performed. -/
def StartUp.reset : StartUp := ⟨.steps, 0xE4, 0, false, false, 0, false, false, 0, [], 0⟩

/-- The block is unaddressed (R407). -/
def Node.reset : Node := ⟨0, false, false⟩

/-- No interrupt (R417). -/
def Irq.reset : Irq := ⟨0, 0⟩

/-- A SPORT that is down (R391). -/
def Sport.reset : Sport := ⟨0, 0, 0, 0, [], none⟩

/-- No handshake (R394). -/
def Dvfs.reset : Dvfs := ⟨false, 0, none, 0, none, false, false⟩

/-- Every port down (R412, R417). -/
def Ports.reset : Ports := ⟨0, 0, 0, 0, 0, 0, 0, Vector.replicate 16 Sport.reset, [], [], Dvfs.reset, none⟩

/-- Empty rings and staging registers (R424, R428). -/
def Chan.reset : Chan := ⟨Vector.replicate 8 0, [], 0, 0, 0, 0, [], [], 0, none⟩

/-- A block as shipped (R439): factory firmware in slot A, COMMITTED, slot B empty, no library. Firmware does not run
before its boot (R414). `rrLast` 15 serves channel 0 first. DESIGN CHOICE, unsafe (log 9). -/
def Firmware.reset : Firmware :=
  ⟨false, .committed, 0, ⟨0, [], true, true⟩, ⟨0, [], false, false⟩, ⟨1, 1, .committed, 1, 30, 0⟩, none, none, 0, 0, [],
    [], 15, []⟩

/-- No sector worn (R500). -/
def Store.reset : Store := ⟨16, false, 0, 0, 0, [], 0, []⟩

/-- No pass run (R500). -/
def Scrub.reset : Scrub := ⟨0, 0, 0, 0, 0, 0, false, false, 0, none, [], []⟩

/-- Every domain entry invalid, every cache empty (R222, R227, R534, R538). -/
def Xl.reset : Xl := ⟨⟨[], [], [], 0⟩, 0, [], 0, 0, 0, 0, 0, 0, 0, 0, 0, 0, 0, none⟩

/-- The security unit (R538). -/
def Sec.reset : Sec := ⟨0, false, 0, 0, false, 0, Vector.replicate 12 0, 0, false, 0, 0, 0, 0, false⟩

/-- A column before training (R346, R347). -/
def Column.reset : Column := ⟨.absent, 0, false, Vector.replicate 4 0, [], 0, 0, 0, 0, [], [], none, none, 0, none⟩

/-- The emulsion controller (R346). -/
def EmulCtl.reset : EmulCtl := ⟨Vector.replicate 32 Column.reset, false, false, false, 0, 0, 0, 0, 0, 0, 0, []⟩

/-- The thermal model of a quadrant at its defaults (R514, R524). -/
def Quad.reset : Quad := ⟨400, 430, 20000, 10, 0, 0, none, 0, 0, 4⟩

/-- OP0 at 500 mV under the peak cap (R524). -/
def Power.reset : Power :=
  ⟨0, 0, 0, false, false, false, 0, 500, 540, 0, 100, 0, 0, 0, 0, 0, 0, 0, false, 0, 0, 0, 0, 0, [], [], 0, [],
    Vector.replicate 4 Quad.reset, 0, 4, none, none, none⟩

/-- An empty contact sheet (R383). -/
def Sheet.reset : Sheet := ⟨[], 0, 0, false, false, 0, 0, 0, 0, false, 0, []⟩

/-- Every semaphore free (R552). -/
def SemUnit.reset : SemUnit := ⟨Vector.replicate 256 Sem.reset, 0, 0, 0⟩

/-- The block right after RESET_N is released, before Tamosh firmware runs (R12, R407, R411, R414, R418). -/
def State.reset : State where
  chip := Chip.reset
  pins := Pins.reset
  tb := TimeBase.reset
  tick := Tick.reset
  start := StartUp.reset
  node := Node.reset
  irq := Irq.reset
  ports := Ports.reset
  mbox := Vector.replicate 16 Chan.reset
  settings := settingDefaults .v32
  stored := []
  fw := Firmware.reset
  ss := Store.reset
  scrub := Scrub.reset
  xl := Xl.reset
  sec := Sec.reset
  ectl := EmulCtl.reset
  power := Power.reset
  sheet := Sheet.reset
  semu := SemUnit.reset
  kv := Kv.reset
  reel := Reel.reset
  slices := Vector.replicate 32 Slice.reset
  emul := []
  ext := []
  free := 0
  pending := []

end Sys2Proof.Machine
end

