-- ==== Sys2Proof/Machine/Ops.lean ====
section
/-! DEFINITION. The named operations over the state that every family of commands uses: slices, free values, the contact
sheet, interrupts, semaphores, completion records, and raising a fault. -/

namespace Sys2Proof.Machine

/-! ### Reading and replacing parts -/

/-- The time base as a number of nanoseconds (R350). -/
def State.now (s : State) : Nat := s.tb.now.toNat

/-- Slice `k`. -/
def State.sl (s : State) (k : Nat) : Slice := (s.slices[k]?).getD Slice.reset

/-- Replace slice `k`. -/
def State.setSl (s : State) (k : Nat) (x : Slice) : State := { s with slices := s.slices.setIfInBounds k x }

/-- Change slice `k`. -/
def State.mod (s : State) (k : Nat) (f : Slice → Slice) : State := s.setSl k (f (s.sl k))

/-- Change the sequencer of slice `k`. -/
def State.modSeq (s : State) (k : Nat) (f : Seq → Seq) : State := s.mod k fun x => { x with seq := f x.seq }

/-- Mailbox channel `c`. -/
def State.chan (s : State) (c : Nat) : Chan := (s.mbox[c]?).getD Chan.reset

/-- Change mailbox channel `c`. -/
def State.modChan (s : State) (c : Nat) (f : Chan → Chan) : State :=
  { s with mbox := s.mbox.setIfInBounds c (f (s.chan c)) }

/-- SPORT `p`. -/
def State.sport (s : State) (p : Nat) : Sport := (s.ports.sports[p]?).getD Sport.reset

/-- Change SPORT `p`. -/
def State.modSport (s : State) (p : Nat) (f : Sport → Sport) : State :=
  { s with ports := { s.ports with sports := s.ports.sports.setIfInBounds p (f (s.sport p)) } }

/-- Column `c` of the emulsion. -/
def State.col (s : State) (c : Nat) : Column := (s.ectl.cols[c]?).getD Column.reset

/-- Change column `c` of the emulsion. -/
def State.modCol (s : State) (c : Nat) (f : Column → Column) : State :=
  { s with ectl := { s.ectl with cols := s.ectl.cols.setIfInBounds c (f (s.col c)) } }

/-- Semaphore `n`. -/
def State.sem (s : State) (n : Nat) : Sem := (s.semu.sems[n]?).getD Sem.reset

/-- Change semaphore `n`. -/
def State.modSem (s : State) (n : Nat) (f : Sem → Sem) : State :=
  { s with semu := { s.semu with sems := s.semu.sems.setIfInBounds n (f (s.sem n)) } }

/-- The value in force of a setting (R458). -/
def State.setting (s : State) (id : Nat) : Nat := ((s.settings.find? (fun p => p.1 == id)).map (·.2.toNat)).getD 0

/-- The value in force of a signed setting. -/
def State.settingInt (s : State) (id : Nat) : Int := ((s.settings.find? (fun p => p.1 == id)).map (·.2.toInt)).getD 0

/-- The slices present (R40). -/
def State.present (s : State) : List Nat := List.range s.chip.model.slices

/-- Slices present whose state satisfies a test. -/
def State.slicesIn (s : State) (p : SliceState → Bool) : List Nat := s.present.filter fun k => p (s.sl k).state

/-- The emulsion columns that serve accesses: LIVE, SPARING, and RETIRING until it ends (R341, R343, R347). -/
def State.columns (s : State) : List Nat :=
  (List.range 32).filter fun c => (s.col c).state = .live ∨ (s.col c).state = .sparing ∨ (s.col c).state = .retiring

/-- The emulsion columns in HALT, whose accesses wait (R338). -/
def State.haltColumns (s : State) : List Nat := (List.range 32).filter fun c => (s.col c).thermal == 3

/-- The clock of a slice is stopped by its quadrant's halt (R515). -/
def State.clockStopped (s : State) (k : Nat) : Bool := s.power.qhalt.getLsbD (k / 8)

/-- SLICE_AVAIL (R38, R40, R484). -/
def State.avail (s : State) : W32 :=
  s.present.foldl (fun w k => if (s.sl k).retired || s.chip.mfgRetired.getLsbD k then w else w ||| (1#32 <<< k)) 0

/-- Whether a slice is available (R38). -/
def State.isAvail (s : State) (k : Nat) : Bool := s.avail.getLsbD k

/-- Draw a free value: what the specification leaves open. DESIGN CHOICE, safe (log 3). -/
def State.draw (s : State) : Nat × State := ((Config.freeValue s.free).toNat, { s with free := s.free + 1 })

/-- A command has its effect while RESET_N is high and no test instruction has stopped functional operation
(R401, R418, R419). -/
def State.live (s : State) : Bool := !s.pins.resetLow && !s.pins.testStopped

/-- The effect of a command where the block is live; the queue and what manufacture fixed are no command's to change. -/
def State.commit (s t : State) : State := if s.live then { t with pending := s.pending, chip := s.chip } else s

/-- The answer of a command whose effect makes `t` of `s`. -/
def act (s t : State) : Host.Outcome State Fault Refusal := .next (s.commit t)

/-- A 16-bit counter that stops at 0xFFFF. -/
def sat16 (w : W16) (n : Nat) : W16 := BitVec.ofNat 16 (satAdd 0xFFFF w.toNat n)

/-- A 32-bit counter that stops at 0xFFFFFFFF. -/
def sat32 (w : W32) (n : Nat) : W32 := BitVec.ofNat 32 (satAdd 0xFFFFFFFF w.toNat n)

/-- Bits of a mask as the list of the indices set. -/
def maskBits (n : Nat) (w : Nat) : List Nat := (List.range n).filter fun i => w.testBit i

/-- A mask from a list of indices. -/
def maskOf (l : List Nat) : W32 := l.foldl (fun w k => w ||| (1#32 <<< k)) 0

/-! ### Configuration frames -/

/-- Frames written whole again are no longer marked (R499). -/
def State.cleanFrames (s : State) (k lo n : Nat) : State :=
  let keep (p : Nat × Nat) : Bool := p.1 != k || decide (p.2 < lo ∨ lo + n ≤ p.2)
  { s with scrub := { s.scrub with bad := s.scrub.bad.filter keep, due := s.scrub.due.filter keep } }

/-- The frame of register P`p` of a bracket bank (R496, R557). -/
def bracketFrame (bank : Bool) (p : Nat) : Nat := 3072 + (if bank then 2 else 0) + p / 32

/-- A write of a register of the inactive bracket makes its frame whole (R499). -/
def State.cleanInactive (s : State) (k p : Nat) : State := s.cleanFrames k (bracketFrame (!(s.sl k).bracket) p) 1

/-- Note the time of a write of a register. -/
def noteWrite (p now : Nat) (l : List (Nat × Nat)) : List (Nat × Nat) := (p, now) :: l.filter fun e => e.1 != p

/-- A register was written by the other writer so lately that both writes can fall in one core cycle, which is about a nanosecond
(R8). -/
def justWritten (p now : Nat) (l : List (Nat × Nat)) : Bool := l.any fun e => e.1 == p && decide (now ≤ e.2 + 1)

/-! ### Interrupts and the contact sheet -/

/-- Set an interrupt source (R406). -/
def State.irqSet (s : State) (i : Nat) : State := { s with irq := { s.irq with status := s.irq.status ||| (1#9 <<< i) } }

/-- The level of the pin IRQ[n]: high while a status bit whose ROUTE field enables it and names the line is set (R406). -/
def State.irqLine (s : State) (n : Nat) : Bool :=
  (List.range 9).any fun i => s.irq.status.getLsbD i && decide (s.irq.route.toNat / 8 ^ i % 8 = 4 + n)

/-- The capacity of the contact sheet (R377). -/
def Sheet.capacity (c : Sheet) : Nat := if c.spillOn then 2 ^ c.log2.toNat else 32768

/-- The occupancy of the contact sheet (R377). -/
def Sheet.occ (c : Sheet) : Nat := (c.wr - c.rd).toNat

/-- The next SUBSEQ of a source at a time, and the keys after it (R374). -/
def nextKey (keys : List (Nat × Nat × Nat)) (src t : Nat) : Nat × List (Nat × Nat × Nat) :=
  let sub := match keys.find? (fun k => k.1 == src) with
    | some (_, t', n) => if t' = t then n + 1 else 0
    | none => 0
  (sub, (src, t, sub) :: keys.filter (fun k => k.1 != src))

/-- The 32 bytes of an entry (R378). -/
def entryBytes (t src sub kind code flags : Nat) (data : List Byte) : List Byte :=
  leBytes 8 t ++ leBytes 2 src ++ leBytes 1 sub ++ leBytes 1 kind ++ leBytes 2 code ++ leBytes 2 flags ++
    (data ++ List.replicate 16 0).take 16

/-- Write one contact-sheet entry, or count it lost (R377, R382, R543). -/
def State.log (s : State) (src kind code : Nat) (fault : Bool) (data : List Byte) (trace : Bool := false) : State :=
  let c := s.sheet
  let occ := c.occ
  if c.capacity ≤ occ ∨ (c.capacity ≤ occ + 1024 ∧ !fault) then
    let c' := { c with
      lost := sat16 c.lost 1, lostBefore := true,
      firstNs := if c.lost = 0 then BitVec.ofNat 48 s.now else c.firstNs }
    { s with sheet := c' }.irqSet 7
  else
    let q := nextKey c.keys src s.now
    let flags := (if fault then 1 else 0) + (if c.lostBefore then 2 else 0) + (if trace then 4 else 0)
    let e := entryBytes s.now src q.1 kind code flags data
    let ext := if c.spillOn then s.ext.writeN (c.base.toNat * 4096 + c.wr.toNat % 2 ^ c.log2.toNat * 32) e else s.ext
    let ring := c.ring ++ [e]
    let c' := { c with ring := ring.drop (ring.length - 32768), wr := c.wr + 1, lostBefore := false, keys := q.2 }
    let s := { s with sheet := c', ext := ext }
    let s := if fault then s.irqSet 1 else s
    if occ + 1 + 1024 = c.capacity then s.irqSet 7 else s

/-- The DATA layout of R546. -/
def objData (obj sub v0 v1 : Nat) : List Byte := leBytes 2 obj ++ leBytes 2 sub ++ leBytes 4 v0 ++ leBytes 8 v1

/-- The DATA layout of a FAULT entry (R543). -/
def faultData (index : Nat) (routine : Option Nat) (op operand arg : Nat) : List Byte :=
  leBytes 2 index ++ leBytes 2 (routine.getD 0xFFFF) ++ leBytes 1 op ++ leBytes 1 operand ++ leBytes 2 0 ++ leBytes 8 arg

/-- The DATA layout of a TICK entry (R380). -/
def tickData (frame event pc edge : Nat) : List Byte :=
  leBytes 4 frame ++ leBytes 1 event ++ leBytes 1 0 ++ leBytes 2 pc ++ leBytes 8 edge

/-- The DATA layout of INSTR entries 1 and 4 (R545). -/
def instrData (index : Nat) (routine : Option Nat) (op status hw frame : Nat) : List Byte :=
  leBytes 2 index ++ leBytes 2 (routine.getD 0xFFFF) ++ leBytes 1 op ++ leBytes 1 status ++ leBytes 2 0 ++ leBytes 4 hw ++
    leBytes 4 frame

/-! ### Slice states -/

/-- Change a slice's state, with its SERVICE entry (R468, R546). -/
def State.toState (s : State) (k : Nat) (st : SliceState) : State :=
  let x := s.sl k
  (s.setSl k { x with state := st }).log k 14 1 false (objData k (st.code + x.state.code * 16) x.cause 0)

/-- Write a SLICE_AVAIL change (R38, R546). -/
def State.logAvail (s : State) (k : Nat) : State := s.log 0x0100 14 2 false (objData k 0 0 s.avail.toNat)

/-! ### Translation faults (R225, R227, R536) -/

/-- Count a translation fault and keep it as the latest (R225, R227); the protection reasons also count as violations
(R536). `slice` is the slice that raised it. -/
def State.noteTransFault (s : State) (slice : Nat) (f : AccessFault) : State :=
  let info := f.domain + f.reason * 2 ^ 12 + f.access.code * 2 ^ 16 + slice * 2 ^ 18 + 2 ^ 23
  let s := { s with xl := { s.xl with
    faults := sat32 s.xl.faults 1, lastVa := BitVec.ofNat 64 (f.va % 2 ^ 56), lastInfo := BitVec.ofNat 64 info } }
  if f.reason = 2 ∨ f.reason = 3 ∨ f.reason = 4 ∨ f.reason = 5 then
    let s := { s with sec := { s.sec with
      violCount := sat32 s.sec.violCount 1, lastDomain := BitVec.ofNat 12 f.domain } }
    s.log 0x0108 15 3 false (objData f.domain 0 f.reason f.va)
  else s

/-! ### Sizes and places of pages (R272, R273, R279) -/

/-- Element bytes of a page of a stream (R273). -/
def KvPool.pe (p : KvPool) : Nat := 2 * p.width * fmtBits p.fmt
/-- Scale bytes of a page of a stream (R273). -/
def KvPool.ps (p : KvPool) : Nat := if fmtMx p.fmt then p.width / 2 else 0
/-- Pages of a frame group (R279). -/
def KvPool.z (p : KvPool) : Nat := if fmtMx p.fmt then max 1 (1024 / p.ps) else 1
/-- Bytes of a frame group (R279). -/
def KvPool.groupBytes (p : KvPool) : Nat := p.streams * p.z * (p.pe + p.ps)
/-- Groups of a pool in one column, or in its external range (R279). -/
def KvPool.perPlace (p : KvPool) : Nat := (if p.emul then p.share * 2 ^ 20 else p.size) / p.groupBytes
/-- Bytes of a tray slot (R282). -/
def KvPool.slot (p : KvPool) : Nat := ceilDiv (p.streams * (p.pe + p.ps)) 128 * 128

/-- The largest power of two, at most 64 KiB, that divides a number: as its logarithm (R274). -/
def granuleLog (n : Nat) : Nat := ((List.range 17).filter fun i => n % 2 ^ i = 0).foldl max 0

/-- Pool `n`. -/
def Kv.pool (v : Kv) (n : Nat) : Option KvPool := v.pools.find? (fun p => p.num == n)

/-- Context `n`. -/
def Kv.ctx (v : Kv) (n : Nat) : Option KvCtx := v.ctxs.find? (fun c => c.num == n)

/-- The physical address of the element frame of page `i` of a group's stream (R214, R279). -/
def KvPool.elemPa (p : KvPool) (column num stream i : Nat) : Nat :=
  let start := if p.emul then column * 2 ^ 31 + ((p.places.find? (·.1 == column)).map (·.2)).getD 0 else p.base
  start + ((num * p.streams + stream) * p.z + i) * p.pe

/-- The physical address of the scale bytes of page `i` of a group's stream (R279). -/
def KvPool.scalePa (p : KvPool) (column num stream i : Nat) : Nat :=
  let start := if p.emul then column * 2 ^ 31 + ((p.places.find? (·.1 == column)).map (·.2)).getD 0 else p.base
  start + p.perPlace * p.streams * p.z * p.pe + ((num * p.streams + stream) * p.z + i) * p.ps

/-- Where the region of a layer of a context starts in the window (R272). -/
def State.layerBase (s : State) (ctx layer : Nat) : Nat := s.setting 0x0201 + ctx * 2 ^ 36 + layer * 2 ^ 30

/-! ### The working state of a run -/

/-- The working state of an instruction of slice `k`, over the memories as they are. -/
def State.mkRun (s : State) (k total : Nat) (double inGroup : Bool) : Run where
  env := ⟨k, 25165824, s.columns, [], s.ectl.poisoned, [], double, inGroup, total⟩
  store := (s.sl k).store
  tiles := (s.sl k).tiles
  emul := s.emul
  ext := s.ext
  hub := s.xl.hub
  micro := (s.sl k).micro
  misses := 0
  unit := 0
  cnt := Counts.zero
  undo := []
  snaps := []
  feeds := []
  fault := none
  cmpVal := none
  status := 0
  extra := []
  buf := []
  rmws := []
  exts := []
  kvErrs := []
  fades := []
  free := s.free

/-- A run whose accesses of columns in HALT wait: it stops with code 0 (R338). -/
def State.waitingRun (s : State) (r : Run) : Run := { r with env := { r.env with halts := s.haltColumns } }

/-- A run met a column in HALT: what it does has to wait (R338). -/
def Run.waits (r : Run) : Bool := match r.fault with | some f => f.code == 0 | none => false

/-- The state with what a run did to the memories, the translation caches and the counters (R222, R227, R559). -/
def State.putRun (s : State) (k : Nat) (r : Run) : State :=
  let walked := r.hub.walks - s.xl.hub.walks
  let s := { s with
    emul := r.emul, ext := r.ext, free := r.free,
    xl := { s.xl with hub := r.hub, walks := BitVec.ofNat 48 (satAdd (2 ^ 48 - 1) s.xl.walks.toNat walked) } }
  s.mod k fun x => { x with
    store := r.store, tiles := r.tiles, micro := r.micro,
    perf := { x.perf with tlbMiss := x.perf.tlbMiss + BitVec.ofNat 32 r.misses } }

/-! ### Completion records (R149 to R155) -/

/-- What a completion record says. -/
structure RecInfo where
  index   : Nat
  routine : Option Nat
  op      : Nat
  status  : Nat
  member  : Bool
  crec    : Nat
  frame   : Nat
  hw      : Nat
  total   : Nat
  fault   : Nat
  cnt     : Counts
  fogNs   : Nat
  ext     : List Byte
deriving DecidableEq, Repr

/-- The 48 bytes of a fog record (R96); `ns` is its TIMESTAMP. -/
def fogBytes (ns : Nat) (c : Counts) : List Byte :=
  match c.fog with
  | none => List.replicate 48 0
  | some e =>
    leBytes 8 ns ++ leBytes 1 e.kind ++ leBytes 1 e.ndim ++ leBytes 1 e.output ++ leBytes 1 0 ++ leBytes 4 c.nonfin ++
      ((List.range 6).flatMap fun i => leBytes 4 ((e.coords[i]?).getD 0)) ++ leBytes 8 (e.offset % 2 ^ 64).toNat

/-- The 128 bytes of a completion record (R151, R153). -/
def recordBytes (now : Nat) (r : RecInfo) : List Byte :=
  let ovf (n i : Nat) : Nat := if n = 0xFFFFFFFF then i else 0
  let flags := ovf r.cnt.sat 1 + ovf r.cnt.flush 2 + ovf r.cnt.inexact 4 + (if r.crec = 2 then 8 else 0) +
    (if r.routine.isSome then 16 else 0) + (if r.member then 32 else 0)
  leBytes 8 now ++ leBytes 2 r.index ++ leBytes 1 r.op ++ leBytes 1 r.status ++ leBytes 2 (r.routine.getD 0xFFFF) ++
    leBytes 2 flags ++ leBytes 4 r.cnt.sat ++ leBytes 4 r.cnt.flush ++ leBytes 4 r.cnt.inexact ++ leBytes 4 r.frame ++
    leBytes 4 r.hw ++ leBytes 4 r.total ++ leBytes 2 r.fault ++ leBytes 2 0 ++ leBytes 4 r.cnt.aux ++
    (if r.crec = 2 then fogBytes r.fogNs r.cnt else List.replicate 48 0) ++ (r.ext ++ List.replicate 32 0).take 32

/-- The DATA of the INSTR entry of a record (R545). -/
def RecInfo.entryData (r : RecInfo) : List Byte := instrData r.index r.routine r.op r.status r.hw r.frame

/-- A record that the ring does not take (R149, R150, R155). -/
def State.recordLost (s : State) (k : Nat) (data : List Byte) : State :=
  (s.mod k fun x => { x with cring := { x.cring with lost := sat16 x.cring.lost 1 } }).log k 2 4 false data

/-- Write bytes through a virtual address range, translated in a domain; none changed where the translation faults. -/
def writeVirtual (r : Run) (t : Tensor) (a : Int) : List Byte → Run
  | [] => r
  | b :: bs =>
    match locate r t a .write 0 0 with
    | (r, some (sp, x)) =>
      writeVirtual { r.poke sp x b with undo := ⟨0, [⟨sp, x, 0xFF, r.peek sp x⟩]⟩ :: r.undo } t (a + 1) bs
    | (r, none) => r

/-- A virtual range as a tensor without a window. -/
def plainTensor (virt : Bool) (domain : Nat) (base : Int) : Tensor :=
  ⟨0, virt, domain, 0, base, 0, .uint8, false, false, 0x3F800000, [], none, none, none, false, 0⟩

/-! ### Semaphores (R547 to R550) -/

/-- Write comparators of a slice: each is then resolved (R139). -/
def Slice.setCmp (x : Slice) (c : Nat) (v : Bool) : Slice :=
  { x with seq := { x.seq with
      cmp := x.seq.cmp.setIfInBounds c v, cmpOpen := x.seq.cmpOpen.setIfInBounds c false } }

/-- The end of a WAIT, which has issued: its comparators, and issue goes on (R144, R145). -/
def Slice.endWait (x : Slice) (w : WaitRec) (held aband : Bool) : Slice :=
  let x := { x with seq := { x.seq with wait := none } }
  if w.fields.cmpEn then (x.setCmp w.fields.cmpHeld held).setCmp w.fields.cmpAband aband else x

/-- A slice takes a semaphore; the answer is whether it carried ABANDONED (R550). -/
def State.semTake (s : State) (n k : Nat) : Bool × State :=
  let m := s.sem n
  (m.abandoned, s.modSem n fun _ =>
    ⟨true, 1, BitVec.ofNat 12 k, false, m.abandoned, m.waiters.filter (· != k), m.acquires + 1⟩)

/-- Grant a free semaphore to the head of its queue (R548). -/
def State.semGrant (s : State) (n : Nat) : State :=
  match (s.sem n).waiters with
  | [] => s
  | k :: _ =>
    let q := s.semTake n k
    match (q.2.sl k).seq.wait with
    | some w => q.2.mod k fun x => x.endWait w true q.1
    | none => q.2

/-- Release a semaphore, with or without the ABANDONED flag, and grant it to the next waiter (R548, R550). -/
def State.semRelease (s : State) (n : Nat) (aband : Bool) : State :=
  let m := s.sem n
  let s := s.modSem n fun m => { m with held := false, kind := 0, owner := 0, acqAband := false, abandoned := aband || m.abandoned }
  let s := if aband then
      { s with semu := { s.semu with aband := sat16 s.semu.aband 1 } }.log 0x0109 14 4 false
        (objData n 0 (m.owner.toNat + m.kind.toNat * 2 ^ 12) 0)
    else s
  s.semGrant n

/-- The semaphores that a slice holds. -/
def State.heldBy (s : State) (k : Nat) : List Nat :=
  (List.range 256).filter fun n => (s.sem n).held && (s.sem n).kind == 1 && (s.sem n).owner.toNat == k

/-- Release every semaphore of a slice with ABANDONED (R474, R550). -/
def State.abandonAll (s : State) (k : Nat) : State := (s.heldBy k).foldl (fun s n => s.semRelease n true) s

/-- A slice leaves the queues of the semaphores it waits for (R548). -/
def State.semLeave (s : State) (k : Nat) : State :=
  { s with semu := { s.semu with sems := s.semu.sems.map fun m => { m with waiters := m.waiters.filter (· != k) } } }

end Sys2Proof.Machine
end

