-- ==== Sys2Proof/Machine/Bind.lean ====
section
/-! DEFINITION. Operands at issue: the descriptor table, bindings to the active bracket, the checks made on them
(R114 to R122, R141, R542). -/

namespace Sys2Proof.Machine

/-- A failed check at issue: the fault code, its ARG, and the operand it concerns (R541, R542). -/
structure IssueFault where
  code    : Nat
  arg     : Nat
  operand : Nat
deriving DecidableEq, Repr

/-- Register P`n` of the active bracket (R136). -/
def Slice.param (x : Slice) (n : Nat) : W64 := ((if x.bracket then x.brk1 else x.brk0)[n]?).getD 0

/-- Register P`n` of the inactive bracket. -/
def Slice.paramIn (x : Slice) (n : Nat) : W64 := ((if x.bracket then x.brk0 else x.brk1)[n]?).getD 0

/-- Write register P`n` of the inactive bracket (R136). -/
def Slice.setParamIn (x : Slice) (n : Nat) (v : W64) : Slice :=
  if x.bracket then { x with brk0 := x.brk0.setIfInBounds n v } else { x with brk1 := x.brk1.setIfInBounds n v }

/-- A field of descriptor `h`, by byte offset and size (R117). -/
def Slice.descField (x : Slice) (h off n : Nat) : Nat := x.desc.readLe (h * 128 + off) n

/-- A tensor as bound, and the checks that failed: R121's dimension or 7, a base outside 56 bits (and whether it is the scale plane's), a
scale outside R59. -/
structure Bound where
  t     : Tensor
  bind  : Option Nat
  range : Option (Nat × Bool)
  scale : Option Nat
deriving DecidableEq, Repr

/-- The dimensions of a descriptor after binding, and the first whose bound extent is above its static extent (R121). -/
def bindDims (x : Slice) (h bindw : Nat) : Nat → Nat → List Dim × Option Nat
  | 0, _ => ([], none)
  | n + 1, d =>
    let st := x.descField h (0x40 + 8 * d) 4
    let stride := (BitVec.ofNat 32 (x.descField h (0x44 + 8 * d) 4)).toInt
    let b := bits bindw (7 * d + 13) (7 * d + 7)
    let ext := if b / 64 = 1 then (x.param (b % 64)).toNat % 2 ^ 32 else st
    let rest := bindDims x h bindw n (d + 1)
    (⟨ext, stride⟩ :: rest.1, if st < ext then some d else rest.2)

/-- The static extent of a dimension of a descriptor. -/
def Slice.staticExtent (x : Slice) (h d : Nat) : Nat := x.descField h (0x40 + 8 * d) 4

/-- Bind descriptor `h` without its index tensor (R117 to R122). A meter takes the format of its own descriptor as the destination format
of R70 and R73, on the source of a load too. DESIGN CHOICE, unsafe (log 38). -/
def bindPlain (x : Slice) (h : Nat) : Bound :=
  let ctl := x.descField h 0x14 2
  let fmt := (fmtOfId (bits ctl 4 0)).getD .fp32
  let planar := bits ctl 5 5 == 1
  let virt := bits ctl 15 14 == 0
  let bindw := x.descField h 0x20 8
  let b := fmtBits fmt
  let pn : Int := if bits bindw 6 6 = 1 then (x.param (bits bindw 5 0)).toInt else 0
  let base : Int := x.descField h 0 8 + pn
  let sbase : Int := if fmtMx fmt then x.descField h 8 8 + pn * 8 / (32 * b) else 0
  let whole : Nat := if planar then b * 128 else if fmtMx fmt then 4 * b else 1
  let ds := bindDims x h bindw (x.descField h 0x19 1 % 8) 0
  let ts := if bits ctl 7 7 = 1 then (x.param (bits ctl 13 8)).toNat % 2 ^ 32 else x.descField h 0x10 4
  let m := x.descField h 0x1A 2
  let c := x.descField h 0x1E 2
  let bad (a : Int) : Bool := virt && decide (a < 0 ∨ 2 ^ 56 ≤ a)
  { t := ⟨h, virt, x.descField h 0x16 2 % 4096, x.descField h 0x18 1, base, sbase, fmt, planar, bits ctl 6 6 == 1, ts, ds.1,
      if bits m 0 0 = 1 then some ⟨bits m 3 1, bits m 6 4, bits m 7 7 == 1, bits m 13 8, fmt⟩ else none, none,
      if bits c 0 0 = 1 then some (x.descField h 0x28 8) else none, bits c 1 1 == 1, x.descField h 0x30 4⟩
    bind := if ds.2.isSome then ds.2 else if pn % whole ≠ 0 then some 7 else none
    range := if bad base then some ((base % 2 ^ 64).toNat, false)
      else if fmtMx fmt && bad sbase then some ((sbase % 2 ^ 64).toNat, true) else none
    scale := if fmt = .mask1 ∨ (0x00800000 ≤ ts ∧ ts ≤ 0x7E800000) then none else some ts }

/-- Bind descriptor `h` with its index tensor (R204). -/
def bindTensor (x : Slice) (h : Nat) : Bound × Option Bound :=
  let b := bindPlain x h
  let ix := x.descField h 0x1C 2
  if bits ix 11 11 = 1 then
    let i := bindPlain x (bits ix 10 0)
    ({ b with t := { b.t with idx := some ⟨bits ix 14 12, bits ix 10 0, i.t.base, i.t.fmt, i.t.dims, i.t.limit⟩ } }, some i)
  else (b, none)

/-- The base that a routine adds to handles and to tiles (R141). -/
def Slice.handle (x : Slice) (h : Nat) : Nat := x.seq.hbase + h

/-- An operand field: nothing, a tile register, or a handle (R114, R141). -/
def Slice.operand (x : Slice) (w : W12) : Operand × List (Bound × Option Bound) :=
  let n := w.toNat
  if n < 2048 then
    let b := bindTensor x (x.handle n)
    (.tensor b.1.t, [b])
  else if n < 2048 + 32 then (.tile (x.seq.tbase + (n - 2048)), [])
  else (.none, [])

/-- A handle next to the one that an operand field names (R245, R265, R309). -/
def Slice.nextOperand (x : Slice) (w : W12) (n : Nat) : Operand × List (Bound × Option Bound) :=
  if w.toNat < 2048 then
    let b := bindTensor x (x.handle (w.toNat + n))
    (.tensor b.1.t, [b])
  else (.none, [])

/-- The scalars of an element-wise instruction (R164), as codes of the compute format. A scalar of CFMT MASK1 is bit 0: R164 names the
bits of the other formats only. DESIGN CHOICE, unsafe (log 39). -/
def scalarsOf (x : Slice) (op imm : Nat) : Option Nat × Option Nat :=
  if 0x20 ≤ op ∧ op < 0x60 then
    let f := (fmtOfId (bits imm 55 51)).getD .fp32
    let cut (v : Nat) : Nat := v % 2 ^ fmtBits f
    match bits imm 36 35 with
    | 1 => (some (cut (imm % 2 ^ 32)), none)
    | 2 => (some (cut (x.param (imm % 64)).toNat), none)
    | 3 => (some (cut (x.param (imm % 64)).toNat), some (cut (x.param (bits imm 13 8)).toNat))
    | _ => (none, none)
  else (none, none)

/-- The operands of an instruction as bound at issue, with what each binding found, by OPERAND number (R226). -/
def bindAll (x : Slice) (op : Nat) (f : Fields) : Operands × List (Nat × (Bound × Option Bound)) :=
  let imm := f.imm.toNat
  let d := x.operand f.dst
  let a := x.operand f.srcA
  let b := x.operand f.srcB
  let c := x.operand f.srcC
  let p := if 0x20 ≤ op ∧ op < 0x90 then x.operand (BitVec.ofNat 12 (bits imm 50 39)) else (.none, [])
  let none' : Operand × List (Bound × Option Bound) := (.none, [])
  let more :=
    if op = 0x90 then [if f.func.getLsbD 0 then none' else x.nextOperand f.srcB 1]
    else if op = 0x93 then [x.nextOperand f.srcB 1, x.nextOperand f.srcA 1, x.nextOperand f.dst 1, x.nextOperand f.dst 2]
    else if op = 0xA0 then [if f.srcB = 0xFFF then none' else x.nextOperand f.dst 1]
    else []
  let sc := scalarsOf x op imm
  let tag (n : Nat) (l : Operand × List (Bound × Option Bound)) := l.2.map fun y => (n, y)
  let tags := if op = 0x93 then [2, 1, 0, 0] else if op = 0xA0 then [0] else [2]
  (⟨d.1, a.1, b.1, c.1, p.1, sc.1, sc.2, more.map (·.1)⟩,
   tag 0 d ++ tag 1 a ++ tag 2 b ++ tag 3 c ++ tag 4 p ++ (tags.zip more).flatMap fun y => tag y.1 y.2)

/-- The first failure among the bindings: DESC_BIND, then VA_RANGE, then SCALE_RANGE (R542). -/
def bindFault (l : List (Nat × (Bound × Option Bound))) : Option IssueFault :=
  let all : List (Nat × Bound) := l.flatMap fun y => (y.1, y.2.1) :: (match y.2.2 with | some i => [(5, i)] | none => [])
  match all.findSome? (fun y => y.2.bind.map fun d => (⟨0x0102, y.2.t.handle + d * 2 ^ 16, y.1⟩ : IssueFault)) with
  | some e => some e
  | none =>
    match all.findSome? (fun y => y.2.range.map fun v => (⟨0x020A, v.1, if v.2 then 0x80 + y.1 else y.1⟩ : IssueFault)) with
    | some e => some e
    | none => all.findSome? fun y => y.2.scale.map fun v => ⟨0x0101, v, y.1⟩

/-! ### Element counts -/

/-- The first descriptor of a list whose element count is not the one asked (R130, R163, R194). -/
def shapeFault (l : List (Nat × Operand × Nat)) : Option IssueFault :=
  l.findSome? fun y =>
    match y.2.1 with
    | .tensor t => if t.count = y.2.2 then none else some ⟨0x0104, t.handle, y.1⟩
    | _ => none

/-- Outside a group, a tile register of a list that is not asked for 4,096 elements disagrees with the first descriptor (R133, R163). -/
def tileFault (l : List (Nat × Operand × Nat)) : Option IssueFault :=
  if l.any fun y => match y.2.1 with | .tile _ => y.2.2 != 4096 | _ => false then
    l.findSome? fun y => match y.2.1 with | .tensor t => some ⟨0x0104, t.handle, y.1⟩ | _ => none
  else none

/-- An index tensor too short for its dimensions (R204, R205). -/
def indexFault (l : List (Nat × Operand)) : Option IssueFault :=
  l.findSome? fun y =>
    match y.2 with
    | .tensor t =>
      match t.idx with
      | some i =>
        if (i.dims.map (·.extent)).foldl (· * ·) 1 < ((t.dims.drop i.dim).map (·.extent)).foldl (· * ·) 1
        then some ⟨0x0104, i.handle, 5⟩ else none
      | none => none
    | _ => none

/-- The elements of an operand. -/
def Operand.n (o : Operand) : Nat := (o.count?).getD 4096

/-- The extent of a dimension of an operand, 1 beyond its dimensions. -/
def Operand.extent (o : Operand) (d : Nat) : Nat :=
  match o with
  | .tensor t => ((t.dims[d]?).map (·.extent)).getD 1
  | _ => 1

/-- The dimensions of an operand. -/
def Operand.ndim : Operand → Nat
  | .tensor t => t.dims.length
  | _ => 1

/-- Whether an operand's tensor has no element (R121). -/
def Operand.isEmpty : Operand → Bool
  | .tensor t => t.count == 0
  | _ => false

/-- Every operand of an instruction. -/
def Operands.all (os : Operands) : List Operand := [os.dst, os.a, os.b, os.c, os.pred] ++ os.more

end Sys2Proof.Machine
end

