-- ==== Sys2Proof/Machine/KvTables.lean ====
section
/-! DEFINITION. The free levels of page pools (R281, R299, R302), and the page tables of the KV window in memory (R272 to R275, R278,
R282, R563). -/

namespace Sys2Proof.Machine

/-! ### Layers -/

/-- Layer `l` of context `n`. -/
def State.layer (s : State) (n l : Nat) : Option KvLayer := (s.kv.ctx n).bind fun c => c.layers[l]?

/-- The pool whose shape a context has: the first of its chain (R280). -/
def State.ctxPool (s : State) (c : KvCtx) : Option KvPool := (c.chain.head?).bind s.kv.pool

/-! ### Free levels -/

/-- The places in which a pool can claim: its columns that serve, in ascending order, or its external range (R343). -/
def State.poolPlaces (s : State) (p : KvPool) : List Nat :=
  if p.emul then (maskBits 32 p.colmask).filter fun c => (s.col c).state = .live ∨ (s.col c).state = .sparing else [0xFF]

/-- The group numbers claimed in a place of a pool. -/
def Kv.taken (v : Kv) (p : KvPool) (place : Nat) : List Nat :=
  (v.groups.filter fun g => g.pool == p.num && g.column == place).map (·.num)

/-- The free level of a pool (R302). -/
def State.freeLevel (s : State) (p : KvPool) : Nat :=
  (s.poolPlaces p).foldl (fun n c => n + (p.perPlace - (s.kv.taken p c).length)) 0

/-- Change the counters of a pool. -/
def State.modStat (s : State) (n : Nat) (f : PoolStat → PoolStat) : State :=
  { s with kv := { s.kv with stats := s.kv.stats.setIfInBounds n (f ((s.kv.stats[n]?).getD ⟨0, 0, 0, 0⟩)) } }

/-- Every pool of a chain is below LOW (R299). -/
def State.pressed (s : State) (chain : List Nat) : Bool :=
  chain.all fun n => match s.kv.pool n with
    | some p => decide (s.freeLevel p < p.low)
    | none => true

/-- A pool of a chain has reached HIGH (R299). -/
def State.relieved (s : State) (chain : List Nat) : Bool :=
  chain.any fun n => match s.kv.pool n with
    | some p => decide (p.high ≤ s.freeLevel p)
    | none => false

/-- Trigger the victim policy for a chain (R299). -/
def State.trigger (s : State) (chain : List Nat) : State :=
  if s.kv.press.contains chain then s else { s with kv := { s.kv with press := s.kv.press ++ [chain] } }

/-- Chains whose pressure has ended leave (R299). -/
def State.dropPress (s : State) : State :=
  { s with kv := { s.kv with press := s.kv.press.filter fun c => !s.relieved c } }

/-- The crossings of a pool whose free level was `old`, and then LOW or more (`above`) or not (R302). -/
def State.crossings (s : State) (p : KvPool) (above : Bool) (old : Nat) : State :=
  let new := s.freeLevel p
  let s := if above ∧ new < p.low then
      ((s.modStat p.num fun c => { c with
          low := sat16 c.low 1, firstNs := if c.low = 0 then BitVec.ofNat 48 s.now else c.firstNs }).log 0x0101 6 1 false
        (objData p.num 0 new 0)).irqSet 2
    else s
  if 0 < old ∧ new = 0 then
    (s.modStat p.num fun c => { c with empty := sat16 c.empty 1 }).log 0x0101 6 2 false (objData p.num 0 0 0)
  else s

/-- What follows when free levels have changed since an earlier state: crossings, and the chains of open contexts that are under pressure
now (R299, R302). -/
def State.levelsFrom (s old : State) : State :=
  let s := s.kv.pools.foldl (fun (s : State) p =>
    match old.kv.pool p.num with
    | some q => s.crossings p (decide (q.low ≤ old.freeLevel q)) (old.freeLevel q)
    | none => s) s
  (s.kv.ctxs.map (·.chain)).foldl (fun s c => if s.pressed c then s.trigger c else s) s

/-! ### The areas of the reserve (R278, R563) -/

/-- The park area of a column (R278). -/
def parkBytes : Nat := 50331648
/-- The table area of a column (R278). -/
def tableBytes : Nat := 16777216

/-- The lowest aligned place of `size` bytes in an area of which `used` (start, bytes) are taken. The specification does not say where in
its area a slot or a table lies: DESIGN CHOICE, unsafe (log 20). -/
def firstFit (used : List (Nat × Nat)) (area align size : Nat) : Option Nat :=
  let ok := (0 :: used.map fun u => ceilDiv (u.1 + u.2) align * align).filter fun a =>
    decide (a + size ≤ area) && used.all fun u => decide (a + size ≤ u.1 ∨ u.1 + u.2 ≤ a)
  ok.foldl (fun m a => some (min a (m.getD a))) none

/-- Where a table starts. -/
def KvTable.pa (t : KvTable) : Nat := t.column * 2 ^ 31 + 0x6F000000 + t.off

/-- The bytes taken in the table area of a column. -/
def tablesIn (tabs : List KvTable) (col : Nat) : List (Nat × Nat) :=
  (tabs.filter fun t => t.column == col).map fun t => (t.off, t.size)

/-- Add a table in a column's table area, aligned to its size, and to the 1 KiB that an entry's PA can name (R217, R220); none where it
has no room. -/
def addTable (tabs : List KvTable) (col : Nat) (u : TabUse × Nat) : Option (List KvTable) :=
  (firstFit (tablesIn tabs col) tableBytes (max 1024 u.2) u.2).map fun a => tabs ++ [⟨u.1, col, a, u.2⟩]

/-- Add tables in a column. -/
def addTables (tabs : List KvTable) (col : Nat) (us : List (TabUse × Nat)) : Option (List KvTable) :=
  us.foldl (fun o u => o.bind fun t => addTable t col u) (some tabs)

/-- The table of a use. -/
def Kv.table (v : Kv) (u : TabUse) : Option KvTable := v.tabs.find? fun t => t.use == u

/-- The tables of a layer of a context: level 1, and a fine table for each 2 MiB of a stream's area that MAX_TOKENS reaches (R274,
R282). -/
def KvPool.layerTables (p : KvPool) (maxTokens n l : Nat) : List (TabUse × Nat) :=
  let pages := ceilDiv maxTokens 16
  (.layer n l, 4096) :: (List.range p.streams).flatMap fun st =>
    ((List.range (ceilDiv (pages * p.pe) 2097152)).map fun i => (.fine n l (st * 224 + i), 2 ^ (24 - granuleLog p.pe))) ++
      (List.range (ceilDiv (pages * p.ps) 2097152)).map fun i => (.fine n l (448 + st * 32 + i), 16384)

/-! ### Entries (R217, R274, R275) -/

/-- The entry that points to a table in the emulsion. -/
def tableEntry (pa : Nat) : Nat := 1 + pa * 4 + 2 ^ 54

/-- The FINE entry of a fine table with granules of 2^lg bytes. -/
def fineEntry (pa lg : Nat) : Nat := 5 + (lg - 10) * 2 ^ 8 + pa * 4 + 2 ^ 54

/-- A LEAF of the window. -/
def leafEntry (pa : Nat) (emul : Bool) : Nat := 0x33 + pa * 4 + (if emul then 2 ^ 54 else 0)

/-- A FADED entry of the window (R275). -/
def fadedEntry (cause : Nat) : Nat := 0x7 + cause * 2 ^ 56

/-- The group claimed last for page `page` of a layer. -/
def State.groupOf (s : State) (n l page : Nat) : Option (KvGroup × KvPool) :=
  s.kv.groups.reverse.findSome? fun g =>
    (s.kv.pool g.pool).bind fun p => if g.ctx = n ∧ g.layer = l ∧ g.index = page / p.z then some (g, p) else none

/-- The group in which a test of its frames holds, claimed last for a group of pages of a layer. -/
def State.groupWith (s : State) (n l index : Nat) (test : KvGroup → Bool) : Option (KvGroup × KvPool) :=
  s.kv.groups.reverse.findSome? fun g =>
    (s.kv.pool g.pool).bind fun p => if g.ctx = n ∧ g.layer = l ∧ g.index = index ∧ test g = true then some (g, p) else none

/-- The logarithm of the granule of a level-1 entry: of the element areas gE, of the scale areas 1 KiB (R272, R274). -/
def slotLog (p : KvPool) (slot : Nat) : Nat := if slot < 448 then granuleLog p.pe else 10

/-- The entry of the granule at an offset of a layer's element area (R274, R275, R287). -/
def State.elemWord (s : State) (p : KvPool) (n l st off : Nat) : Nat :=
  let page := off / p.pe
  let i := page % p.z
  match ((s.layer n l).map (·.faded)).bind fun f => f.find? (·.1 == page) with
  | some f => fadedEntry f.2
  | none =>
    match s.groupWith n l (page / p.z) fun g => g.frames[i]? == some .live with
    | some (g, q) => leafEntry (q.elemPa g.column g.num st i + off % p.pe) q.emul
    | none => 0

/-- The entry of the granule at an offset of a layer's scale area, shared by the pages of a group (R274, R276). -/
def State.scaleWord (s : State) (p : KvPool) (n l st off : Nat) : Nat :=
  let bytes := p.z * p.ps
  match s.groupWith n l (off / max 1 bytes) fun g => g.frames.contains .live with
  | some (g, q) => leafEntry (q.scalePa g.column g.num st 0 + off % max 1 bytes) q.emul
  | none => 0

/-- The word at an index of a table, by the manager's records. -/
def State.tableWord (s : State) (u : TabUse) (i : Nat) : Nat :=
  match u with
  | .group d g =>
    if (s.kv.ctx (g * 8 + i / 64)).any (·.domain == d) then
      ((s.kv.table (.layer (g * 8 + i / 64) (i % 64))).map fun t => tableEntry t.pa).getD 0
    else 0
  | .layer n l =>
    match s.kv.table (.fine n l i), (s.kv.ctx n).bind s.ctxPool with
    | some t, some p => fineEntry t.pa (slotLog p i)
    | _, _ => 0
  | .fine n l slot =>
    match (s.kv.ctx n).bind s.ctxPool with
    | none => 0
    | some p =>
      let off := i * 2 ^ slotLog p slot
      if slot < 448 then s.elemWord p n l (slot / 224) (slot % 224 * 2097152 + off)
      else s.scaleWord p n l ((slot - 448) / 32) (slot % 32 * 2097152 + off)

/-! ### Writing entries -/

/-- Write an entry in memory. -/
def State.putEntry (s : State) (emul : Bool) (pa e : Nat) : State :=
  if emul then { s with emul := s.emul.writeLe pa 8 e } else { s with ext := s.ext.writeLe pa 8 e }

/-- Write word `i` of a table from the records. -/
def State.putWord (s : State) (t : KvTable) (i : Nat) : State := s.putEntry true (t.pa + 8 * i) (s.tableWord t.use i)

/-- Write the entry of the granule of 2^lg bytes at an offset of a layer's region (R274). -/
def State.syncGranule (s : State) (n l off lg : Nat) : State :=
  match s.kv.table (.fine n l (off / 2097152)) with
  | some t => s.putWord t (off % 2097152 / 2 ^ lg)
  | none => s

/-- Write the element entries of a page, and with `scale` the entries of its group's scales (R292, R299). -/
def State.syncPage (s : State) (p : KvPool) (n l page : Nat) (scale : Bool) : State :=
  let lg := granuleLog p.pe
  let offs := (List.range p.streams).flatMap fun st =>
    (List.range (p.pe / 2 ^ lg)).map fun j => (st * 0x1C000000 + page * p.pe + j * 2 ^ lg, lg)
  let scales := if !scale then [] else (List.range p.streams).flatMap fun st =>
    (List.range (p.z * p.ps / 1024)).map fun j => (0x38000000 + st * 0x4000000 + page / p.z * (p.z * p.ps) + j * 1024, 10)
  (offs ++ scales).foldl (fun s o => s.syncGranule n l o.1 o.2) s

/-- The entry of a domain (R534). -/
def State.domainEntry (s : State) (id : Nat) : Domain :=
  (s.xl.hub.domains.find? fun d => d.id == id).getD ⟨id, false, 0, 0, false, false⟩

/-- Write the entry that points to a table (R274). -/
def State.linkTable (s : State) (t : KvTable) : State :=
  match t.use with
  | .group d g =>
    let e := s.domainEntry d
    s.putEntry (e.target == 1) (e.root + 8 * (s.setting 0x0201 / 2 ^ 39 + g)) (((s.kv.table t.use).map fun x => tableEntry x.pa).getD 0)
  | .layer n l =>
    match (s.kv.ctx n).bind fun c => s.kv.table (.group c.domain (n / 8)) with
    | some x => s.putWord x (n % 8 * 64 + l)
    | none => s
  | .fine n l slot =>
    match s.kv.table (.layer n l) with
    | some x => s.putWord x slot
    | none => s

/-- Zero bytes of the emulsion; a granule written whole is poisoned no longer (R332). -/
def State.zeroEmul (s : State) (pa n : Nat) : State :=
  { s with emul := s.emul.clear pa n
           ectl := { s.ectl with poisoned := s.ectl.poisoned.filter fun g => decide (g < pa ∨ pa + n < g + 64) } }

/-- Write V = 0 into the level-3 entries that cover the window, when the first context of a domain opens (R274). -/
def State.clearRoot (s : State) (d : Nat) : State :=
  let e := s.domainEntry d
  let pa := e.root + 8 * (s.setting 0x0201 / 2 ^ 39)
  if e.target = 1 then s.zeroEmul pa 32768 else { s with ext := s.ext.clear pa 32768 }

/-- Write tables in full from the records, and the entries that point to them. -/
def State.fillTables (s : State) (ts : List KvTable) : State :=
  let s := ts.foldl (fun s t => s.zeroEmul t.pa t.size) s
  ts.foldl (fun s t => s.linkTable t) s

/-- Write a granule of the table area from the records (R331, R334). -/
def State.rewriteGranule (s : State) (g : Nat) : State :=
  let s := { s with ectl := { s.ectl with poisoned := s.ectl.poisoned.filter (· != g) } }
  match s.kv.tabs.find? fun t => decide (t.pa ≤ g ∧ g < t.pa + t.size) with
  | some t => (List.range 8).foldl (fun s i => s.putWord t ((g - t.pa) / 8 + i)) s
  | none => s

/-- Move the bytes of a table, listed where it lies now, to where `u` lies, and write the entry that points to it (R343). -/
def State.moveTable (s : State) (old new : KvTable) : State :=
  let cells := s.emul.filter fun c => decide (old.pa ≤ c.1 ∧ c.1 < old.pa + old.size)
  let s := s.zeroEmul new.pa new.size
  let s := { s with emul := cells.foldl (fun (m : Mem) (c : Host.Cell) => m.write (new.pa + (c.1 - old.pa)) c.2) s.emul }
  ({ s with kv := { s.kv with tabs := s.kv.tabs.map fun (t : KvTable) => if t.use = old.use then new else t } }).linkTable new

/-- Drop the tables of a context, and the level-2 table of its group where no other open context of the group has the domain: every entry
of the context's range, and then of what is freed, has V = 0 (R274, R301, R563). -/
def State.dropTables (s : State) (c : KvCtx) : State :=
  let last := !s.kv.ctxs.any fun x => x.num != c.num && x.domain == c.domain && x.num / 8 == c.num / 8
  let gone := s.kv.tabs.filter fun t => match t.use with
    | .group d g => last && d == c.domain && g == c.num / 8
    | .layer n _ => n == c.num
    | .fine n _ _ => n == c.num
  let s := gone.foldl (fun s t => s.zeroEmul t.pa t.size) s
  let s := { s with kv := { s.kv with tabs := s.kv.tabs.filter fun t => !gone.contains t } }
  gone.foldl (fun s t => match t.use with | .fine _ _ _ => s | _ => s.linkTable t) s

end Sys2Proof.Machine
end

