-- ==== Sys2Proof/Machine/EmulOps.lean ====
section
/-! DEFINITION. Errors of the emulsion: where an offset lies (R328), corrected and uncorrectable reads (R330 to R332),
automatic sparing and retirement (R341 to R343). -/

namespace Sys2Proof.Machine

/-- The tier, logical bank and row line of a column offset (R328). -/
def emulPlace (off : Nat) : Nat × Nat × Nat :=
  let line := off / 1024
  let m := line / 4
  (line % 4, m / 32768, m % 32768)

/-- The physical bank that serves a logical bank (R340). -/
def Column.physBank (c : Column) (tier bank : Nat) : Nat :=
  ((c.map.find? (fun p => p.1 == tier && p.2.1 == bank)).map (·.2.2)).getD bank

/-- The spares of a tier that are neither in use nor used up: the lower is taken first, so one below a spare in use has been used (R328,
R341). -/
def Column.sparesLeft (c : Column) (tier : Nat) : List Nat :=
  [14, 15].filter fun b => !(c.map.any fun p => p.1 == tier && decide (b ≤ p.2.2)) &&
    !(c.copy.any fun k => k.tier == tier && decide (b ≤ k.new))

/-- Copies in progress in the block (R341). -/
def State.copies (s : State) : Nat := ((List.range 32).filter fun c => (s.col c).copy.isSome).length

/-- The counts of a logical bank: corrected errors of the pass, uncorrected errors. -/
def Column.bankCount (c : Column) (tier bank : Nat) : Nat × Nat :=
  ((c.banks.find? (fun b => b.1 == tier && b.2.1 == bank)).map (·.2.2)).getD (0, 0)

/-- Set the counts of a logical bank. -/
def Column.setBank (c : Column) (tier bank : Nat) (n : Nat × Nat) : Column :=
  { c with banks := (tier, bank, n) :: c.banks.filter fun b => !(b.1 == tier && b.2.1 == bank) }

/-- EMUL_LAST_ERR (R346). -/
def lastErr (col off phys : Nat) (ue patrol : Bool) : W64 :=
  let p := emulPlace off
  BitVec.ofNat 64 (col + p.1 * 2 ^ 5 + phys * 2 ^ 7 + p.2.2 * 2 ^ 11 + (if ue then 2 ^ 26 else 0) +
    (if patrol then 2 ^ 27 else 0) + 2 ^ 28)

/-- SUB of an EMUL entry: tier in [1:0], bank in [7:4] (R546). -/
def emulSub (tier bank : Nat) : Nat := tier + bank * 16

/-- A column enters RETIRING (R343, step 1): the pools' free levels lose it (R302). -/
def State.startRetire (s : State) (col : Nat) : State :=
  ((s.modCol col fun c => { c with state := .retiring, copy := none }).log 0x0102 8 7 false (objData col 0 0 0)).levelsFrom s

/-- Start a sparing copy (R341, step 1). -/
def State.startSpare (s : State) (col tier bank : Nat) : State :=
  match (s.col col).sparesLeft tier with
  | [] => s
  | n :: _ =>
    (s.modCol col fun c => { c with state := .sparing, copy := some ⟨tier, bank, c.physBank tier bank, n⟩ }).log 0x0102 8 4
      false (objData col (emulSub tier bank) 0 0)

/-- A logical bank at the limit of corrected errors: spared where a copy can run, reported where no spare is left (`tell`: it has reached the
limit, or the last spare has gone), and the column retired where the bank also has uncorrectable errors (R342, R343). -/
def State.autoSpare (s : State) (col tier bank : Nat) (tell : Bool) : State :=
  let c := s.col col
  let n := c.bankCount tier bank
  let lim := s.setting 0x0403
  if !s.fw.running ∨ lim = 0 ∨ n.1 < lim ∨ c.copy.any (fun k => k.tier == tier && k.bank == bank) then s
  else if (c.sparesLeft tier).isEmpty then
    (if n.2 ≠ 0 ∧ c.state = .live then s.startRetire col
     else if tell then s.log 0x0102 8 6 false (objData col (emulSub tier bank) 0 0) else s)
  else if c.state = .live ∧ c.copy.isNone ∧ s.copies < 4 then s.startSpare col tier bank
  else s

/-- A column is LIVE again after a copy in a tier: its other banks at the limit are spared, make it retire, or are reported where the copy
took their tier's last spare (R342, R343). -/
def State.autoSpareAgain (s : State) (col tier : Nat) : State :=
  (s.col col).banks.foldl (fun s b => s.autoSpare col b.1 b.2.1 (b.1 == tier)) s

/-- A read corrects one symbol of a granule (R330). -/
def State.emulCe (s : State) (pa : Nat) (patrol : Bool) : State :=
  let col := pa / 2 ^ 31
  let off := pa % 2 ^ 31
  let p := emulPlace off
  let c := s.col col
  let n := c.bankCount p.1 p.2.1
  let s := s.modCol col fun c => { c with ce := sat16 c.ce 1 }.setBank p.1 p.2.1 (n.1 + 1, n.2)
  let s := { s with ectl := { s.ectl with
    ce := sat32 s.ectl.ce 1, lastErr := lastErr col off (c.physBank p.1 p.2.1) false patrol } }
  s.autoSpare col p.1 p.2.1 (n.1 + 1 == s.setting 0x0403)

/-- The bytes of a granule whose error aliases: each is the stored one or a wrong one, freely (R330). -/
def State.freeGranule (s : State) (g : Nat) : State :=
  (List.range 64).foldl (fun (s : State) i =>
    if s.draw.1 % 2 = 1 then { s.draw.2 with emul := s.draw.2.emul.write (g + i) (BitVec.ofNat 8 (s.draw.1 / 2)) } else s.draw.2) s

/-- A read corrects a granule wrongly: it counts as corrected, and what is written back is what it delivers (R330). -/
def State.emulAlias (s : State) (pa : Nat) (patrol : Bool) : State :=
  if s.ectl.poisoned.contains (granuleOf pa) then s else (s.freeGranule (granuleOf pa)).emulCe pa patrol

/-- The granules of the emulsion that instructions and walks correct wrongly. -/
def State.aliasGranules (s : State) (soft : List SoftErr) : State :=
  soft.foldl (fun s e => if e.place = .wrong then s.emulAlias e.addr.toNat false else s) s

/-- A read finds a granule uncorrectable: counts, the last error, the entry (R331); later reads find it so again (R332). A bank at its
limit of corrected errors that has an uncorrectable one, and no spare, makes its column retire (R343). -/
def State.emulUe (s : State) (pa : Nat) (patrol : Bool) : State :=
  let col := pa / 2 ^ 31
  let off := pa % 2 ^ 31
  let p := emulPlace off
  let c := s.col col
  let n := c.bankCount p.1 p.2.1
  let g := granuleOf pa
  let s := s.modCol col fun c => { c with ue := sat16 c.ue 1 }.setBank p.1 p.2.1 (n.1, n.2 + 1)
  let s := { s with ectl := { s.ectl with
    ue := sat32 s.ectl.ue 1,
    firstUe := if s.ectl.ue = 0 then BitVec.ofNat 48 s.now else s.ectl.firstUe,
    lastErr := lastErr col off (c.physBank p.1 p.2.1) true patrol,
    poisoned := if s.ectl.poisoned.contains g then s.ectl.poisoned else g :: s.ectl.poisoned } }
  ((s.log 0x0102 8 1 false (objData col (emulSub p.1 p.2.1) p.2.2 pa)).irqSet 6).autoSpare col p.1 p.2.1 false

/-- An ERROR or POISON response counts (R417). -/
def State.countErr (s : State) : State := { s with ports := { s.ports with mpErr := sat16 s.ports.mpErr 1 } }

/-- A walk finds a granule uncorrectable: one of the table area is rewritten from the KV page manager's records, while firmware runs
(R331). -/
def State.tableUe (s : State) (pa : Nat) : State :=
  let s := s.emulUe pa false
  if 0x6F000000 ≤ pa % 2 ^ 31 ∧ s.fw.running = true then s.rewriteGranule (granuleOf pa) else s

/-- The error of a table entry that could not be read, from what the walk keeps of it (R331, R417). -/
def State.entryError (s : State) (entry : Nat) : State := if entry % 2 = 1 then s.tableUe (entry / 2) else s.countErr

/-- A translation fault: counted, and an entry that could not be read is an error of its memory (R221, R225, R331, R417). -/
def State.transFault (s : State) (slice : Nat) (f : AccessFault) : State :=
  let s := s.noteTransFault slice f
  if f.reason ≠ 9 then s else s.entryError f.entry

/-- The writes cover every byte of a granule. -/
def writtenWhole (undo : List ElemWrite) (g : Nat) : Bool :=
  (List.range 64).all fun i =>
    undo.any fun w => w.parts.any fun b => b.space == .emul && b.addr == g + i && b.mask == 0xFF

/-- The poisoned granules after writes: one whose 64 bytes were all written whole is poisoned no longer (R332). -/
def clearPoison (undo : List ElemWrite) (poisoned : List Nat) : List Nat :=
  poisoned.filter fun g => !writtenWhole undo g

/-- What writes do to the granules that are uncorrectable: a whole write clears one; a partial write reads it in error and writes
it back poisoned (R331, R332). -/
def State.emulWritten (s : State) (undo : List ElemWrite) (bad : List Nat) : State :=
  let part := bad.eraseDups.filter fun g =>
    (undo.any fun w => w.parts.any fun b => b.space == .emul && granuleOf b.addr == g) && !writtenWhole undo g
  let s := { s with ectl := { s.ectl with poisoned := clearPoison undo s.ectl.poisoned } }
  part.foldl (fun s g => s.emulUe g false) s

end Sys2Proof.Machine
end

