-- ==== Sys2Proof/Machine/KvOps.lean ====
section
/-! DEFINITION. Operations of the KV page manager: contexts and layers, pins and trays (R270, R282 to R286), the allocator
and its watermarks (R279 to R281, R299, R302), fixes (R292, R293), page queries (R296). -/

namespace Sys2Proof.Machine

/-! ### Contexts and layers -/

/-- Change context `n`. -/
def Kv.modCtx (v : Kv) (n : Nat) (f : KvCtx → KvCtx) : Kv :=
  { v with ctxs := v.ctxs.map fun c => if c.num = n then f c else c }

/-- Change context `n`. -/
def State.modCtx (s : State) (n : Nat) (f : KvCtx → KvCtx) : State := { s with kv := s.kv.modCtx n f }

/-- Change layer `l` of context `n`. -/
def State.modLayer (s : State) (n l : Nat) (f : KvLayer → KvLayer) : State :=
  s.modCtx n fun c => { c with layers := modifyNth f l c.layers }

/-- K: the pages of a layer below its tray (R282). -/
def KvLayer.k (l : KvLayer) : Nat := (l.len - l.tokens.length) / 16

/-- The fade point of a context (R269). -/
def KvCtx.fadePoint (c : KvCtx) : Nat :=
  (c.layers.filter fun l => decide (l.len < l.high)).foldl (fun m l => min m l.len) 0xFFFFFFFF

/-- Add an error fade that is not asked for already (R297, R331, R334). -/
def State.addErrFade (s : State) (f : ErrFade) : State :=
  if s.kv.errFades.contains f then s else { s with kv := { s.kv with errFades := s.kv.errFades ++ [f] } }

/-! ### Trays (R282 to R286) -/

/-- A tray occupies a hub slot (R283, R284). -/
def TrayState.inHub : TrayState → Bool
  | .parked => false
  | _ => true

/-- Bytes of the tray region in use (R282). -/
def State.trayBytes (s : State) : Nat :=
  s.kv.ctxs.foldl (fun n c =>
    let slot := ((s.ctxPool c).map KvPool.slot).getD 0
    n + slot * (c.layers.filter fun l => l.tray.inHub).length) 0

/-- The tray region (R282). -/
def trayRegion : Nat := 50331648

/-- A layer is pinned now. -/
def KvCtx.pinned (c : KvCtx) (l : Nat) : Bool := c.pins.any (·.layer == l)

/-- The resident tray pinned least recently and not pinned now; ties go to the lower context, then layer (R285). -/
def State.lruTray (s : State) : Option (Nat × Nat) :=
  let all := s.kv.ctxs.flatMap fun c => c.layers.zipIdx.filterMap fun l =>
    if (l.1.tray = .resident ∨ l.1.tray = .full) ∧ !c.pinned l.2 then some (l.1.lastPin, c.num, l.2) else none
  let better (a b : Nat × Nat × Nat) : Bool :=
    decide (a.1 < b.1) || (a.1 == b.1 && (decide (a.2.1 < b.2.1) || (a.2.1 == b.2.1 && decide (a.2.2 < b.2.2))))
  (all.foldl (fun m a => match m with | none => some a | some b => some (if better a b then a else b)) none).map (·.2)

/-- Mark a tray for parking (R284): copied, or without a copy where it holds no token. -/
def KvLayer.startPark (l : KvLayer) : KvLayer :=
  if l.tray = .resident ∧ l.tokens.isEmpty then { l with tray := .parked, wasFull := false }
  else if l.tray = .resident ∨ l.tray = .full then { l with tray := .parking, wasFull := l.tray == .full } else l

/-- The bytes of the tray region that stay in use once the copies to park slots have ended (R284). -/
def State.keptBytes (s : State) : Nat :=
  s.kv.ctxs.foldl (fun n c =>
    n + ((s.ctxPool c).map KvPool.slot).getD 0 * (c.layers.filter fun l => l.tray.inHub && l.tray != .parking).length) 0

/-- While a tray that must become resident finds no hub slot, the tray pinned least recently parks (R285). -/
def State.makeRoom (s : State) : Nat → State
  | 0 => s
  | n + 1 =>
    if s.keptBytes ≤ trayRegion then s
    else match s.lruTray with
      | some v => (s.modLayer v.1 v.2 KvLayer.startPark).makeRoom n
      | none => s

/-- The layers of the open contexts. -/
def Kv.layerCount (v : Kv) : Nat := v.ctxs.foldl (fun n c => n + c.layers.length) 0

/-- Hub slots are made free for the trays that wait for one (R285). -/
def State.trayRoom (s : State) : State := s.makeRoom s.kv.layerCount

/-- A tray must become resident: its restore starts, once a hub slot is free (R285). A tray being parked stays (R284). -/
def State.wantTray (s : State) (n l : Nat) : State :=
  match s.layer n l with
  | none => s
  | some x =>
    match x.tray with
    | .parking => (s.modLayer n l fun x => { x with tray := if x.wasFull then .full else .resident, wasFull := false }).trayRoom
    | .parked => (s.modLayer n l fun x => { x with tray := .restoring }).trayRoom
    | _ => s

/-- A tray's tokens can be read and written. -/
def State.trayReady (s : State) (n l : Nat) : Bool :=
  match s.layer n l with
  | some x => x.tray == .resident || x.tray == .full || x.tray == .fixing
  | none => true

/-! ### Pins (R270) -/

/-- An instruction pins a context: the generation and LAST_USE are recorded, its tray is wanted. -/
def State.kvPin (s : State) (n l slice key : Nat) (write : Bool) : State :=
  let s := s.modCtx n fun c => { c with
    pins := c.pins ++ [⟨slice, key, c.fadeGen, write, l⟩], lastUse := s.now, usedFrame := true }
  (s.modLayer n l fun x => { x with lastPin := s.now }).wantTray n l

/-- The pins and waits of an instruction end; a tray that it pinned can park now (R270, R285). -/
def State.kvRelease (s : State) (slice key : Nat) : State :=
  ({ s with kv := { s.kv with
      ctxs := s.kv.ctxs.map fun (c : KvCtx) => { c with pins := c.pins.filter fun p => !(p.slice == slice && p.key == key) },
      waiters := s.kv.waiters.filter fun w => !(w.slice == slice && w.key == key) } }).trayRoom

/-! ### Checks (R271, R276) -/

/-- The values per token that a KV view names. -/
def Tensor.kvWidth (t : Tensor) : Nat :=
  ((t.dims[0]?).map (·.extent)).getD 1 * ((t.dims[1]?).map (·.extent)).getD 1

/-- A view agrees with the context's domain and the shape of its pool (R271, R276). -/
def viewOk (c : KvCtx) (p : KvPool) : Operand → Bool
  | .tensor t => t.domain == c.domain && t.fmt == p.fmt && t.planar == p.planar && t.kvWidth == p.width
  | _ => true

/-- The check of R271 and R276; `streams` is the pool's number of streams where the instruction fixes it. -/
def State.kvOk (s : State) (n l : Nat) (views : List Operand) (streams : Option Nat) : Bool :=
  match s.kv.ctx n with
  | none => false
  | some c =>
    match s.ctxPool c with
    | none => false
    | some p => !c.closing && decide (l < c.layers.length) && views.all (viewOk c p) &&
        (match streams with | some k => p.streams == k | none => true)

/-- ARG of KV_CONTEXT (R541). -/
def kvArg (n l : Nat) : Nat := n + l * 2 ^ 16

/-! ### The allocator (R279 to R281) -/

/-- The lowest number below a bound that a list does not hold. -/
def lowestFree (l : List Nat) (n : Nat) : Option Nat :=
  let c := (List.range (l.length + 1)).find? fun i => !l.contains i
  c.bind fun i => if i < n then some i else none

/-- Where a pool claims group k of a (context, layer): place, group number, whether displaced (R281). -/
def State.placeIn (s : State) (p : KvPool) (ctx page : Nat) : Option (Nat × Nat × Bool) :=
  let ps := s.poolPlaces p
  if p.emul then
    let all := maskBits 32 p.colmask
    let i := (ctx + page / max 1 p.stripe) % max 1 all.length
    let order := all.drop i ++ all.take i
    order.findSome? fun c =>
      if ps.contains c then (lowestFree (s.kv.taken p c) p.perPlace).map fun g => (c, g, some c != all[i]?) else none
  else (lowestFree (s.kv.taken p 0xFF) p.perPlace).map fun g => (0xFF, g, false)

/-- Claim a group for page `page` of a (context, layer) from the first pool of the chain that has one (R281). -/
def State.claim (s : State) (n l page : Nat) (chain : List Nat) : Option State :=
  chain.findSome? fun q =>
    (s.kv.pool q).bind fun p =>
      (s.placeIn p n page).map fun w =>
        let g : KvGroup := ⟨n, l, page / p.z, p.num, w.1, w.2.1, .writing :: List.replicate (p.z - 1) .reserved⟩
        let t := { s with kv := { s.kv with groups := s.kv.groups ++ [g] } }
        (if w.2.2 then t.modStat p.num fun c => { c with displaced := sat16 c.displaced 1 } else t).levelsFrom s

/-- The grant order of claims that meet: round the quadrants from QUAD_PTR (R304). -/
def Kv.turn (v : Kv) (quads quad : Nat) : Nat := (quad + quads - v.quadPtr.toNat) % quads

/-- A claim of a slice reaches the allocator. Claims of one nanosecond, in an order that the grant order allows, met in one core cycle or
not, freely; where they met from two quadrants and one was not granted, the cycle is contested (R304). DESIGN CHOICE, safe (log 7). -/
def State.noteClaim (s : State) (k : Nat) (granted : Bool) : State :=
  let c := s.kv.claims
  let n := max 1 (s.chip.model.slices / 8)
  let all := (if c.ns = s.now then c.all else []) ++ [(k / 8, granted)]
  let met := decide (c.ns = s.now) && c.met
  let clash := all.any (·.1 != k / 8) && all.any (!·.2) && (all.zip (all.drop 1)).all fun p => decide (s.kv.turn n p.1.1 ≤ s.kv.turn n p.2.1)
  if !clash && !met then { s with kv := { s.kv with claims := ⟨s.now, all, false⟩ } }
  else
    let first := !met && s.draw.1 % 2 == 1
    let s := if met then s else s.draw.2
    if !(met || first) then { s with kv := { s.kv with claims := ⟨s.now, all, false⟩ } }
    else { s with kv := { s.kv with
      claims := ⟨s.now, all, true⟩
      contests := if first then sat32 s.kv.contests 1 else s.kv.contests
      quadPtr := match (all.filter (·.2)).getLast? with
        | some q => BitVec.ofNat 2 ((q.1 + 1) % n)
        | none => s.kv.quadPtr } }

/-- Set the state of a page's frame. -/
def State.setFrame (s : State) (n l page : Nat) (f : FrameState) : State :=
  match s.groupOf n l page with
  | none => s
  | some (g, p) =>
    { s with kv := { s.kv with groups := s.kv.groups.map fun x =>
        if x = g then { x with frames := x.frames.set (page % p.z) f } else x } }

/-- A group in use (R288). -/
def KvGroup.inUse (g : KvGroup) : Bool := g.frames.any fun f => f == .live || f == .writing || f == .draining

/-- Free the groups that a test picks (R288): their frames become FREE and the groups free. -/
def State.freeGroups (s : State) (pick : KvGroup → Bool) : State :=
  ({ s with kv := { s.kv with groups := s.kv.groups.filter fun g => !pick g } }).dropPress

/-! ### Fixes (R292, R293) -/

/-- The bit writes of an element's code at an element offset of a page (R55, R273). -/
def codeParts (sp : Space) (planar : Bool) (f : Fmt) (base e code : Nat) : List BitWrite :=
  let b := fmtBits f
  if planar then
    (List.range b).map fun p =>
      ⟨sp, base + e / 1024 * (b * 128) + p * 128 + e % 1024 / 8, BitVec.ofNat 8 (2 ^ (e % 8)),
        BitVec.ofNat 8 (code / 2 ^ (b - 1 - p) % 2 * 2 ^ (e % 8))⟩
  else (leBytes (b / 8) code).zipIdx.map fun q => ⟨sp, base + e * (b / 8) + q.2, 0xFF, q.1⟩

/-- The bit writes of a page of one stream, element planes and scale bytes (R292, step 2). -/
def pageParts (p : KvPool) (g : KvGroup) (page stream : Nat) (rows : List TokenRow) : List BitWrite :=
  let sp : Space := if p.emul then .emul else .ext
  let i := page % p.z
  rows.zipIdx.flatMap fun r =>
    (r.1.codes.zipIdx.flatMap fun c =>
      codeParts sp p.planar p.fmt (p.elemPa g.column g.num stream i) (r.2 * p.width + c.2) c.1) ++
    (if fmtMx p.fmt then r.1.scales.zipIdx.map fun c =>
        ⟨sp, p.scalePa g.column g.num stream i + r.2 * (p.width / 32) + c.2, 0xFF, BitVec.ofNat 8 c.1⟩ else [])

/-- The bits that a fix writes: a layer's tokens, into the page after its fixed ones (R292). -/
def KvLayer.fixParts (x : KvLayer) (p : KvPool) (g : KvGroup) : List BitWrite :=
  pageParts p g x.k 0 (x.tokens.map (·.s0)) ++ (if p.streams = 2 then pageParts p g x.k 1 (x.tokens.map (·.s1)) else [])

/-- Write bits into the emulsion or external memory. -/
def State.writeBits (s : State) (ws : List BitWrite) : State :=
  let s := ws.foldl (fun s w =>
    if w.space = .emul then
      { s with emul := s.emul.write w.addr ((s.emul.read w.addr &&& ~~~w.mask) ||| (w.val &&& w.mask)) }
    else if w.space = .ext then
      { s with ext := s.ext.write w.addr ((s.ext.read w.addr &&& ~~~w.mask) ||| (w.val &&& w.mask)) }
    else s) s
  s

/-- How the first step of a fix ends (R292, R293). -/
inductive FixStart where
  | begun | waitFrame | noGroup
deriving DecidableEq, Repr

/-- Step 1 of a fix of a layer's full tray, for slice `k`: a group is claimed for its first page, the frame of another page is taken in
its group (R292); `first` says that the claim is not one that has waited already (R304). -/
def State.fixTake (s : State) (k n l : Nat) (first : Bool) : FixStart × State :=
  match s.kv.ctx n, s.layer n l with
  | some c, some x =>
    let page := x.k
    let z := ((s.ctxPool c).map KvPool.z).getD 1
    if page % z = 0 then
      match s.claim n l page c.chain with
      | some t => (.begun, (if first then t.noteClaim k true else t).modLayer n l fun x => { x with tray := .fixing })
      | none =>
        (.noGroup, ((if first then s.noteClaim k false else s).trigger c.chain).modLayer n l fun x => { x with tray := .full })
    else
      match s.groupOf n l page with
      | some (g, p) =>
        if g.frames[page % p.z]? = some .reserved then
          (.begun, (s.setFrame n l page .writing).modLayer n l fun x => { x with tray := .fixing })
        else (.waitFrame, s)
      | none => (.waitFrame, s)
  | _, _ => (.noGroup, s)

/-- Steps 2 to 4 of a fix: the tokens are written, the page becomes LIVE, the tray is emptied (R292). -/
def State.fixDone (s : State) (n l : Nat) : State :=
  match s.layer n l with
  | none => s
  | some x =>
    let page := x.k
    match s.groupOf n l page with
    | none => s
    | some (g, p) =>
      let ws := x.fixParts p g
      let s := s.writeBits ws
      let s := s.emulWritten [⟨0, ws⟩] s.ectl.poisoned
      ((s.setFrame n l page .live).modLayer n l fun x => { x with
        tray := .resident, wasFull := false, tokens := [], faded := x.faded.filter fun f => f.1 != page }).syncPage p n l page
          (page % p.z == 0)

/-! ### Queries (R296) -/

/-- The window entry of a page's first element granule, as it lies in memory (R275, R296); 0 where no table holds it. -/
def State.pageEntry (s : State) (n l page : Nat) : Nat :=
  match (s.kv.ctx n).bind s.ctxPool with
  | none => 0
  | some p =>
    match s.kv.table (.fine n l (page * p.pe / 2097152)) with
    | some t => s.emul.readLe (t.pa + 8 * (page * p.pe % 2097152 / 2 ^ granuleLog p.pe)) 8
    | none => 0

/-- TRAY_STATE of a layer: a fix that waits for its frame or for a free group has not failed, and shows as FIXING (R283, R293;
DEDUCED, log 14). -/
def State.trayCode (s : State) (n l : Nat) (x : KvLayer) : Nat :=
  if s.kv.waiters.any fun w => w.ctx == n && w.layer == l && (w.kind == .group || w.kind == .frame) then TrayState.fixing.code
  else x.tray.code

/-- A CONTEXT record (R296). -/
def State.ctxRecord (s : State) (n l : Nat) : List Byte :=
  match s.kv.ctx n, s.layer n l with
  | some c, some x =>
    let fading := s.kv.fades.any fun f => f.ctx == n
    let waiting := s.kv.waiters.any fun w => w.ctx == n && w.kind == .group
    let flags := 1 + (if waiting then 2 else 0) + (if fading then 4 else 0) + (if c.closing then 8 else 0)
    leBytes 8 s.now ++ leBytes 8 c.lastUse ++ leBytes 4 x.len ++ leBytes 4 x.high ++ leBytes 4 c.fadePoint ++ leBytes 4 x.k ++
      leBytes 1 (s.trayCode n l x) ++ leBytes 1 x.tokens.length ++ leBytes 1 c.cls ++ leBytes 1 flags ++ leBytes 2 c.domain ++
      leBytes 1 c.fadeGen ++ List.replicate 25 0
  | _, _ => leBytes 8 s.now ++ List.replicate 56 0

/-- A PAGES record (R296); a page beyond the layer's pages is FREE. -/
def State.pageRecord (s : State) (n l page : Nat) : List Byte :=
  let g := s.groupOf n l page
  let st := (g.bind fun g => g.1.frames[page % g.2.z]?).getD .free
  leBytes 4 page ++ leBytes 1 st.code ++ leBytes 1 ((g.map (·.1.pool)).getD 0) ++ leBytes 1 ((g.map (·.1.column)).getD 0xFF) ++
    [0] ++ leBytes 8 (s.pageEntry n l page)

/-- The records of a PAGEQ or KV_SEQ_QUERY: kind 0 the layer's record, kind 1 `count` page records from `first` on. -/
def State.kvRecords (s : State) (n l kind first count : Nat) : List Byte :=
  if kind = 0 then s.ctxRecord n l else (List.range' first count).flatMap fun p => s.pageRecord n l p

end Sys2Proof.Machine
end

