-- ==== Sys2Proof/Machine/Reduce.lean ====
section
/-! DEFINITION. Reductions and scans, 0x60 to 0x67 (R101, R181 to R190). -/

namespace Sys2Proof.Machine

/-- The present elements of a sequence in order, each with its position: the codes of SRCA and SRCB; absent ones are none
(R182). -/
abbrev Seq2 := List (Option (Nat × Nat))

/-- Cut a list into pieces of n. -/
def piecesOf {α : Type} (n : Nat) : Nat → List α → List (List α)
  | 0, _ => []
  | _, [] => []
  | k + 1, l => l.take n :: piecesOf n k (l.drop n)

/-- Every 128th element from lane j on. -/
def laneOf {α : Type} (j : Nat) (l : List α) : List α :=
  (l.zipIdx.filter fun p => p.2 % 128 == j).map (·.1)

/-- Combine two optional partials: an absent one passes the other through (R101). -/
def optCombine {α : Type} (f : α → α → α) : Option α → Option α → Option α
  | some a, some b => some (f a b)
  | some a, none => some a
  | none, b => b

/-- One level of the binary tree (R101). -/
def treeLevel {α : Type} (f : α → α → α) : List (Option α) → List (Option α)
  | a :: b :: l => optCombine f a b :: treeLevel f l
  | l => l

/-- The partial of an output-strip: 128 lanes from `start` by `step`, then seven levels (R101, R183). -/
def stripPartial {α β : Type} (start : β → α) (step : α → β → α) (f : α → α → α) (l : List (Option β)) : Option α :=
  let lane (j : Nat) : Option α :=
    (laneOf j l).foldl (fun acc x => match acc, x with
      | some a, some b => some (step a b)
      | none, some b => some (start b)
      | acc, none => acc) none
  let lanes := (List.range 128).map lane
  let t := (List.range 7).foldl (fun l _ => treeLevel f l) lanes
  t.head?.join

/-- The lane tree over a sequence: output-strips of 4,096, combined in ascending order (R101, R182). -/
def laneTree {α β : Type} (start : β → α) (step : α → β → α) (f : α → α → α) (l : List (Option β)) : Option α :=
  ((piecesOf 4096 (l.length / 4096 + 1) l).map (stripPartial start step f)).foldl (optCombine f) none

/-- FP32 addition. -/
def add32 (a b : Val) : Val := rnd32 (a.add b)

/-- RSUM of a sequence in FP32 (R183). -/
def sumSeq (l : Seq2) : Val :=
  ((laneTree (fun p : Nat × Nat => f32 p.1) (fun a p => add32 a (f32 p.1)) add32 l).getD .zero)

/-- RDOT of a sequence in FP32: the first product rounded, later ones by fused multiply-add (R183). -/
def dotSeq (l : Seq2) : Val :=
  ((laneTree (fun p : Nat × Nat => rnd32 ((f32 p.1).mul (f32 p.2)))
      (fun a p => rnd32 (((f32 p.1).mul (f32 p.2)).add a)) add32 l).getD .zero)

/-- The present integer elements of a sequence. -/
def intsOf (f : Fmt) (l : Seq2) : List (Int × Int) :=
  l.filterMap fun p => p.map fun q => (intOfCode f q.1, intOfCode f q.2)

/-! ### Compensated sums (R184, R185) -/

/-- A double word in progress: finite, or the infinity of an overflow. -/
inductive DW where
  | ok (h l : Val)
  | over (neg : Bool)
deriving DecidableEq, Repr

/-- DWADD, with its overflow cases (R184). -/
def dwAdd : DW → DW → DW
  | .over s, _ => .over s
  | _, .over s => .over s
  | .ok h1 l1, .ok h2 l2 =>
    let t := twoSum h1 h2
    match t.1 with
    | .inf s => .over s
    | _ =>
      match rnd32 ((rnd32 (l1.add l2)).add t.2) with
      | .inf s => .over s
      | l => .ok t.1 l

/-- The final renormalisation of a chain (R184). -/
def dwFinal : Option DW → Val × Val
  | none => (.zero, .zero)
  | some (.over s) => (.inf s, .inf s)
  | some (.ok h l) => twoSum h l

/-- RSUMC of the pairs of a sequence (R184). -/
def sumcPairs (seq : Bool) (l : List (Option (Val × Val))) : Val × Val :=
  let es := (l.filterMap id).flatMap fun p => [p.1, p.2]
  if es.any (· == .nan) || (es.any (· == .inf true) && es.any (· == .inf false)) then (.nan, .nan)
  else if es.any (· == .inf false) then (.inf false, .inf false)
  else if es.any (· == .inf true) then (.inf true, .inf true)
  else
    let ws := l.map fun o => o.map fun p => DW.ok p.1 p.2
    dwFinal (if seq then ws.foldl (optCombine dwAdd) none else laneTree id dwAdd dwAdd ws)

/-! ### Maxima and minima (R186) -/

/-- The chosen element of a sequence and its position: the running choice over elements with positions. -/
def extremeStep (mx num : Bool) (acc : Option (Val × Int)) (x : Val × Int) : Option (Val × Int) :=
  match acc with
  | none => if num && x.1 == .nan then none else some x
  | some (.nan, i) => some (.nan, i)
  | some (v, i) =>
    if x.1 == .nan then (if num then some (v, i) else some x)
    else if (if mx then v.ltZ x.1 else x.1.ltZ v) then some x else some (v, i)

/-- RMAX or RMIN of the present elements with their positions, in a floating-point or integer format (R186). -/
def extremeSeq (f : Fmt) (mx num : Bool) (l : List (Val × Int)) : Val × Int :=
  match l.foldl (extremeStep mx num) none with
  | some (v, i) => (v, i)
  | none =>
    if l.isEmpty then
      ((if fmtInt f then Val.ofInt (if mx then intMin f else intMax f) else .inf mx), -1)
    else (.nan, -1)

/-- The present elements of a sequence with their positions. -/
def withPos (f : Fmt) (l : Seq2) : List (Val × Int) :=
  l.zipIdx.filterMap fun p => p.1.map fun q => (decodeElem f q.1, (p.2 : Int))

/-! ### Scans (R189, R190) -/

/-- One lane of a segment: the running inclusive results, absent until its first present position, and its total. -/
def segScan : Option Val → List (Option Val) → List (Option Val) × Option Val
  | acc, [] => ([], acc)
  | acc, x :: xs =>
    let a := optCombine add32 acc x
    let y := segScan a xs
    (a :: y.1, y.2)

/-- The segments of an output-strip against their carries (R189). -/
def segChain : Option Val → List (List (Option Val)) → List (Option Val) × Option Val
  | c, [] => ([], c)
  | c, s :: ss =>
    let y := segScan none s
    let here := y.1.map fun o => match o with | some v => some ((c.map fun k => add32 k v).getD v) | none => c
    let z := segChain (optCombine add32 c y.2) ss
    (here ++ z.1, z.2)

/-- The inclusive FP32 sums of the output-strips of a sequence: at an absent position, the inclusive result before it.
The carry into an output-strip is the last inclusive result of the one before (R189). -/
def sumScan : Option Val → List (List (Option Val)) → List (Option Val)
  | _, [] => []
  | c, s :: ss =>
    let y := segChain c (piecesOf 32 129 s)
    let last := (List.zip s y.1).foldl (fun a p => if p.1.isSome then p.2 else a) c
    y.1 ++ sumScan last ss

/-- Running results of a combining function at every position; absent until the first present one. -/
def runScan {α : Type} (f : α → α → α) : Option α → List (Option α) → List (Option α)
  | _, [] => []
  | acc, x :: xs => let a := optCombine f acc x; a :: runScan f a xs

/-- From inclusive results to delivered ones: the exclusive value at an absent position, and everywhere where `excl`; `e`
is the empty value (R189, R190). -/
def deliverScan {α : Type} (excl : Bool) (e : α) : Option α → List (Option α) → List Bool → List α
  | _, [], _ => []
  | prev, r :: rs, ps =>
    let here := ps.head?.getD true
    let out := if excl || !here then prev.getD e else r.getD e
    out :: deliverScan excl e (if here then r else prev) rs (ps.drop 1)

/-- The delivered values of a SCAN over a whole sequence, each as an exact value (R189, R190). -/
def scanSeq (f : Fmt) (func : Nat) (l : Seq2) : List Val :=
  let op := func % 4
  let excl := func / 4 % 2 == 1
  let num := func / 8 % 2 == 1
  let ps := l.map Option.isSome
  let xs := l.map fun o => o.map fun p => decodeElem f p.1
  if op = 0 then
    if fmtInt f then
      let is := l.map fun o => o.map fun p => intOfCode f p.1
      (deliverScan excl 0 none (runScan (· + ·) none is) ps).map Val.ofInt
    else
      deliverScan excl .zero none (sumScan none (piecesOf 4096 (l.length / 4096 + 1) xs)) ps
  else
    let mx := op == 1
    let empty : Val := if fmtInt f then Val.ofInt (if mx then intMin f else intMax f) else .inf mx
    deliverScan excl empty none (runScan (if mx then Val.max' num else Val.min' num) none xs) ps

/-! ### The instructions -/

/-- The reduced length of a source: the product of its RDIMS innermost extents (PAIRS counts from DIM1, R185). -/
def redLength (o : Operand) (pairs : Bool) (rd n : Nat) : Nat :=
  match o with
  | .tensor t => (((if pairs then t.dims.drop 1 else t.dims).take rd).map (·.extent)).foldl (· * ·) 1
  | _ => n

/-- PAIRS of RSUMC. -/
def redPairs (op : Nat) (fl : Fields) : Bool := op == 0x63 && fl.func.toNat / 2 % 2 == 1

/-- RDIMS of an instruction (R181). -/
def redDims (fl : Fields) : Nat := bits fl.imm.toNat 37 35

/-- The positions that the sequences count, a pair of PAIRS being one. -/
def redPositions (op : Nat) (fl : Fields) (n : Nat) : Nat := if redPairs op fl then n / 2 else n

/-- Load one position of a reduction's sources: none where its predicate, with PINV at bit 38, is false (R181). -/
def loadRed (op : Nat) (fl : Fields) (os : Operands) (r : Run) (pos : Nat) : Run × Option (Nat × Nat) :=
  let cf := immFmt fl.imm.toNat
  let p := predAt r os.pred (bits fl.imm.toNat 38 38 == 1) pos
  if !p.2 then (p.1, none)
  else if redPairs op fl then
    let a := loadCfmt p.1 os.a cf (2 * pos) 1
    let b := loadCfmt a.1 os.a cf (2 * pos + 1) 1
    (b.1, some (a.2, b.2))
  else
    let a := loadCfmt p.1 os.a cf pos 1
    if op = 0x62 then
      let b := loadCfmt a.1 os.b cf pos 2
      (b.1, some (a.2, b.2))
    else (a.1, some (a.2, a.2))

/-- Load positions in order. -/
def loadSeq (op : Nat) (fl : Fields) (os : Operands) : Run → List Nat → Run × Seq2
  | r, [] => (r, [])
  | r, p :: ps =>
    let x := loadRed op fl os r p
    let y := loadSeq op fl os x.1 ps
    (y.1, x.2 :: y.2)

/-- A value stored at an output, exact, with its code in a format. -/
def outVal (f : Fmt) (pos : Nat) (v : Val) : PosVal := ⟨pos, v, (encodeElem f v).1, false, false, none⟩

/-- Count the saturations of values converted into a tile register's format (R183, R189). -/
def countTile (r : Run) (o : Operand) (f : Fmt) (vs : List Val) : Run :=
  match o with
  | .tile _ => vs.foldl (fun r v => r.countSat (encodeElem f v).2) r
  | _ => r

/-- Store an output in a format: into a tile register, as the format's raw element. -/
def storeOut (r : Run) (o : Operand) (f : Fmt) (opnd out pos : Nat) (v : Val) : Run :=
  storeUnit (countTile r o f [v]) o f opnd out [outVal f pos v]

/-- Write the output of one sequence (R183 to R187). -/
def reduceOut (op : Nat) (fl : Fields) (os : Operands) (r : Run) (j : Nat) (l : Seq2) : Run :=
  let cf := immFmt fl.imm.toNat
  let func := fl.func.toNat
  let isum (g : Int × Int → Int) : Val := Val.ofInt (((intsOf cf l).map g).foldl (· + ·) 0)
  match op with
  | 0x60 => storeOut r os.dst cf 0 0 j (if fmtInt cf then isum (·.1) else sumSeq l)
  | 0x61 => storeOut r os.dst cf 0 0 j (if fmtInt cf then isum (fun p => p.1 * p.1) else dotSeq l)
  | 0x62 => storeOut r os.dst cf 0 0 j (if fmtInt cf then isum (fun p => p.1 * p.2) else dotSeq l)
  | 0x63 =>
    let v := sumcPairs (func % 2 == 1) (l.map fun o => o.map fun p =>
      if redPairs op fl then (f32 p.1, f32 p.2) else (f32 p.1, Val.zero))
    storeOut (storeOut r os.dst .fp32 0 0 j v.1) os.c .fp32 3 1 j v.2
  | 0x64 =>
    let v := extremeSeq cf true (func % 2 == 1) (withPos cf l)
    storeOut (storeOut r os.dst cf 0 0 j v.1) os.c .int32 3 1 j (Val.ofInt v.2)
  | 0x65 =>
    let v := extremeSeq cf false (func % 2 == 1) (withPos cf l)
    storeOut (storeOut r os.dst cf 0 0 j v.1) os.c .int32 3 1 j (Val.ofInt v.2)
  | _ =>
    let ones := (l.filterMap id).map fun p => p.1 % 2
    let count := ones.foldl (· + ·) 0
    let anyV := decide (0 < count)
    let allV := decide (count = ones.length)
    let sel := func % 4
    let flag := match sel with
      | 0 => anyV
      | 1 => allV
      | _ => decide (fl.imm.toNat % 2 ^ 32 ≤ count)
    let r1 :=
      if sel = 2 then storeOut r os.dst .int32 0 0 j (Val.ofInt count)
      else storeOut r os.dst .mask1 0 0 j (if (if sel = 0 then anyV else allV) then .one else .zero)
    if bits fl.imm.toNat 34 34 = 1 then { r1 with cmpVal := some flag } else r1

/-- Outside a group: unit j is output j (R182). -/
def reduceUnit (op : Nat) (fl : Fields) (os : Operands) (r : Run) (j : Nat) : Run :=
  let len := redLength os.a (redPairs op fl) (redDims fl) r.env.total
  let x := loadSeq op fl os r (List.range' (j * len) len)
  if x.1.fault.isSome then x.1 else reduceOut op fl os x.1 j x.2

/-- The outputs whose last position lies in a range, from buffered elements that begin at the start of output `j`. -/
def flushOuts (op : Nat) (fl : Fields) (os : Operands) (len hi : Nat) : Nat → Nat → Run → Run
  | 0, _, r => r
  | n + 1, j, r =>
    if (j + 1) * len ≤ hi ∧ r.fault.isNone then
      let r1 := reduceOut op fl os r j (r.buf.take len)
      flushOuts op fl os len hi n (j + 1) { r1 with buf := r1.buf.drop len }
    else r

/-- Inside a group: strip k adds its elements, and the outputs that end in it are written (R182). -/
def reduceStrip (op : Nat) (fl : Fields) (os : Operands) (r : Run) (k : Nat) : Run :=
  let n := redPositions op fl r.env.total
  let len := redLength os.a (redPairs op fl) (redDims fl) r.env.total
  let per := if redPairs op fl then 2048 else 4096
  let ps := List.range' (per * k) (min per (n - per * k))
  let x := loadSeq op fl os r ps
  if x.1.fault.isSome then x.1 else
    let r1 := { x.1 with buf := x.1.buf ++ x.2 }
    let hi := min n (per * (k + 1))
    flushOuts op fl os len hi (ps.length + 1) ((per * k) / max 1 len) r1

/-- Store a run of scan results at consecutive positions. -/
def storeScan (r : Run) (o : Operand) (f : Fmt) (first : Nat) (vs : List Val) : Run :=
  storeUnit (countTile r o f vs) o f 0 0 (vs.zipIdx.map fun p => outVal f (first + p.2) p.1)

/-- Outside a group: unit u of SCAN is an output-strip (R182). The elements of the sequence so far are buffered. -/
def scanUnit (fl : Fields) (os : Operands) (r : Run) (u : Nat) : Run :=
  let len := redLength os.a false (redDims fl) r.env.total
  let per := ceilDiv len 4096
  let seq := u / max 1 per
  let piece := u % max 1 per
  let lo := 4096 * piece
  let n := min 4096 (len - lo)
  let r0 := if piece = 0 then { r with buf := [] } else r
  let x := loadSeq 0x67 fl os r0 (List.range' (seq * len + lo) n)
  if x.1.fault.isSome then x.1 else
    let r1 := { x.1 with buf := x.1.buf ++ x.2 }
    let f := immFmt fl.imm.toNat
    storeScan r1 os.dst f (seq * len + lo) ((scanSeq f fl.func.toNat r1.buf).drop lo)

/-- Inside a group: the positions of strip k, sequence by sequence; the buffer holds the sequence in progress. -/
def scanPieces (fl : Fields) (os : Operands) (len hi : Nat) : Nat → Nat → Run → Run
  | 0, _, r => r
  | n + 1, pos, r =>
    if pos < hi ∧ r.fault.isNone then
      let start := pos / max 1 len * len
      let stop := min hi (start + len)
      let x := loadSeq 0x67 fl os (if pos = start then { r with buf := [] } else r) (List.range' pos (stop - pos))
      let r1 := { x.1 with buf := x.1.buf ++ x.2 }
      let f := immFmt fl.imm.toNat
      let r2 := if r1.fault.isSome then r1
                else storeScan r1 os.dst f pos ((scanSeq f fl.func.toNat r1.buf).drop (pos - start))
      scanPieces fl os len hi n stop r2
    else r

/-- Inside a group: strip k of a SCAN. -/
def scanStrip (fl : Fields) (os : Operands) (r : Run) (k : Nat) : Run :=
  let len := redLength os.a false (redDims fl) r.env.total
  let hi := min r.env.total (4096 * (k + 1))
  scanPieces fl os len hi 4097 (4096 * k) r

/-- Units of progress of a reduction or scan outside a group (R182). -/
def reduceTotal (op : Nat) (fl : Fields) (os : Operands) (n : Nat) : Nat :=
  let len := redLength os.a (redPairs op fl) (redDims fl) n
  let outs := redPositions op fl n / max 1 len
  if op = 0x67 then outs * ceilDiv len 4096 else outs

end Sys2Proof.Machine
end

