-- ==== Sys2Proof/Machine/Issue.lean ====
section
/-! DEFINITION. Issue of an engine instruction: units and queues (R115, R125), the interlock (R126 to R128, R158), the
checks made at issue in the order of R542. -/

namespace Sys2Proof.Machine

/-- The program and the host have written an inactive register within a nanosecond of each other: whether in one core cycle is free. In
one, the host's value stays and the slice enters the register (R137, R546; log 47). -/
def State.sameCycle (s : State) (k p : Nat) (host : W64) : State :=
  let d := s.draw
  if d.1 % 2 = 0 then d.2 else
    (d.2.mod k fun x => x.setParamIn p host).log k 13 2 false
      (objData k p ((s.sl k).seq.frame.toNat % 2 ^ 32) host.toNat)

/-! ### Units -/

/-- The unit that runs an opcode: vector, move, gather/scatter, attention, reel, KV (R115). -/
def unitOf (op : Nat) : Nat :=
  if op < 0x70 then 0 else if op < 0x80 then 1 else if op < 0x90 then 2 else if op < 0xA0 then 3 else if op < 0xB0 then 4 else 5

/-- The depth of a unit's queue (R115). -/
def queueDepth : Nat → Nat
  | 0 => 16 | 1 => 16 | 2 => 8 | 3 => 8 | 4 => 4 | _ => 8

/-- The unit of an instruction in flight. -/
def Entry.unit (e : Entry) : Nat := unitOf e.op

/-- What a started instruction has done, where it has started. -/
def Entry.run? (e : Entry) : Option Running :=
  match e.phase with
  | .queued => none
  | .running r => some r

/-- The instructions waiting in a unit's queue, oldest first. -/
def Slice.queue (x : Slice) (u : Nat) : List Entry := x.flight.filter fun e => e.unit == u && e.run?.isNone

/-- A unit runs an instruction. -/
def Slice.busy (x : Slice) (u : Nat) : Bool := x.flight.any fun e => e.unit == u && e.run?.isSome

/-- Change the instruction with a key. -/
def Slice.modEntry (x : Slice) (key : Nat) (f : Entry → Entry) : Slice :=
  { x with flight := x.flight.map fun e => if e.key = key then f e else e }

/-- The program of the active bank. -/
def Slice.prog (x : Slice) : Option Program := if x.bank then x.prog1 else x.prog0

/-! ### The interlock -/

/-- What the interlock compares for a handle: each alias group that declares it stands for all of the group's handles (R127). -/
def Slice.res (x : Slice) (h : Nat) : List Res :=
  .handle h :: ((x.prog.map (·.alias_)).getD []).filterMap fun a => if a.1 = h then some (.handle (2048 + a.2)) else none

/-- What naming an operand reads or writes; in a DOUBLE group both halves of a tile (R134). -/
def Slice.resOf (x : Slice) (double : Bool) : Operand → List Res
  | .none => []
  | .tile n => if double then [.tile n, .tile (n + 16)] else [.tile n]
  | .tensor t => x.res t.handle

/-- The index tensor that an operand reads. -/
def Slice.idxRes (x : Slice) : Operand → List Res
  | .tensor t => match t.idx with | some i => x.res i.handle | none => []
  | _ => []

/-- SRCC is an output of an instruction: TWOSUM, TWOPROD, RSUMC, RMAX, RMIN, PROOF, ATTN, MERGE, APPEND. -/
def writesC (op : Nat) : Bool := [0x2C, 0x2D, 0x63, 0x64, 0x65, 0x73, 0x90, 0x91, 0xB0].contains op

/-- The operands that an instruction writes, and those that it reads (R126). -/
def outsIns (op : Nat) (os : Operands) : List Operand × List Operand :=
  let m := os.more
  if op = 0x93 then ([os.dst] ++ m.drop 2, [os.a, os.b, os.c, os.pred] ++ m.take 2)
  else if op = 0xA0 then ([os.dst] ++ m, [os.a, os.b, os.c])
  else if writesC op then ([os.dst, os.c], [os.a, os.b, os.pred] ++ m)
  else ([os.dst], [os.a, os.b, os.c, os.pred] ++ m)

/-- The handle of the side table that an ATTN or ATTN_BWD reads (R250). -/
def Slice.sideOf (x : Slice) (op : Nat) (f : Fields) : Option Nat :=
  if (op = 0x90 ∨ op = 0x93) ∧ bits f.imm.toNat 11 11 = 1 then some (x.handle (bits f.imm.toNat 22 12)) else none

/-- The reads and writes that the interlock compares. -/
def Slice.accesses (x : Slice) (op : Nat) (f : Fields) (os : Operands) (double : Bool) : List Res × List Res :=
  let oi := outsIns op os
  let side := (x.sideOf op f).toList.flatMap x.res
  ((oi.2.flatMap (x.resOf double)) ++ (os.all.flatMap x.idxRes) ++ side, oi.1.flatMap (x.resOf double))

/-- The comparator that an instruction writes at its completion (R139, R158, R187, R320). -/
def cmpTarget (op : Nat) (f : Fields) : Option (Fin 4) :=
  let imm := f.imm.toNat
  if op = 0x66 ∧ bits imm 34 34 = 1 then some ⟨bits imm 33 32 % 4, by omega⟩
  else if op = 0xA1 ∧ bits imm 50 50 = 1 then some ⟨bits imm 49 48 % 4, by omega⟩
  else none

/-- An earlier instruction that has not completed holds a new one back (R126). -/
def Entry.blocks (e : Entry) (group : Option Nat) (rd wr : List Res) : Bool :=
  !(e.group.isSome && e.group == group) &&
    (e.writes.any (fun r => rd.contains r || wr.contains r) || e.reads.any fun r => wr.contains r)

/-- The sequencer issues: the slice runs, and nothing holds issue. -/
def Slice.canIssue (x : Slice) : Bool :=
  x.state == .running && !x.seq.halted && !x.seq.tickWait && !x.seq.cutStop && x.seq.wait.isNone && x.seq.pred.isNone

/-- Why an instruction does not issue now. -/
inductive Stall where
  | interlock | pred | full (u : Nat)
deriving DecidableEq, Repr

/-- The first reason why an engine instruction does not issue now (R125 to R128, R158). -/
def Slice.stall (x : Slice) (op : Nat) (f : Fields) (rd wr : List Res) : Option Stall :=
  let u := unitOf op
  if f.barrier && !x.flight.isEmpty then some .interlock
  else if x.flight.any (·.blocks (x.seq.group.map (·.num)) rd wr) then some .interlock
  else if (match cmpTarget op f with | some c => x.seq.cmpOpen[c] | none => false) then some .interlock
  else if queueDepth u ≤ (x.queue u).length then some (.full u)
  else none

/-- Show a stall in SEQ_STATUS (R154). -/
def Slice.showStall (x : Slice) (st : Option Stall) : Slice :=
  { x with seq := { x.seq with
      interlock := st == some .interlock, predStall := st == some .pred,
      qfull := match st with | some (.full u) => 1#6 <<< u | _ => 0 } }

/-! ### Element counts (R130, R163, R182, R194) -/

/-- Whether an opcode is a reduction or scan. -/
def isReduce (op : Nat) : Bool := decide (0x60 ≤ op ∧ op < 0x70)

/-- The element count N of an instruction outside a group. -/
def ownCount (op : Nat) (os : Operands) : Nat := if isReduce op then os.a.n else os.dst.n

/-- The counts that the descriptors of an instruction of classes 0x20 to 0x8F must have, given N. -/
def wantCounts (op : Nat) (f : Fields) (os : Operands) (n : Nat) : List (Nat × Operand × Nat) :=
  if isReduce op then
    let pairs := redPairs op f
    let outs := redPositions op f n / max 1 (redLength os.a pairs (redDims f) n)
    let outs := if op = 0x67 then n else outs
    [(1, os.a, n), (2, os.b, n), (4, os.pred, redPositions op f n)] ++
      (if n = 0 then [] else [(0, os.dst, outs), (3, os.c, outs)])
  else [(0, os.dst, n), (1, os.a, n), (2, os.b, n), (3, os.c, n), (4, os.pred, n)]

/-- The strip-shape check of an instruction outside a group (R163, R182, R194, R205), of MERGE, of the attention operands and
of the KV sources (R245, R257, R290, R296). -/
def shapeCheck (op : Nat) (f : Fields) (os : Operands) : Option IssueFault :=
  let h := match os.dst with | .tensor t => t.handle | _ => 0
  let bad (b : Bool) : Option IssueFault := if b then some ⟨0x0104, h, 0⟩ else none
  let ix := indexFault [(0, os.dst), (1, os.a), (2, os.b), (3, os.c), (4, os.pred)]
  if op < 0x90 then
    let want := wantCounts op f os (ownCount op os)
    (((shapeFault want).or (tileFault want))).or ix
  else if op = 0x90 then
    let v := (os.more.head?).getD .none
    let stats := !(os.c == .none)
    let keys := if bits f.imm.toNat 10 10 = 1 then [] else os.b :: (if v == .none then [] else [v])
    let batch := (([os.a, os.dst] ++ keys ++ (if stats then [os.c] else [])).map
      fun o => o.extent 3).eraseDups.length
    bad (os.dst.extent (if bits f.imm.toNat 9 9 = 1 then 0 else 2) != os.a.extent 2 ||
      (!(v == .none) && v.extent 2 != os.b.extent 2) || (stats && os.c.extent 2 != os.a.extent 2) || batch != 1)
  else if op = 0x91 then
    let dv := os.a.extent 0
    let rows := os.a.extent 1
    let p := os.a.extent 2
    bad (os.b.extent 0 != 3 || os.b.extent 1 != rows || os.b.extent 2 != p || os.dst.extent 0 != dv || os.dst.extent 1 != rows ||
      (!(os.c == .none) && (os.c.extent 0 != 3 || os.c.extent 1 != rows)))
  else if op = 0xB0 then
    let many : Option IssueFault := if os.a.extent 2 ≤ 65536 then none else
      some ⟨0x0104, (match os.a with | .tensor t => t.handle | _ => 0), 1⟩
    match os.b with
    | .tensor t => if os.b.extent 2 = os.a.extent 2 then many else some ⟨0x0104, t.handle, 2⟩
    | _ => many
  else if op = 0xB2 then
    bad (os.dst.n != (if f.func.toNat % 4 = 0 then 64 else 16 * bits f.imm.toNat 45 34))
  else none

/-- Units that an instruction runs outside a group; none where a tensor that it names has no element (R121, R130, R182, R202, R231, R257,
R260, R267, R290). -/
def unitsTotal (op : Nat) (f : Fields) (os : Operands) (attn : Option AttnArgs) : Nat :=
  let n := ownCount op os
  if os.all.any Operand.isEmpty then 0
  else if op < 0x60 then ceilDiv n 4096
  else if op < 0x70 then reduceTotal op f os n
  else match op with
    | 0x71 => n / max 1 ((movetDims os).1 * (movetDims os).2)
    | 0x90 => (attn.map attnTotal).getD 0
    | 0x91 => ceilDiv (mergeShape os).2.1 128
    | 0x92 => let d := expandDims f; ceilDiv d.2.1 d.2.2.2.2
    | 0x93 => (attn.map bwdTotal).getD 0
    | 0xB0 => os.a.extent 2
    | _ => if op < 0x90 then ceilDiv n 4096 else 1

/-! ### Attention parameters (R249, R250) -/

/-- The INT32 values of a side table at positions, read as issue reads them. -/
def readSide (r : Run) (o : Operand) : List Nat → Run × List Int
  | [] => (r, [])
  | p :: ps =>
    let x := loadElem r o .int32 p 0xFF
    let y := readSide x.1 o ps
    (y.1, intOfCode .int32 x.2.1 :: y.2)

/-- The widths that HD and P[PBASE + 5] give (R247, R249). -/
def headWidths (hd p5 : Nat) : Nat × Nat :=
  match hd with
  | 0 => (64, 64) | 1 => (96, 96) | 2 => (128, 128) | 3 => (192, 192) | 4 => (256, 256)
  | _ => (p5 % 2 ^ 16, bits p5 31 16)

/-- A positive normal FP32 code. -/
def posNormal (w : Nat) : Bool := decide (0x00800000 ≤ w ∧ w < 0x7F800000)

/-- The parameter checks of R249 that need no side table: the register at fault. -/
def attnParamFault (x : Slice) (f : Fields) (os : Operands) (bwd : Bool) : Option Nat :=
  let imm := f.imm.toNat
  let pb := bits imm 28 23
  let p (i : Nat) : Nat := (x.param (pb + i)).toNat
  let hd := bits imm 53 51
  let w := headWidths hd (p 5)
  let st (o : Operand) (d : Nat) : Nat := match o with | .tensor t => x.staticExtent t.handle d | _ => 1
  let sq := st os.a 2
  let sk := st os.b 2
  let g := (bits imm 50 45 + 1) / max 1 (bits imm 44 39 + 1)
  let bq := min ((bits imm 38 35 + 1) * 16) sq
  let rows := g * bq
  let qf := opFmt os.a
  let qBytes := ceilDiv (rows * w.1 * fmtBits qf) 8 + (if fmtMx qf then rows * w.1 / 32 else 0)
  let margin := p 3 % 2 ^ 32
  let sh := bits (p 3) 34 32
  if sq < p 1 % 2 ^ 32 ∨ sk < p 1 / 2 ^ 32 then some (pb + 1)
  else if !posNormal (p 2 % 2 ^ 32) then some (pb + 2)
  else if f.func.getLsbD 3 ∧ p 2 / 2 ^ 32 = 0 then some (pb + 2)
  else if !bwd && f.func.getLsbD 5 && (decide (0x7F800000 ≤ margin % 2 ^ 31) || decide (2 ^ 31 < margin)) then some (pb + 3)
  else if !bwd && f.func.getLsbD 5 && (sh == 0 || decide (fmtBits (opFmt os.b) ≤ sh)) then some (pb + 3)
  else if 64 < bits (p 4) 38 32 then some (pb + 4)
  else if hd = 5 ∧ (w.1 % 32 ≠ 0 ∨ w.1 < 32 ∨ 1024 < w.1 ∨ w.2 % 32 ≠ 0 ∨ w.2 < 32 ∨ 512 < w.2 ∨ w.1 < w.2 ∨
      w.1 ≠ st os.a 0 ∨ w.1 ≠ st os.b 0 ∨ w.2 ≠ st os.dst (if bits imm 9 9 = 1 then 2 else 0) ∨
      65536 < rows * w.2 ∨ 262144 < qBytes) then some (pb + 5)
  else none

/-- What a KV_SEQ ATTN samples of a layer at issue (R297). -/
def State.sampleKv (s : State) (n l : Nat) : Option KvItem :=
  match s.kv.ctx n, s.layer n l with
  | some c, some x =>
    let w := ((s.ctxPool c).map (·.width)).getD 0
    let b := s.layerBase n l
    some ⟨n, l, x.len, x.high, x.len - x.tokens.length, w, b, b + 0x1C000000, b + 0x38000000, b + 0x3C000000,
      x.tokens.map (·.s0), x.tokens.map (·.s1)⟩
  | _, _ => none

/-- The parameters of an ATTN or ATTN_BWD, or the first failed check (R249, R250, R271). -/
def State.attnArgs (s : State) (k : Nat) (op : Nat) (f : Fields) (os : Operands) : Except IssueFault AttnArgs :=
  let x := s.sl k
  let imm := f.imm.toNat
  let bwd := op == 0x93
  let pb := bits imm 28 23
  let p (i : Nat) : Nat := (x.param (pb + i)).toNat
  match attnParamFault x f os bwd with
  | some r => .error ⟨0x0105, r, 0xFF⟩
  | none =>
    let st (o : Operand) (d : Nat) : Nat := match o with | .tensor t => x.staticExtent t.handle d | _ => 1
    let nb := if os.a.ndim = 4 then os.a.extent 3 else 1
    let side : Operand := match x.sideOf op f with | some h => .tensor (bindPlain x h).t | none => .none
    let has := !(side == .none)
    let run := s.mkRun k 0 false false
    let ng := if f.func.getLsbD 4 ∧ has then bits (p 4) 38 32 else 0
    let batched := !bwd && bits imm 8 8 == 1
    let gl := readSide run side (List.range ng)
    let kl := readSide gl.1 side (if has then List.range' 64 nb else [])
    let sc := readSide kl.1 side (if batched ∧ has then List.range' 1088 nb else [])
    match sc.1.fault with
    | some e => .error ⟨e.code, e.va, 0xFF⟩
    | none =>
      let sk : Int := st os.b 2
      match kl.2.zipIdx.find? (fun v => decide (v.1 < 0 ∨ sk < v.1)) with
      | some v => .error ⟨0x0105, 2 ^ 32 + 64 + v.2, 0xFF⟩
      | none =>
        let kvSeq := !bwd && bits imm 10 10 == 1
        let layer := bits (p 4) 31 16
        let ctxs := if batched then sc.2.map (fun v => (v % 2 ^ 32).toNat) else List.replicate nb (p 4 % 2 ^ 15)
        let views := [os.b] ++ os.more.take 1
        let need := if f.func.getLsbD 0 then none else some 2
        match (if kvSeq then ctxs else []).find? (fun c => !s.kvOk c layer views need) with
        | some c => .error ⟨0x0106, kvArg (c % 2 ^ 15) layer, 0xFF⟩
        | none =>
          let items := (List.range nb).map fun b =>
            let len := min (if has then ((kl.2[b]?).map Int.toNat).getD 0 else p 1 / 2 ^ 32) (os.b.extent 2)
            (⟨len, if kvSeq then s.sampleKv ((ctxs[b]?).getD 0) layer else none⟩ : AttnItem)
          let w := headWidths (bits imm 53 51) (p 5)
          .ok ⟨p 0 % 2 ^ 32, p 0 / 2 ^ 32, p 1 % 2 ^ 32, p 2 % 2 ^ 32, p 2 / 2 ^ 32, p 3 % 2 ^ 32, bits (p 3) 34 32,
            w.1, w.2, bits imm 50 45 + 1, bits imm 44 39 + 1, min ((bits imm 38 35 + 1) * 16) (st os.a 2),
            (bits imm 34 29 + 1) * 16, bits imm 55 54, os.a.extent 2, os.b.extent 2,
            gl.2.map fun v => (v % 2 ^ 32).toNat, items⟩

/-! ### Reel and KV parameters (R289 to R291, R309 to R311) -/

/-- The parameter and counter values that a reel or KV instruction reads at issue. -/
def Slice.issueArgs (x : Slice) (op : Nat) (f : Fields) : List Nat :=
  let imm := f.imm.toNat
  if op = 0xA0 then (List.range 5).map fun i => (x.param (bits imm 55 50 + i)).toNat
  else if op = 0xA1 ∨ op = 0xA2 then [((x.seq.cnt[bits imm 53 51]?).map (·.toNat)).getD 0]
  else if op = 0xB0 ∨ op = 0xB1 ∨ op = 0xB2 then [(x.param (bits imm 55 50)).toNat]
  else []

/-- Two operands agree in format, layout, DIM0 and DIM1 (R311). -/
def sameShape : Operand → Operand → Bool
  | .tensor a, .tensor b => a.fmt == b.fmt && a.planar == b.planar && a.dims.take 2 == b.dims.take 2
  | _, _ => false

/-- The strides that a KV view's bound extents ask for (R276, R311). -/
def viewStrides : Operand → Bool
  | .tensor t => match t.dims with
    | [x, y, z] => y.stride == (x.extent : Int) && z.stride == (x.extent * y.extent : Int)
    | _ => false
  | _ => true

/-- The reel-parameter checks of a ROLL (R309 to R311), with those of the bound values of its views and of the globals table. -/
def rollFault (f : Fields) (os : Operands) (args : List Nat) : Bool :=
  let p (i : Nat) : Nat := (args[i]?).getD 0
  let n := p 0 % 2 ^ 16
  let keys := p 2 / 2 ^ 32
  let land1 := (os.more.head?).getD .none
  decide (n < 2 ∨ 256 < n ∨ n ≤ bits (p 0) 31 16 ∨ p 1 / 2 ^ 32 = 0 ∨ keys = 0 ∨ os.a.extent 2 < keys) ||
    (f.func.getLsbD 3 && p 3 % 2 ^ 32 == 0) || decide (64 < bits (p 3) 38 32) || p 4 % 2 ^ 40 % 4096 != 0 ||
    (f.func.getLsbD 4 && decide (os.c.n < bits (p 3) 38 32)) || [os.a, os.b, os.dst, land1].any (fun o => !viewStrides o) ||
    !sameShape os.a os.dst || decide (os.dst.extent 2 < keys) ||
    (!(os.b == .none) && (!sameShape os.a os.b || !sameShape os.a land1 || decide (land1.extent 2 < keys)))

/-- Context, layer and position of a KV instruction (R289). -/
def kvTarget (args : List Nat) : Nat × Nat × Nat :=
  let p := (args[0]?).getD 0
  (p % 2 ^ 15, bits p 31 16, p / 2 ^ 32)

/-- The tokens of an APPEND (R290). -/
def appendTokens (os : Operands) : Nat := os.a.extent 2

/-- The comparison of POS with L (R291): proceed, complete RECOMPUTE, or fault. -/
inductive PosCheck where
  | ok | recompute (start stop : Nat) | bad
deriving DecidableEq, Repr

/-- R291 for a layer. -/
def State.posCheck (s : State) (n l pos t : Nat) : PosCheck :=
  match s.kv.ctx n, s.layer n l with
  | some c, some x =>
    if pos = x.len then (if pos + t ≤ c.maxTokens then .ok else .bad)
    else if x.len < pos ∧ x.len < x.high then .recompute x.len pos
    else .bad
  | _, _ => .bad

/-- The KV views that an instruction names, and the streams that its pool must have (R276). -/
def kvViews (op : Nat) (os : Operands) : List Operand × Option Nat :=
  if op = 0xB0 then ([os.dst, os.c], some (if os.b == .none then 1 else 2))
  else if op = 0xB1 then ([os.dst], none) else ([], none)

/-- APPEND names a stream-1 source and a stream-1 view together (R276). -/
def kvPaired (op : Nat) (os : Operands) : Bool := op != 0xB0 || ((os.b == .none) == (os.c == .none))

/-- The KV checks at issue, and the RECOMPUTE that an APPEND then ends with (R271, R291). -/
def State.kvIssue (s : State) (op : Nat) (os : Operands) (args : List Nat) : Except IssueFault (Option (Nat × Nat)) :=
  let (n, l, pos) := kvTarget args
  let v := kvViews op os
  if !kvPaired op os || !s.kvOk n l v.1 v.2 then .error ⟨0x0106, kvArg n l, 0xFF⟩
  else if op = 0xB0 ∧ appendTokens os ≠ 0 then
    match s.posCheck n l pos (appendTokens os) with
    | .ok => .ok none
    | .recompute a b => .ok (some (a, b))
    | .bad => .error ⟨0x0107, kvArg n l + pos * 2 ^ 32, 0xFF⟩
  else .ok none

/-! ### All checks (R542) -/

/-- What the checks at issue give: the operands and the parameters read. -/
structure IssueOk where
  opds  : Operands
  attn  : Option AttnArgs
  early : Option (Nat × Nat)
  args  : List Nat
deriving DecidableEq, Repr

/-- The checks at issue, in the order of R542. `grp` marks a member of a STRIP group, whose counts ENDSTRIP checks (R130). -/
def State.issueCheck (s : State) (k op : Nat) (f : Fields) (grp : Bool) : Except IssueFault IssueOk :=
  let x := s.sl k
  let b := bindAll x op f
  let side := (x.sideOf op f).toList.map fun h => (0xFF, bindTensor x h)
  let os := b.1
  let args := x.issueArgs op f
  match bindFault (b.2 ++ side) with
  | some e => .error e
  | none =>
    match (if grp then indexFault [(0, os.dst), (1, os.a), (2, os.b), (3, os.c), (4, os.pred)] else shapeCheck op f os) with
    | some e => .error e
    | none =>
      if op = 0x90 ∨ op = 0x93 then
        match s.attnArgs k op f os with
        | .error e => .error e
        | .ok a => .ok ⟨os, some a, none, args⟩
      else if op = 0xA0 then
        (if rollFault f os args then .error ⟨0x0108, bits f.imm.toNat 49 48, 0xFF⟩ else .ok ⟨os, none, none, args⟩)
      else if 0xB0 ≤ op then
        match s.kvIssue op os args with
        | .error e => .error e
        | .ok early => .ok ⟨os, none, early, args⟩
      else .ok ⟨os, none, none, args⟩

end Sys2Proof.Machine
end

