-- ==== Sys2Proof/Machine/ReelOps.lean ====
section
/-! DEFINITION. Operations of the reel engine: headers (R314, R315), outcomes (R319), the tee's decision (R316, R317, R324),
slots (R321), outbound directions (R318, R403), closing rounds (R313). -/

namespace Sys2Proof.Machine

/-! ### CRC-32 (IEEE 802.3) -/

/-- One bit of the reflected CRC-32. -/
def crcBit (c : W32) : W32 := if c.getLsbD 0 then (c >>> 1) ^^^ 0xEDB88320#32 else c >>> 1

/-- One byte of the reflected CRC-32. -/
def crcByte (c : W32) (b : Byte) : W32 :=
  crcBit (crcBit (crcBit (crcBit (crcBit (crcBit (crcBit (crcBit (c ^^^ b.setWidth 32))))))))

/-- The CRC-32 of bytes. -/
def crc32 (l : List Byte) : Nat := ((l.foldl crcByte 0xFFFFFFFF#32) ^^^ 0xFFFFFFFF#32).toNat

/-! ### Ports, rounds and headers -/

/-- A field of bytes. -/
def fieldOf (l : List Byte) (off n : Nat) : Nat := ofLeBytes ((l.drop off).take n)

/-- Port 0 is REEL_A, port 1 REEL_B. -/
def State.rport (s : State) (p : Nat) : ReelPort := if p = 0 then s.reel.portA else s.reel.portB

/-- Change a port. -/
def State.modRport (s : State) (p : Nat) (f : ReelPort → ReelPort) : State :=
  if p = 0 then { s with reel := { s.reel with portA := f s.reel.portA } }
  else { s with reel := { s.reel with portB := f s.reel.portB } }

/-- The round of a channel. -/
def State.round (s : State) (r : Nat) : Round := (s.reel.rounds[r]?).getD Round.reset

/-- Change the round of a channel. -/
def State.modRound (s : State) (r : Nat) (f : Round → Round) : State :=
  { s with reel := { s.reel with rounds := s.reel.rounds.setIfInBounds r (f (s.round r)) } }

/-- A REEL entry (R546). -/
def State.logReel (s : State) (code rch port k round inject : Nat) : State :=
  s.log 0x0103 7 code false (objData (rch + port * 256) k round inject)

/-- Hops of the forward copy: a of R307; all N - 1 in FWD mode. -/
def Round.fwdHops (r : Round) : Nat := if r.mode = 2 then ceilDiv (r.n - 1) 2 else r.n - 1

/-- Whether step k comes from the forward copy (R307). -/
def Round.isFwd (r : Round) (k : Nat) : Bool := decide (k ≤ r.fwdHops)

/-- The land sequence number of step k (R308). -/
def Round.seq (r : Round) (k : Nat) : Nat :=
  if r.mode = 2 then (if r.isFwd k then 2 * k - 2 else 2 * (r.n - k) - 1) else k - 1

/-- The port on which step k arrives: forward blocks enter on REEL_B (R306). -/
def Round.portOf (r : Round) (k : Nat) : Nat := if r.isFwd k then 1 else 0

/-- What is known of step k. -/
def Round.step (r : Round) (k : Nat) : StepRec := ((r.steps.find? (fun x => x.k == k))).getD ⟨k, none, false, 0, 0, 0, 0⟩

/-- Change what is known of step k. -/
def Round.modStep (r : Round) (k : Nat) (f : StepRec → StepRec) : Round :=
  { r with steps := r.steps.map fun x => if x.k = k then f x else x }

/-- What a header says of a step (R322). -/
def StepRec.withHeader (x : StepRec) (h : List Byte) : StepRec :=
  { x with injectNs := fieldOf h 40 8, kPos0 := fieldOf h 20 4, keys := fieldOf h 24 4 }

/-- The bytes of a header, its CRC last (R314). -/
def sealHeader (h : List Byte) : List Byte := h.take 60 ++ leBytes 4 (crc32 (h.take 60))

/-- A header one hop on: HOPS one more, TTL one less, HEADER_CRC anew (R315). -/
def hopHeader (h : List Byte) : List Byte :=
  sealHeader (h.take 10 ++ leBytes 2 (fieldOf h 10 2 + 1) ++ leBytes 2 (fieldOf h 12 2 - 1) ++ h.drop 14)

/-- Bytes rounded up to whole 64-byte units. -/
def padded (n : Nat) : Nat := ceilDiv n 64 * 64

/-- Payload bytes that a header announces (R315). -/
def payloadBytes (h : List Byte) : Nat :=
  (padded (fieldOf h 32 4) + padded (fieldOf h 36 4)) * (if fieldOf h 5 1 / 4 % 2 = 1 then 2 else 1)

/-- The header of a round's own block for one direction, as it leaves (R314, R315). -/
def Round.header (r : Round) (rch dir now : Nat) : List Byte :=
  let ttl := if dir = 0 then r.fwdHops else r.n - 1 - r.fwdHops
  let flags := dir + (if r.mode = 2 then 2 else 0) + (if r.land1.isSome then 4 else 0)
  let f := (r.land0.map (·.fmt)).getD .fp32
  let pl := (r.land0.map (·.planar)).getD false
  let w := (r.land0.map fun t => ((t.dims[0]?).map (·.extent)).getD 1 * ((t.dims[1]?).map (·.extent)).getD 1).getD 0
  sealHeader (leBytes 4 0x52454C31 ++ leBytes 1 rch ++ leBytes 1 flags ++ leBytes 2 r.pos ++ leBytes 2 r.n ++ leBytes 2 1 ++
    leBytes 2 (ttl - 1) ++ leBytes 2 r.layer ++ leBytes 4 r.round ++ leBytes 4 r.kPos0 ++ leBytes 4 r.keys ++
    leBytes 1 (fmtId f) ++ leBytes 1 (if pl then 1 else 0) ++ leBytes 2 w ++ leBytes 4 r.elemB ++ leBytes 4 r.scaleB ++
    leBytes 8 now ++ leBytes 4 (crc32 r.payload) ++ List.replicate 8 0)

/-! ### The inbound buffer (R318, R403, R404) -/

/-- The 64-byte units of a block. -/
def Blk.total (b : Blk) : Nat := 1 + payloadBytes b.hdr / 64

/-- The block has arrived whole. -/
def Blk.whole (b : Blk) : Bool := decide (b.total ≤ b.got)

/-- What an outbound direction has still to send of an inbound block. -/
def State.outOf (s : State) (id : Nat) : Option OutItem :=
  ([s.reel.portA, s.reel.portB].flatMap fun p => p.cur.toList ++ p.queue).find? fun o => o.isFwd && o.id == id

/-- Units of a block that its buffer need not hold any more: those both forwarded and landed, or only the one of those two that applies
(R318). -/
def State.freed (s : State) (b : Blk) : Nat :=
  let sent := match s.outOf b.id with
    | some o => b.total - o.units
    | none => b.got
  match b.state with
  | .held _ => 0
  | .waiting _ _ => 0
  | .landing _ => min b.laid (min sent b.got)
  | .passing => min sent b.got

/-- Free units of the 256 KiB inbound buffer of a port: the credits that its upstream neighbour holds or is being returned
(R318, R403). -/
def State.bufferSpace (s : State) (p : Nat) : Nat :=
  4096 - ((s.reel.blocks.filter fun b => b.port == p).map fun b => b.got - s.freed b).sum

/-- The block in progress on an inbound direction: the latest, while it has not arrived whole (R404). -/
def State.inProgress (s : State) (p : Nat) : Option Blk :=
  (s.reel.blocks.filter fun b => b.port == p).getLast?.bind fun b => if b.whole then none else some b

/-- More units of a block arrive and are counted (R327). -/
def State.gotUnits (s : State) (b : Blk) (n : Nat) : State :=
  (({ s with reel := { s.reel with
      blocks := s.reel.blocks.map fun (x : Blk) => if x.id = b.id then { x with got := x.got + n } else x } }).modRport b.port
    fun x => { x with rx := x.rx + BitVec.ofNat 64 (64 * n) })

/-- A block has arrived whole. -/
def State.arriveWhole (s : State) (b : Blk) : State := s.gotUnits b (b.total - b.got)

/-- Units of the block in progress arrive as the buffer has space: how many by now is free (log 50). -/
def State.arrive (s : State) (p : Nat) : State :=
  match s.inProgress p with
  | some b => s.draw.2.gotUnits b (s.draw.1 % (min (b.total - b.got) (s.bufferSpace p) + 1))
  | none => s

/-- Units of the blocks that land are written: how many by now is free (log 50). -/
def State.layUnits (s : State) : State :=
  s.reel.blocks.foldl (fun s b =>
    match b.state with
    | .landing _ =>
      if b.got ≤ b.laid then s else
        let x := s.draw
        { x.2 with reel := { x.2.reel with blocks := x.2.reel.blocks.map fun (y : Blk) =>
            if y.id = b.id then { y with laid := y.laid + x.1 % (b.got - b.laid + 1) } else y } }
    | _ => s) s

/-! ### Outcomes, slots, closing -/

/-- Close a round whose injection has left, or never will, and whose foreign steps all have an outcome; INJECTED stands once every copy
has left (R313, R327). -/
def State.closeRound (s : State) (r : Nat) : State :=
  s.modRound r fun x =>
    let y := { x with injected := x.injected || (x.opened && x.left.isEmpty && !x.lost) }
    if x.opened && x.left.isEmpty && x.steps.all (·.outcome.isSome) then { y with opened := false } else y

/-- Give step k of a channel's round its outcome, with the counters and the entry of that outcome (R319, R324, R327). -/
def State.setOutcome (s : State) (r k o inject : Nat) : State :=
  let x := s.round r
  if !x.opened ∨ (x.step k).outcome.isSome ∨ !(x.steps.any (·.k == k)) then s else
    let s := s.modRound r fun x => x.modStep k fun y => { y with outcome := some o, arriveNs := s.now }
    let s := { s with reel := { s.reel with
      corrupt := if o = 3 then sat16 s.reel.corrupt 1 else s.reel.corrupt,
      missed := if o = 4 then sat16 s.reel.missed 1 else s.reel.missed,
      skipped := if o = 1 then sat32 s.reel.skipped 1 else s.reel.skipped } }
    let code := match o with | 2 => 10 | 3 => 4 | 4 => 7 | 6 => 8 | _ => 0
    let s := if code = 0 then s else s.logReel code r (x.portOf k) k x.round inject
    let s := if o = 0 ∨ o = 1 then s else s.irqSet 5
    s.closeRound r

/-- The slot of step k is free: the step NSLOT before it in land sequence was released or did not land (R321). -/
def Round.slotFree (r : Round) (k : Nat) : Bool :=
  let j := r.seq k
  decide (j < r.nslot) ||
    r.steps.any fun x => r.seq x.k == j - r.nslot && (x.released || (match x.outcome with | some o => o != 0 | none => false))

/-- Put a block into the order of readiness of an outbound direction (R316). -/
def queueOut (o : OutItem) (l : List OutItem) : List OutItem := (l.filter fun x => decide (x.id < o.id)) ++ o :: l.filter fun x => !decide (x.id < o.id)

/-- Queue the forward of an inbound block on the port of its direction, where its TTL asks for it (R316). -/
def State.queueForward (s : State) (b : Blk) : State :=
  if fieldOf b.hdr 12 2 = 0 then s else
    let out := fieldOf b.hdr 5 1 % 2
    if (s.rport out).up then
      s.modRport out fun p => { p with queue := queueOut ⟨true, b.id, fieldOf b.hdr 4 1 % 4, b.total⟩ p.queue }
    else s

/-- Drop the blocks that only pass, have arrived whole and wait for nothing more (R318). -/
def State.freeBlocks (s : State) : State :=
  { s with reel := { s.reel with blocks := s.reel.blocks.filter fun b =>
      !(b.state == .passing && b.whole && (s.outOf b.id).isNone) } }

/-- Set the state of a block. -/
def State.setBlk (s : State) (id : Nat) (st : BlkState) : State :=
  { s with reel := { s.reel with blocks := s.reel.blocks.map fun b => if b.id = id then { b with state := st } else b } }

/-- The block passes without landing and goes onward. -/
def State.passBlock (s : State) (b : Blk) : State := ((s.setBlk b.id .passing).queueForward b).freeBlocks

/-- The mask test of R317: some local query token may see some key of the block (R242). -/
def Round.maskPasses (r : Round) (kPos keys : Nat) : Bool :=
  let qLo := r.qPos0
  let qHi := r.qPos0 + r.qLen
  let seen (kp : Nat) : Bool :=
    let lo := if r.causal then max qLo kp else qLo
    let inW := if r.window then
        (let wLo := if r.causal then kp else (kp + 1) - r.width
         decide (max lo wLo < min qHi (kp + r.width)))
      else decide (lo < qHi)
    inW || (r.globals.contains kp && decide (lo < qHi))
  (List.range' kPos keys).any seen

/-- The step that a header's origin stands for at this chip (R307). -/
def Round.stepOf (r : Round) (origin : Nat) : Nat := (r.pos + r.n - origin % max 1 r.n) % max 1 r.n

/-- Whether a header disagrees with the round: format, layout, width, keys beyond the slot, or the step that its HOPS
implies (R319). -/
def Round.disagrees (r : Round) (h : List Byte) : Bool :=
  let k := r.stepOf (fieldOf h 6 2)
  let dir := fieldOf h 5 1 % 2
  let byHops := if dir = 0 then fieldOf h 10 2 else r.n - fieldOf h 10 2
  let t := r.land0
  let f := (t.map fun t => fmtId t.fmt).getD 0
  let pl := (t.map fun t => if t.planar then 1 else 0).getD 0
  let w := (t.map fun t => ((t.dims[0]?).map (·.extent)).getD 1 * ((t.dims[1]?).map (·.extent)).getD 1).getD 0
  let ext := (t.map fun t => ((t.dims[2]?).map (·.extent)).getD 1).getD 0
  fieldOf h 28 1 != f || fieldOf h 29 1 != pl || fieldOf h 30 2 != w || decide (ext < fieldOf h 24 4) || byHops != k

/-- The tee's decision for a block whose header is good (R316, R317, R324). -/
def State.teeBlock (s : State) (b : Blk) : State :=
  let h := b.hdr
  let rch := fieldOf h 4 1 % 4
  let r := s.round rch
  let mode := if fieldOf h 5 1 / 2 % 2 = 1 then 2 else 1
  let num := fieldOf h 16 4
  let inject := fieldOf h 40 8
  let k := r.stepOf (fieldOf h 6 2)
  if r.opened ∧ num = r.round ∧ fieldOf h 8 2 = r.n ∧ mode = r.mode then
    let s := s.modRound rch fun r => r.modStep k fun y => y.withHeader h
    if (r.step k).outcome.isSome ∨ k = 0 then s.passBlock b
    else if r.fwdOnly then (s.setOutcome rch k 4 inject).passBlock b
    else if r.disagrees h then (s.setOutcome rch k 3 inject).passBlock b
    else if !(r.maskPasses (fieldOf h 20 4) (fieldOf h 24 4)) then (s.setOutcome rch k 1 inject).passBlock b
    else if r.slotFree k then (s.setBlk b.id (.landing k)).queueForward b
    else s.setBlk b.id (.waiting k (s.now + s.setting 0x0302))
  else if r.opened ∧ num < r.round then
    (({ s with reel := { s.reel with stale := sat16 s.reel.stale 1 } }).logReel 5 rch b.port k num inject).passBlock b
  else s.setBlk b.id (.held (s.now + s.setting 0x0302))

/-- The block belongs to a round that is open. -/
def Round.owns (r : Round) (b : Blk) : Bool := r.opened && fieldOf b.hdr 16 4 == r.round

/-- Landings that waited for a slot that is now free begin, oldest first; those of a forward-only round end MISSED; a block whose step
has an outcome lands no more (R320, R321, R325). -/
def State.wakeLandings (s : State) : State :=
  s.reel.blocks.foldl (fun s b =>
    match b.state with
    | .landing k =>
      let r := s.round (fieldOf b.hdr 4 1 % 4)
      if r.owns b && (r.step k).outcome.isNone then s else (s.setBlk b.id .passing).freeBlocks
    | .waiting k _ =>
      let rch := fieldOf b.hdr 4 1 % 4
      let r := s.round rch
      if !r.owns b then s.passBlock b
      else if r.fwdOnly then (s.setOutcome rch k 4 (fieldOf b.hdr 40 8)).passBlock b
      else if (r.step k).outcome.isSome then s.passBlock b
      else if r.slotFree k then (s.setBlk b.id (.landing k)).queueForward b
      else s
    | _ => s) s

/-- The rounds of a slice that leaves RUNNING or aborts become forward-only; the entry names the port on which step 1 arrives
(R324, R325). DESIGN CHOICE, unsafe (log 51). -/
def State.forwardOnly (s : State) (slice : Nat) : State :=
  ((List.range 4).foldl (fun s r =>
    let x := s.round r
    if x.opened ∧ !x.fwdOnly ∧ x.slice = slice then
      (s.modRound r fun x => { x with fwdOnly := true }).logReel 9 r (x.portOf 1) 0 x.round 0
    else s) s).wakeLandings

/-! ### Outbound directions -/

/-- Send what the credits of a port, and what has arrived of a block that is forwarded, allow of its current item; a finished forward counts, a finished injection copy has
left (R312, R318, R403). -/
def State.pump (s : State) (p : Nat) : State :=
  let x := s.rport p
  match x.cur with
  | none => s
  | some o =>
    let here := match o.isFwd, s.reel.blocks.find? (fun b => b.id == o.id) with
      | true, some b => b.got - (b.total - o.units)
      | _, _ => o.units
    let n := min x.credits (min here o.units)
    let rest := o.units - n
    let s := s.modRport p fun x => { x with
      credits := x.credits - n, tx := x.tx + BitVec.ofNat 64 (64 * n), aborted := x.aborted && n == 0,
      cur := if rest = 0 then none else some { o with units := rest } }
    if rest ≠ 0 then s
    else if o.isFwd then
      ({ s with reel := { s.reel with forwarded := sat32 s.reel.forwarded 1 } }).freeBlocks
    else (s.modRound o.round fun r => { r with left := r.left.filter (· != p) }).closeRound o.round

/-- The next block of an idle outbound direction starts (R316). -/
def State.startOut (s : State) (p : Nat) : State :=
  let x := s.rport p
  match x.cur, x.queue with
  | none, o :: rest =>
    if !x.up ∨ x.credits = 0 then s else
      let hdr := if o.isFwd then hopHeader (((s.reel.blocks.find? (fun b => b.id == o.id)).map (·.hdr)).getD [])
                 else (s.round o.round).header o.round p s.now
      let s := if o.isFwd then s else s.modRound o.round fun r => { r with began := true }
      (s.modRport p fun x => { x with cur := some o, queue := rest, lastHdr := hdr }).pump p
  | _, _ => s

/-- An injection at the head of an idle direction starts (R312, R316). -/
def State.startInjection (s : State) (p : Nat) : State :=
  if (s.rport p).queue.head?.any (fun o => !o.isFwd) then s.startOut p else s

/-- A nanosecond of the reel ports: bytes arrive, land and go onward (R316, R318). -/
def State.reelFlow (s : State) : State :=
  (((((s.arrive 0).arrive 1).layUnits).pump 0).pump 1).freeBlocks

/-- With no command waiting, one nanosecond passes once the time base runs, and the reel ports carry what they carry in it (R318, R350).
DESIGN CHOICE, safe (log 4). -/
def State.idle (s : State) : State :=
  if s.tb.running && !s.pins.resetLow then { s with tb := { s.tb with now := s.tb.now + 1 } }.reelFlow else s

/-- An injection whose header has not left is not sent: the copies leave the queues (R312). DEDUCED: the injection completes once its
first header has left, and only then. -/
def State.cancelInjection (s : State) (r : Nat) : State :=
  let drop (p : ReelPort) : ReelPort := { p with queue := p.queue.filter fun o => o.isFwd || o.round != r }
  ({ s with reel := { s.reel with portA := drop s.reel.portA, portB := drop s.reel.portB } }.modRound r fun x =>
    { x with left := [], lost := true }).closeRound r

/-- A step of a round that must still arrive on a port ends LINK_DOWN (R324); one whose block has arrived whole does not. -/
def State.stepsDown (s : State) (p : Nat) : State :=
  let whole (r k : Nat) : Bool := s.reel.blocks.any fun b => b.port == p && b.whole && fieldOf b.hdr 4 1 % 4 == r &&
    (match b.state with | .landing j | .waiting j _ => j == k | _ => false)
  (List.range 4).foldl (fun s r =>
    let x := s.round r
    if x.opened then
      (x.steps.filter fun y => y.outcome.isNone && x.portOf y.k == p && !whole r y.k).foldl (fun s y =>
        s.setOutcome r y.k 5 0) s
    else s) s

end Sys2Proof.Machine
end

