-- ==== Sys2Proof/Machine/Abort.lean ====
section
/-! DEFINITION. How instructions end: completion (R149), tags of external accesses (R26), aborts and high-water marks (R146 to R148,
R545), faults of a slice (R540, R542, R543), draining (R468). -/

namespace Sys2Proof.Machine

/-! ### High-water marks (R147) -/

/-- Replace bits of a memory that a unit of slice `k` addresses. -/
def State.putPart (s : State) (k : Nat) (w : BitWrite) : State :=
  let put (m : Mem) : Mem := m.write w.addr ((m.read w.addr &&& ~~~w.mask) ||| (w.val &&& w.mask))
  match w.space with
  | .store => s.mod k fun x => { x with store := put x.store }
  | .tile => s.mod k fun x => { x with tiles := put x.tiles }
  | .emul => { s with emul := put s.emul }
  | .ext => { s with ext := put s.ext }

/-- Put back the bits of an element. -/
def State.putParts (s : State) (k : Nat) (ws : List BitWrite) : State := ws.foldl (fun s p => s.putPart k p) s

/-- Above a high-water mark each element holds its new value or the one it replaced, freely (R104, R147); where the unit writes its
outputs only when they are complete (`sure`), the one it replaced (R182). -/
def State.rollback (s : State) (k h : Nat) (sure : Bool) : List ElemWrite → State
  | [] => s
  | w :: ws =>
    if w.unit < h then s.rollback k h sure ws
    else if sure then (s.putParts k w.parts).rollback k h sure ws
    else (if s.draw.1 % 2 = 1 then s.draw.2.putParts k w.parts else s.draw.2).rollback k h sure ws

/-- A reduction writes an output when its tree is complete (R182). -/
def writesWhole (op : Nat) : Bool := decide (0x60 ≤ op ∧ op < 0x67)

/-- The counts up to a high-water mark (R94, R147). -/
def Running.countsAt (r : Running) (h : Nat) : Counts :=
  if h = r.total then (r.snaps.head?).getD Counts.zero
  else if h = 0 then Counts.zero
  else (r.snaps[r.snaps.length - h]?).getD Counts.zero

/-- An instruction was stopped: by a fault, an abort, or its epoch (R152). -/
def stoppedStatus (st : Nat) : Bool := decide (1 ≤ st ∧ st ≤ 5) || st == 8

/-- Free bytes: what the specification leaves open. -/
def State.freeBytes (s : State) : Nat → List Byte × State
  | 0 => ([], s)
  | n + 1 =>
    let d := s.draw
    let y := d.2.freeBytes n
    (BitVec.ofNat 8 d.1 :: y.1, y.2)

/-! ### Members of a STRIP group (R131, R135) -/

/-- How many units more a member of a group may have completed than another one, where the rules bound it. The earlier member's tiles
are read by the later one in each strip, and are not written again before (R131, R135); one unit runs its members in the order
(strip, member). -/
def Entry.ahead (a b : Entry) : Option Nat :=
  if a.group.isNone ∨ a.group ≠ b.group ∨ a.key = b.key then none else
    let double := (a.args[1]?).getD 0 == 1
    let tile (r : Res) : Bool := match r with | .tile _ => true | .handle _ => false
    let inTurn := a.unit == b.unit && !double
    if b.key < a.key then
      if (a.reads.any fun r => tile r && b.writes.contains r) || (a.writes.any fun r => b.reads.contains r) || inTurn then some 0
      else if double then some 2 else none
    else if inTurn then some 1
    else if b.reads.any fun r => tile r && a.writes.contains r then some (if double then 2 else 1)
    else if double then some 2 else none

/-- High-water marks of instructions. -/
abbrev Marks := List (Entry × Nat)

/-- Lower marks until no member is too far ahead of another. -/
def lowerMarks : Nat → Marks → Marks
  | 0, ms => ms
  | n + 1, ms => lowerMarks n (ms.map fun m => (m.1, ms.foldl (fun h o =>
      match m.1.ahead o.1 with | some d => min h (o.2 + d) | none => h) m.2))

/-- Raise the lowest marks until no member is too far behind another. -/
def raiseFloors : Nat → Marks → Marks
  | 0, ms => ms
  | n + 1, ms => raiseFloors n (ms.map fun m => (m.1, ms.foldl (fun h o =>
      match o.1.ahead m.1 with | some d => max h (o.2 - d) | none => h) m.2))

/-- When a member of a group completes, the others cannot stop too far behind it. -/
def Slice.raiseOthers (x : Slice) (e : Entry) (total : Nat) : Slice :=
  if e.group.isNone then x else
    let ms := raiseFloors 16 ((e, total) :: (x.flight.filterMap fun y =>
      if y.group = e.group ∧ y.key ≠ e.key then y.run?.map fun r => (y, r.pend.floor) else none))
    { x with flight := x.flight.map fun y =>
        match y.run?, ms.find? (fun m => m.1.key == y.key) with
        | some r, some m => { y with phase := .running { r with pend := { r.pend with floor := min r.done m.2 } } }
        | _, _ => y }

/-- Every mark that an abort can leave, freely: the running instructions of a slice, latest first; reel and KV instructions stop at
the units done (R147). -/
def State.stopMarks (s : State) (k : Nat) : Marks × State :=
  let x := (s.sl k).flight.foldl (fun (x : Marks × State) e =>
    match e.run? with
    | none => x
    | some r =>
      if stoppedStatus r.status || e.unit == 4 || e.unit == 5 || decide (r.done ≤ r.pend.floor) then ((e, r.done) :: x.1, x.2)
      else ((e, r.pend.floor + x.2.draw.1 % (r.done - r.pend.floor + 1)) :: x.1, x.2.draw.2)) ([], s)
  ((lowerMarks x.1.length x.1).map fun m => (m.1, max m.2 ((m.1.run?.map fun r => r.pend.floor).getD 0)), x.2)

/-! ### Completion records (R149 to R155) -/

/-- What the record of an instruction says (R151). -/
def Entry.recInfo (e : Entry) (status hw total fault : Nat) (cnt : Counts) (fogNs : Nat) (ext : List Byte) : RecInfo :=
  ⟨e.index, e.routine, e.op, status, e.group.isSome, e.fields.crec.toNat, e.frame, hw, total, fault, cnt, fogNs, ext⟩

/-- TIMESTAMP of an instruction's fog record: the completion of the strip that holds the event, a free moment between the
instruction's start and its end, because strips are not timed (R95, R96). DESIGN CHOICE, safe (log 40). -/
def State.fogTime (s : State) (r : Running) (c : Counts) : Nat × State :=
  if c.fog.isNone then (0, s)
  else if s.now ≤ r.startNs then (s.now, s)
  else (r.startNs + s.draw.1 % (s.now - r.startNs + 1), s.draw.2)

/-- Send records to a ring whose last record is answered: each into the slot of WR, until one's write waits for its response. A record
whose write fails at its translation is dropped, and the next takes its slot (R149, R150). Granules written whole lose their poison
(R332); a write to a column in HALT waits (R338). -/
def State.sendRecords (s : State) (k : Nat) : List RecOut → State
  | [] => s.mod k fun x => { x with recOut := [] }
  | o :: os =>
    let c := (s.sl k).cring
    let addr := c.base + c.wr.toNat % max 1 c.entries * 128
    let run := writeVirtual (s.waitingRun (s.mkRun k 0 false false)) (plainTensor c.virt c.domain addr) addr o.bytes
    if run.waits then s.mod k fun x => { x with recOut := o :: os } else
    match run.fault with
    | some f =>
      let s := s.recordLost k o.data
      (if f.code = 0x0103 then s else s.transFault k f).sendRecords k os
    | none =>
      let ext := (run.undo.flatMap (·.parts)).filter fun p => p.space == .ext
      let s := (s.putRun k run).emulWritten run.undo s.ectl.poisoned
      if ext.isEmpty then (s.mod k fun x => { x with cring := { x.cring with wr := x.cring.wr + 1 } }).sendRecords k os
      else s.mod k fun x => { x with recOut := { o with undo := ext } :: os }

/-- The records of a slice whose writes waited for a column in HALT go on (R338). -/
def State.resendRecords (s : State) (k : Nat) : State :=
  match (s.sl k).recOut with
  | [] => s
  | o :: os => if o.undo.isEmpty then s.sendRecords k (o :: os) else s

/-- Write a completion record into the slice's ring, behind those whose writes are not answered (R149, R150, R155). -/
def State.writeRecord (s : State) (k : Nat) (r : RecInfo) : State :=
  let x := s.sl k
  if x.cring.entries ≤ (x.cring.wr - x.cring.rd).toNat + x.recOut.length then s.recordLost k r.entryData
  else
    let o : RecOut := ⟨recordBytes s.now r, r.entryData, []⟩
    if x.recOut.isEmpty then s.sendRecords k [o] else s.mod k fun x => { x with recOut := x.recOut ++ [o] }

/-! ### Tags of external accesses (R26, R397) -/

/-- A free tag index of a slice's quadrant: the privileged slice's own reserve first, then the 768 shared ones. R26 does not say which
indices are the reserve, nor which free one is taken: here 768 to 1,023, and the lowest. DESIGN CHOICE, unsafe (log 17). -/
def State.freeTag (s : State) (k : Nat) : Option Nat :=
  let used := (s.ports.tags.filter fun t => t.tag.toNat / 1024 == k / 8).map fun t => t.tag.toNat % 1024
  let own := if k % 8 = 0 then (List.range' 768 256).find? fun i => !used.contains i else none
  own.or (lowestFree used 768)

/-- Serve the accesses that wait for a tag, in the order in which they asked (R26). -/
def State.serveTags (s : State) : State :=
  s.ports.waits.foldl (fun s w =>
    match s.freeTag w.slice with
    | some i =>
      { s with ports := { s.ports with tags := s.ports.tags ++ [{ w with tag := BitVec.ofNat 12 (w.slice / 8 * 1024 + i) }] } }
    | none => { s with ports := { s.ports with waits := s.ports.waits ++ [w] } })
    { s with ports := { s.ports with waits := [] } }

/-- The external accesses of an instruction take a tag each, or wait for one (R26). `exts` lists them, latest first. -/
def State.takeTags (s : State) (k key : Nat) (exts : List ExtAcc) : State :=
  if exts.isEmpty then s
  else { s with ports := { s.ports with waits := s.ports.waits ++ exts.reverse.map fun a => (⟨0, k, key, a⟩ : MTag) } }.serveTags

/-- An instruction waits for a response of its external accesses, or for a tag. -/
def State.tagged (s : State) (k key : Nat) : Bool := (s.ports.tags ++ s.ports.waits).any fun t => t.slice == k && t.key == key

/-- A stopped instruction asks for no more tags; those it holds stay held until they are answered (R397). -/
def State.dropWaits (s : State) (k key : Nat) : State :=
  { s with ports := { s.ports with waits := s.ports.waits.filter fun t => !(t.slice == k && t.key == key) } }

/-! ### What the end of an instruction still does -/

/-- The read-modify-writes of an instruction of which `h` units completed (R104, R147, R209 to R211). -/
def State.settle (s : State) (k h : Nat) (e : Entry) (r : Running) : Running × State :=
  if r.pend.rmws.isEmpty then (r, s) else
    match e.opds.dst with
    | .tensor t =>
      let run := settleRmws e.op e.fields t h r.pend.rmws (s.mkRun k 0 false false)
      ({ r with snaps := r.snaps.map fun c => { c with nonfin := run.cnt.nonfin, fog := run.cnt.fog }, pend := Pend.none },
        s.putRun k run)
    | _ => (r, s)

/-- A SCATTER whose elements other slices or the host have written since it started: each holds the value of one writer, freely
(R104, R208). -/
def State.scatterLands (s : State) (k h : Nat) : List ElemWrite → State
  | [] => s
  | w :: ws =>
    let same := w.parts.all fun p => (match p.space with | .emul => s.emul.read p.addr | _ => s.ext.read p.addr) == p.val
    (if same || decide (h ≤ w.unit) then s
      else if s.draw.1 % 2 = 1 then s.draw.2.putParts k w.parts else s.draw.2).scatterLands k h ws

/-- The granules of the emulsion that were uncorrectable and that a stopped instruction's writes made whole: one not written whole below
its mark holds all of its new bytes or stays poisoned, freely. The answer lists the writes that can still be put back (R147, R332). -/
def State.repoison (s : State) (h : Nat) (undo : List ElemWrite) : List Nat → List ElemWrite × State
  | [] => (undo, s)
  | g :: gs =>
    if writtenWhole (undo.filter fun w => decide (w.unit < h)) g then s.repoison h undo gs
    else if s.draw.1 % 2 = 1 then
      s.draw.2.repoison h (undo.filter fun w => !w.parts.any fun p => p.space == .emul && granuleOf p.addr == g) gs
    else
      let s := s.draw.2
      { s with ectl := { s.ectl with poisoned := g :: s.ectl.poisoned } }.repoison h undo gs

/-- The EXT of an instruction that stops after `h` units: an ATTN's counts by then, without a fade point (R253). -/
def Entry.extAt (e : Entry) (r : Running) (h : Nat) : List Byte :=
  if e.op = 0x90 then (r.countsAt h).ext.take 24 else r.extra

/-- A running instruction keeps its units below `h`: what it wrote above them is as R147 allows. -/
def State.keepUnits (s : State) (k h : Nat) (e : Entry) (r : Running) : Running × State :=
  let x := s.repoison h r.undo r.pend.cleared
  let y := ((x.2.rollback k h (writesWhole e.op) x.1).scatterLands k h r.pend.land).settle k h e r
  ({ y.1 with done := h, undo := [], extra := e.extAt r h, pend := { Pend.none with floor := h } }, y.2)

/-! ### Completion (R149) -/

/-- Feed the completed units of an instruction into the meter slots (R71). -/
def Slice.feedSlots (x : Slice) (r : Running) : Slice :=
  { x with slots := (r.feeds.filter fun f => decide (f.unit < r.done)).foldl (fun v f =>
      let o := (v[f.ctl.slot]?).getD ⟨none, 0, false, false⟩
      v.setIfInBounds f.ctl.slot ⟨some f.ctl, max o.amax f.amax, o.seen || f.seen, o.nonfin || f.nonfin⟩) x.slots }

/-- The comparator that a completed instruction writes (R139, R187, R320). -/
def Entry.cmpResult (e : Entry) (r : Running) : Bool :=
  r.cmpVal.getD (match e.fields.func.toNat % 4 with
    | 0 => false
    | 1 => true
    | _ => e.fields.imm.toNat % 2 ^ 32 == 0)

/-- An instruction leaves its unit: its last writes, meters, comparator, completion record, trace entry, pins (R71, R139, R149, R270,
R381); an ATTN writes an entry for each item that reached its fade point, whose kind, code and fields no table gives: DESIGN CHOICE,
unsafe (log 46). -/
def State.retire (s : State) (k : Nat) (e : Entry) (r0 : Running) : State :=
  let z := (s.scatterLands k r0.done r0.pend.land).settle k r0.done e r0
  let r := z.1
  let s := (r0.pend.fades.reverse.foldl (fun s i =>
    s.log k 6 Config.fadeItemCode.toNat false (objData i.ctx i.layer i.start i.stop)) z.2).mod k fun x =>
    let x := ({ x with flight := x.flight.filter fun y => y.key != e.key }.feedSlots r).raiseOthers e r.done
    match e.cmpW with
    | some c => if stoppedStatus r.status then x else x.setCmp c (e.cmpResult r)
    | none => x
  let crec := e.fields.crec.toNat
  let s := if crec = 1 ∨ crec = 2 ∨ r.status ≠ 0 then
      let c := r.countsAt r.done
      let t := if crec = 2 then s.fogTime r c else (0, s)
      t.2.writeRecord k (e.recInfo r.status r.done r.total r.fault c t.1 r.extra)
    else s
  let s := if e.fields.trace && s.sheet.trace.getLsbD 0 then
      s.log k 2 1 false (instrData e.index e.routine e.op r.status r.done e.frame) true
    else s
  s.kvRelease k e.key

/-! ### Results of APPEND and FIX (R295) -/

/-- EXT of APPEND and FIX (R295). -/
def kvExt (tokens fixed len wait fs fe : Nat) : List Byte :=
  leBytes 4 tokens ++ leBytes 4 fixed ++ leBytes 4 len ++ leBytes 4 (min wait 0xFFFFFFFF) ++ leBytes 8 0 ++ leBytes 4 fs ++
    leBytes 4 fe

/-- The result of APPEND and FIX up to now, in EXT (R295); further fixes and waiting are added. -/
def State.kvNote (s : State) (e : Entry) (r : Running) (fixes wait : Nat) : Running :=
  let t := kvTarget e.args
  let len := ((s.layer t.1 t.2.1).map (·.len)).getD 0
  let done := if e.op = 0xB0 then r.done else 0
  let ext := kvExt done (fieldOf r.extra 4 4 + fixes) len (fieldOf r.extra 12 4 + wait) (fieldOf r.extra 24 4) (fieldOf r.extra 28 4)
  { r with extra := ext }

/-- A running APPEND or FIX stops: its LENGTH and, where it waits for a free group, its WAIT_NS as they are then (R295). -/
def State.kvStopped (s : State) (k : Nat) (e : Entry) : State :=
  match e.run? with
  | some r =>
    if (e.op = 0xB0 ∨ e.op = 0xB1) ∧ r.status = 0 then
      let wait := ((s.kv.waiters.find? fun w => w.slice == k && w.key == e.key && w.kind == .group).map fun w => s.now - w.since).getD 0
      s.mod k fun x => x.modEntry e.key fun e => { e with phase := .running (s.kvNote e r 0 wait) }
    else s
  | none => s

/-! ### Aborts (R146 to R148) -/

/-- A running instruction stops with a high-water mark: at a unit boundary that it has reached (R147). -/
def State.stopEntry (s : State) (k status code : Nat) (e : Entry) (h : Nat) : State :=
  match e.run? with
  | none => s
  | some r =>
    if stoppedStatus r.status then s else
      let x := s.keepUnits k h e r
      (x.2.dropWaits k e.key).mod k fun y => y.modEntry e.key fun e =>
        { e with phase := .running { x.1 with status := status, fault := code } }

/-- An index and its routine, or none (R545). -/
abbrev PcRef := Option (Nat × Option Nat)

/-- The two entries of an abort (R148, R545). -/
def State.logAbort (s : State) (k cause : Nat) (first : PcRef) (gone : List PcRef) : State :=
  let all := first :: gone
  let s := s.log k 2 2 false ([BitVec.ofNat 8 cause, 0] ++ all.flatMap fun p => leBytes 2 ((p.map (·.1)).getD 0xFFFF))
  if all.any (fun p => (p.bind (·.2)).isSome) then
    s.log k 2 3 false (all.flatMap fun p => leBytes 2 ((p.bind (·.2)).getD 0xFFFF))
  else s

/-- The first instruction that never issued: the one at the pc. Once TICKWAIT has issued there is none in the frame, and the index past
it stands, because R148 and R545 do not say what it then is. DESIGN CHOICE, unsafe (log 41). -/
def Slice.firstUnissued (x : Slice) : Nat × Option Nat := (x.seq.pc, x.seq.routine)

/-- The ROLLs that an abort stops before a header of theirs has left send nothing; a sixth argument marks them (R146, R312). -/
def State.cancelRolls (s : State) (k : Nat) : State :=
  (List.range 4).foldl (fun s r =>
    let x := s.round r
    if x.slice = k ∧ !x.began ∧ !x.left.isEmpty ∧ (s.sl k).flight.any (fun e => e.key == x.key && e.run?.isSome) then
      (s.cancelInjection r).mod k fun y => y.modEntry x.key fun e => { e with args := e.args ++ [1] }
    else s) s

/-- Abort the work of a slice: nothing more issues in the frame, queued instructions are discarded, running ones stop
(R146 to R148); its waits end, its pins go, its rounds become forward-only (R270, R325, R548). -/
def State.abortWork (s : State) (k status code : Nat) : State :=
  let x := s.sl k
  let gone : List PcRef := (List.range 6).map fun u => ((x.queue u).head?).map fun e => (e.index, e.routine)
  let s := s.mod k fun x => { x with
    flight := x.flight.filter (·.run?.isSome)
    seq := { x.seq with halted := true, wait := none, pred := none, group := none, interlock := false, predStall := false,
                        qfull := 0 } }
  let s := x.flight.foldl (fun s e => (s.kvStopped k e).kvRelease k e.key) s
  let m := (((s.semLeave k).cancelRolls k).forwardOnly k).stopMarks k
  let s := m.1.foldl (fun s e => s.stopEntry k status code e.1 e.2) m.2
  s.logAbort k status (some x.firstUnissued) gone

/-! ### Draining and faults (R468, R540) -/

/-- A slice leaves RUNNING for DRAINING without edge steps: cause, the state it reaches, its fault code (R444, R468, R470,
R474). -/
def State.drainTo (s : State) (k cause : Nat) (target : SliceState) (fault : Nat) : State :=
  ((s.mod k fun x => { x with drain := some ⟨cause, target, fault⟩, cause := cause, startInc := true, held := false }).toState k
    .draining).forwardOnly k

/-- A fault in the nanosecond of an overexposure: in the same core cycle or not, freely. In it, the fault is the cause of the abort, and the
instructions stopped carry ABORT_FAULT (R364). -/
def State.overFault (s : State) (k code : Nat) : State :=
  if s.draw.1 % 2 = 1 then
    s.draw.2.mod k fun x => { x with flight := x.flight.map fun e =>
      match e.run? with
      | some r => if r.status = 4 then { e with phase := .running { r with status := 2, fault := code } } else e
      | none => e }
  else s.draw.2

/-- A fault raised in a slice, after its entry: the first fault of a running or draining slice governs; its work is aborted
(R468, R540, R542). CAUSE of the abort's entry is 2, ABORT_FAULT, for a unit's own fault too: R545 gives the status that the stopped
instructions carry, which is 1 for the faulting one and 2 for the others. DESIGN CHOICE, unsafe (log 42). -/
def State.faultSlice (s : State) (k code cause : Nat) : State :=
  let x := s.sl k
  let s := s.mod k fun x => { x with faultNs := some s.now }
  if x.state = .running then
    let s := (s.drainTo k cause .faulted code).abortWork k 2 code
    if x.overNs = some s.now then s.overFault k code else s
  else if x.state == .draining && (match x.drain with | some d => d.fault == 0 || d.fault == 0x0701 | none => true) then
    (s.mod k fun x => { x with drain := some ⟨cause, .faulted, code⟩, cause := cause }).abortWork k 2 code
  else s

/-- The entry of a fault that an instruction of a slice raises (R543). -/
def State.logFault (s : State) (k code index : Nat) (routine : Option Nat) (op operand arg : Nat) : State :=
  s.log k 1 code true (faultData index routine op operand arg)

/-- EXT of a move or gather/scatter instruction stopped by an address (R226). -/
def faultExt (f : AccessFault) : List Byte :=
  leBytes 8 f.va ++ leBytes 8 f.pos ++ leBytes 2 f.domain ++ leBytes 1 f.reason ++ leBytes 1 f.access.code ++ leBytes 1 f.level ++
    leBytes 1 f.operand ++ leBytes 2 0 ++ leBytes 8 (if f.reason = 9 then 0 else f.entry)

/-- The access fault that a bound base outside 56 bits is (R121, R542). -/
def Slice.rangeFault (x : Slice) (op : Nat) (f : Fields) (e : IssueFault) : AccessFault :=
  let b := (bindAll x op f).2.flatMap fun y => y.2.1 :: y.2.2.toList
  let dom := ((b.find? (·.range.isSome)).map (·.t.domain)).getD 0
  let o := e.operand % 0x80
  let acc : Access := if o = 0 then (if 0x82 ≤ op ∧ op ≤ 0x84 then .atomic else .write)
    else if o = 3 ∧ writesC op then .write else if o = 5 then .index else .read
  ⟨e.code, e.arg, 0, dom, e.code % 256, acc, 0xFF, e.operand, 0⟩

/-- UNITS_TOTAL of an instruction that fails a check at issue: the units of its operands as bound (R151); a free value for an ATTN or
ATTN_BWD, whose parameters may be what failed. DESIGN CHOICE, safe (log 3). -/
def State.issueUnits (s : State) (k op : Nat) (f : Fields) (grp : Bool) (e : IssueFault) : Nat × State :=
  let x := s.sl k
  let os := (bindAll x op f).1
  if op = 0x90 ∨ op = 0x93 then
    (match s.attnArgs k op f os with
     | .ok a => (unitsTotal op f os (some a), s)
     | .error _ => (s.draw.1 % 2 ^ 32, s.draw.2))
  else if e.code = 0x0102 then (s.draw.1 % 2 ^ 32, s.draw.2)
  else (if grp then ceilDiv (ownCount op os) 4096 else unitsTotal op f os none, s)

/-- An instruction fails a check at issue: its fault entry, its record with no unit run, and the abort of the slice. It counts
as issued (R149, R540, R542). -/
def State.faultAtIssue (s : State) (k op : Nat) (f : Fields) (grp : Bool) (e : IssueFault) : State :=
  let x := s.sl k
  let q := x.seq
  let af := x.rangeFault op f e
  let s := s.logFault k e.code q.pc q.routine op e.operand e.arg
  let s := if e.code / 256 = 2 then s.noteTransFault k af else s
  let ext := if e.code / 256 = 2 ∧ (unitOf op = 1 ∨ unitOf op = 2) then faultExt af else []
  let n := s.issueUnits k op f grp e
  let s := n.2.writeRecord k ⟨q.pc, q.routine, op, 1, grp, f.crec.toNat, q.frame.toNat, 0, n.1, e.code, Counts.zero, 0, ext⟩
  (s.modSeq k fun q => { q with pc := q.pc + 1 }).faultSlice k e.code 5

/-- A started instruction faults: its entry, its stop, and the abort of everything else (R146, R540). `arg` is R541's. -/
def State.faultRunning (s : State) (k : Nat) (e : Entry) (r : Running) (code operand arg : Nat) : State :=
  let s := s.mod k fun x => x.modEntry e.key fun e => { e with phase := .running { r with status := 1, fault := code } }
  (s.logFault k code e.index e.routine e.op operand arg).faultSlice k code 5

end Sys2Proof.Machine
end

