-- ==== Sys2Proof/Machine/Units.lean ====
section
/-! DEFINITION. What the vector, move, gather/scatter and attention units do with an instruction that they start: its units of
progress, alone or as members of a STRIP group (R125, R130 to R135, R147, R231). -/

namespace Sys2Proof.Machine

/-- A member of what starts together, and its working state. -/
abbrev Member := Entry × Run

/-- Unit `u` of an instruction; strips where it is a member of a STRIP group (R130, R182, R202, R203, R257, R260, R267). -/
def unitStep (e : Entry) (r : Run) (u : Nat) : Run :=
  let f := e.fields
  let os := e.opds
  let grp := e.group.isSome
  if e.op < 0x60 then elemStrip e.op f os r u
  else if e.op = 0x67 then (if grp then scanStrip f os r u else scanUnit f os r u)
  else if e.op < 0x70 then (if grp then reduceStrip e.op f os r u else reduceUnit e.op f os r u)
  else match e.op with
    | 0x70 => moveStrip f os r u
    | 0x71 => if grp then movetStrip f os r u else movetTile f os r u
    | 0x72 => fillStrip f os r u
    | 0x73 => proofStrip f os r u
    | 0x80 => gatherStrip f os r u
    | 0x81 => scatterStrip f os r u
    | 0x91 => mergeUnit f os r u
    | 0x92 => expandUnit f os r u
    | 0x93 => match e.attn with | some a => bwdUnit f os a r u | none => r
    | _ => if e.op < 0x90 then scatterOpStrip e.op f os r u else r

/-- Units that an instruction runs outside a group. -/
def Entry.units (e : Entry) : Nat := unitsTotal e.op e.fields e.opds e.attn

/-- A working state over the memories and caches that another one has left. -/
def Run.adopt (r sh : Run) : Run :=
  { r with store := sh.store, tiles := sh.tiles, emul := sh.emul, ext := sh.ext, hub := sh.hub, micro := sh.micro,
           free := sh.free }

/-- Unit `u` of every member in member order, stopping at a fault (R131). -/
def memberUnits (u : Nat) : Run → List Member → Run × List Member
  | sh, [] => (sh, [])
  | sh, (e, r) :: rest =>
    if sh.fault.isSome then (sh, (e, r) :: rest) else
      let r1 := (unitStep e (r.adopt sh) u).endUnit
      let y := memberUnits u r1 rest
      (y.1, (e, r1) :: y.2)

/-- Every unit in order. -/
def allUnits : List Nat → Run → List Member → Run × List Member
  | [], sh, ms => (sh, ms)
  | u :: us, sh, ms => let x := memberUnits u sh ms; allUnits us x.1 x.2

/-- The counts kept last become the final ones. -/
def Run.closeSnaps (r : Run) : Run := { r with snaps := r.cnt :: r.snaps.drop 1 }

/-- The end of a member's run: the counts of its units. -/
def finishMember (m : Member) : Member :=
  (m.1, (if m.2.fault.isSome then { m.2 with cnt := (m.2.snaps.head?).getD Counts.zero } else m.2).closeSnaps)

/-- Run what starts together: an ATTN whole, anything else unit by unit. -/
def runMembers (base : Run) (units : Nat) (es : List Entry) : Run × List Member :=
  match es with
  | [e] =>
    match (if e.op = 0x90 ∧ units ≠ 0 then e.attn else none) with
    | some a => let r := (runAttn e.fields e.opds a base).closeSnaps; (r, [(e, r)])
    | none => let x := allUnits (List.range units) base [(e, base)]; (x.1, x.2.map finishMember)
  | _ => let x := allUnits (List.range units) base (es.map fun e => (e, base)); (x.1, x.2.map finishMember)

/-! ### Formats of tile registers (R558) -/

/-- The formats that an instruction leaves in its tile destinations DST and SRCC. -/
def tileFormats (op : Nat) (f : Fields) : Fmt × Fmt :=
  let cf := immFmt f.imm.toNat
  if op < 0x60 then (elemOutFmt op cf, cf)
  else if op = 0x63 then (.fp32, .fp32)
  else if op = 0x66 then (if f.func.toNat % 4 = 2 then .int32 else .mask1, cf)
  else (cf, if op = 0x64 ∨ op = 0x65 then .int32 else cf)

/-- Record the format of a tile destination; with DOUBLE and two strips or more, of both halves (R134). -/
def Slice.noteTile (x : Slice) (o : Operand) (f : Fmt) (both : Bool) : Slice :=
  match o with
  | .tile n =>
    let v := x.seq.tileFmt.setIfInBounds n (fmtId f)
    { x with seq := { x.seq with tileFmt := if both then v.setIfInBounds (n + 16) (fmtId f) else v } }
  | _ => x

/-! ### Errors of memory words (R330, R544) -/

/-- Corrected errors: in the emulsion, or in the slice store and the tile registers (R330, R544). -/
def State.softSingles (s : State) (k : Nat) (soft : List SoftErr) : State :=
  soft.foldl (fun s e =>
    if e.double then s else
    match e.place with
    | .emul => s.emulCe e.addr.toNat false
    | .table | .wrong => s
    | .tile | .store => s.mod k fun x => { x with perf := { x.perf with storeCe := sat16 x.perf.storeCe 1 } }) s

/-- The granules that are uncorrectable for an instruction: those known, and those of its own errors. -/
def State.badGranules (s : State) (soft : List SoftErr) : List Nat :=
  (soft.filter fun e => e.place == .emul && e.double).map (fun e => granuleOf e.addr.toNat) ++ s.ectl.poisoned

/-- The granules of external memory whose reads as page-table entries fail (R221). -/
def badTables (soft : List SoftErr) : List Nat :=
  (soft.filter fun e => e.place == .table && e.double).map fun e => granuleOf e.addr.toNat

/-- ARG of STORE_DATA (R541). -/
def storeArg (e : SoftErr) : Nat :=
  if e.place = .tile then e.addr.toNat % 16384 + e.addr.toNat / 16384 * 2 ^ 56 + 2 ^ 55 else e.addr.toNat

/-- The first uncorrectable word of the slice store or a tile register among an instruction's errors. -/
def storeError (soft : List SoftErr) : Option SoftErr := soft.find? fun e => e.double && (e.place == .tile || e.place == .store)

/-! ### Starting -/

/-- The elements of a SCATTER in memories that others write too, as they stand after its run (R208). -/
def Run.landed (r : Run) : List ElemWrite :=
  r.undo.filterMap fun w =>
    let ps := w.parts.filter fun p => p.space == .emul || p.space == .ext
    if ps.isEmpty then none else some ⟨w.unit, ps.map fun p => { p with val := r.peek p.space p.addr }⟩

/-- What a started instruction has done, from its run. A member of a group that stopped has run the strips before the fault, in the
order (strip, member): DESIGN CHOICE, unsafe (log 43). -/
def Run.running (e : Entry) (r : Run) (units now : Nat) (ext : List Byte) : Running :=
  let pend : Pend := ⟨r.rmws, if e.op = 0x81 then r.landed else [], r.env.poison.filter (writtenWhole r.undo), 0, r.fades⟩
  match r.fault with
  | some f => ⟨units, r.unit, r.undo, r.snaps, r.feeds, none, 1, f.code, ext, now, pend⟩
  | none => ⟨units, if r.env.inGroup then r.unit else units, r.undo, r.snaps, r.feeds, r.cmpVal, r.status, 0, r.extra, now, pend⟩

/-- The state after a member's run, its memories apart: its entry runs, its tags, its tile formats, the emulsion's errors. -/
def State.putMember (s : State) (k units : Nat) (double : Bool) (m : Member) : State :=
  let (e, r) := m
  let ext := match r.fault with
    | some f => if (e.unit = 1 ∨ e.unit = 2) ∧ (f.code / 256 = 2 ∨ f.code = 0x0103) then faultExt f else r.extra
    | none => r.extra
  let tf := tileFormats e.op e.fields
  let both := double && decide (1 < units)
  let s := s.mod k fun x =>
    let x := x.modEntry e.key fun e => { e with phase := .running (r.running e units s.now ext) }
    if units = 0 then x else
      let x := x.noteTile e.opds.dst tf.1 both
      if writesC e.op then x.noteTile e.opds.c tf.2 both else x
  let s := s.emulWritten r.undo r.env.poison
  let s := s.takeTags k e.key r.exts
  let s := r.kvErrs.foldl (fun s v =>
    (s.emulUe v.2.2 false).addErrFade ⟨v.1, v.2.1, none⟩) s
  match r.fault with
  | some f =>
    let s := if f.code = 0x0301 then s.emulUe f.va false else if f.code / 256 = 2 then s.transFault k f else s
    let x := s.keepUnits k r.unit e (r.running e units s.now ext)
    x.2.mod k fun y => y.modEntry e.key fun e => { e with phase := .running x.1 }
  | none => s

/-- The fault entries of the members that faulted, then the abort of the slice (R540, R542). -/
def State.memberFaults (s : State) (k : Nat) (ms : List Member) : State :=
  let bad := ms.filterMap fun m => m.2.fault.map fun f => (m.1, f)
  let s := bad.foldl (fun s b => s.logFault k b.2.code b.1.index b.1.routine b.1.op b.2.operand b.2.va) s
  match bad with
  | [] => s
  | b :: _ => s.faultSlice k b.2.code 5

/-- An uncorrectable word of the slice store or a tile register: the instruction stops in a free unit (R544). -/
def State.storeFault (s : State) (k key : Nat) (se : SoftErr) : State :=
  match (s.sl k).flight.find? (fun e => e.key == key) with
  | none => s
  | some e =>
    match e.run? with
    | none => s
    | some r =>
      if stoppedStatus r.status || decide (r.done ≤ r.pend.floor) then s else
        let d := s.draw
        let x := d.2.keepUnits k (r.pend.floor + d.1 % (r.done - r.pend.floor)) e r
        x.2.faultRunning k e x.1 0x0304 0xFF (storeArg se)

/-- Start instructions of the vector, move, gather/scatter and attention units together: one alone, or the members of a STRIP
group over `n` positions (R125, R131). -/
def State.startMembers (s : State) (k : Nat) (es : List Entry) (n units : Nat) (double : Bool) (soft : List SoftErr) : State :=
  let s0 := s
  let s := s.aliasGranules soft
  let base := s.mkRun k n double (es.any (·.group.isSome))
  let base := s.waitingRun { base with env := { base.env with poison := s.badGranules soft, tables := badTables soft } }
  let x := runMembers base units es
  if x.2.any (fun m => m.2.waits) then s0 else
  let s := (s.softSingles k soft).putRun k { x.1 with misses := (x.2.map (·.2.misses)).foldl (· + ·) 0 }
  let s := if es.any (fun e => e.unit == 3) then s.mod k fun x => { x with arrayGated := false } else s
  let s := x.2.foldl (fun s m => s.putMember k units double m) s
  let s := s.memberFaults k x.2
  match storeError soft, es with
  | some se, e :: _ => s.storeFault k e.key se
  | _, _ => s

/-- Start one instruction of these units. -/
def State.startAlone (s : State) (k : Nat) (e : Entry) (soft : List SoftErr) : State :=
  s.startMembers k [e] (ownCount e.op e.opds) e.units false soft

/-- An ATTN starts only when the trays that it reads are in the hub (R285, R297). -/
def State.attnReady (s : State) (e : Entry) : Bool :=
  match e.attn with
  | some a => a.items.all fun it => match it.kv with | some v => s.trayReady v.ctx v.layer | none => true
  | none => true

end Sys2Proof.Machine
end

