-- ==== Sys2Proof/Machine/KvUnit.lean ====
section
/-! DEFINITION. What the KV port does with APPEND, FIX and PAGEQ (R290 to R296): tokens into trays, fixes, waits. -/

namespace Sys2Proof.Machine

/-- The instruction of slice `k` with a key, and what it has done. -/
def State.running (s : State) (k key : Nat) : Option (Entry × Running) :=
  ((s.sl k).flight.find? (fun e => e.key == key)).bind fun e => e.run?.map fun r => (e, r)

/-- Set what an instruction has done. -/
def State.setRun (s : State) (k key : Nat) (r : Running) : State :=
  s.mod k fun x => x.modEntry key fun e => { e with phase := .running r }

/-- A KV instruction ends with a status. -/
def State.kvEnd (s : State) (k key status wait : Nat) : State :=
  match s.running k key with
  | none => s
  | some (e, r) =>
    let s := { s with kv := { s.kv with waiters := s.kv.waiters.filter fun w => !(w.slice == k && w.key == key) } }
    s.setRun k key (s.kvNote e { r with status := status } 0 wait)

/-- A KV instruction begins to wait. -/
def State.kvWait (s : State) (k key ctx layer : Nat) (kind : KvWaitKind) (deadline : Option Nat) : State :=
  { s with kv := { s.kv with waiters :=
      (s.kv.waiters.filter fun w => !(w.slice == k && w.key == key)) ++ [⟨kind, k, key, ctx, layer, s.now, deadline⟩] } }

/-! ### Tokens (R290) -/

/-- One value of a token: its exact value, its code where the conversion is a bit copy, its number along the value axis. -/
abbrev TokVal := Val × Nat

/-- The values of token `tok` of a source [DQK][KVHEADS][T]. -/
def tokenVals (src : Operand) (opnd tok : Nat) (fmt : Fmt) : Run → List Nat → Run × List TokVal
  | r, [] => (r, [])
  | r, i :: is =>
    match src with
    | .tensor t =>
      let d0 := ((t.dims[0]?).map (·.extent)).getD 1
      let x := loadElem r src fmt (positionOf t.dims [i % max 1 d0, i / max 1 d0, tok]) opnd
      let y := tokenVals src opnd tok fmt (x.1.feed t.meter x.2.2) is
      (y.1, (x.2.2, x.2.1) :: y.2)
    | _ => (r, [])

/-- Convert one group of 32 values of a token into an MX block (R68). -/
def tokenBlock (t : Tensor) (vs : List Val) : List (Nat × Bool) × Nat :=
  let ws := vs.map fun v => v.mul t.rts
  let nanB := nanViaScale t.fmt && ws.any (· == Val.nan)
  let sc := if nanB then 255 else blockScale t.fmt t.safe (amaxOf ws)
  (ws.map fun v => if sc = 255 then (0, false) else encodeElem t.fmt (v.mul (.fin false 1 (127 - (sc : Int)))), sc)

/-- Convert the values of a token into a stream's format, as a store does (R196, R290): the row, and whether each element
saturated. -/
def tokenRow (t : Tensor) (copy : Bool) (vs : List TokVal) : TokenRow × List Bool :=
  if fmtMx t.fmt then
    let bs := (groups32 (vs.length + 1) vs).map fun g => tokenBlock t (g.map (·.1))
    (⟨bs.flatMap fun b => b.1.map (·.1), bs.map (·.2)⟩, bs.flatMap fun b => b.1.map (·.2))
  else
    let cs := vs.map fun v => if copy then (v.2, false) else encodeElem t.fmt (v.1.mul t.rts)
    (⟨cs.map (·.1), []⟩, cs.map (·.2))

/-- Note the saturations, the meter and the fog of a token written at a position of its stream (R71, R94 to R97). -/
def noteToken (r : Run) (t : Tensor) (out pos : Nat) (vs : List TokVal) (row : TokenRow × List Bool) : Run :=
  let d0 := max 1 (((t.dims[0]?).map (·.extent)).getD 1)
  let r := vs.foldl (fun r v => r.feed t.meter v.1) r
  let r := row.2.foldl (fun r b => r.countSat b) r
  (row.1.codes.zipIdx).foldl (fun r c =>
    let v := scaled (decodeElem t.fmt c.1) (if fmtMx t.fmt then (row.1.scales[c.2 / 32]?).getD 127 else 127)
    let off : Int := (pos * t.kvWidth + c.2 : Nat)
    if v.nonfinite then
      r.noteFog ⟨r.unit, off, fogKind v, out, t.dims.length, ([c.2 % d0, c.2 / d0, pos]).take t.dims.length, off⟩
    else r) r

/-- Convert token `tok` of one stream: source, view, the position it takes. -/
def streamToken (r : Run) (src view : Operand) (opnd out tok pos : Nat) : Run × TokenRow :=
  match view with
  | .tensor t =>
    let x := tokenVals src opnd tok t.fmt r (List.range t.kvWidth)
    let row := tokenRow t (isBitCopy t.fmt src view) x.2
    (noteToken x.1 t out pos x.2 row, row.1)
  | _ => (r, ⟨[], []⟩)

/-- The working state of a KV instruction: its units, counts and feeds so far. -/
def State.kvRun (s : State) (k : Nat) (r : Running) (bad : List Nat) : Run :=
  let b := s.mkRun k 0 false false
  { b with env := { b.env with poison := bad }, unit := r.done, cnt := (r.snaps.head?).getD Counts.zero, snaps := r.snaps,
           feeds := r.feeds }

/-- A KV or reel instruction meets a failed access: its fault (R331, R540, R541). -/
def State.accessFault (s : State) (k : Nat) (e : Entry) (r : Running) (f : AccessFault) : State :=
  let s := if f.code = 0x0301 then s.emulUe f.va false else if f.code / 256 = 2 then s.transFault k f else s
  s.faultRunning k e r f.code f.operand f.va

/-- Write the next token of an APPEND into its tray (R290, R292); none while what it reads waits for a column in HALT (R338). -/
def State.appendToken (s : State) (k : Nat) (e : Entry) (r : Running) (n l : Nat) : Option State :=
  match s.layer n l with
  | none => none
  | some x =>
    let os := e.opds
    let a := streamToken (s.waitingRun (s.kvRun k r s.ectl.poisoned)) os.a os.dst 1 0 r.done x.len
    let b := if os.b == .none then (a.1, ⟨[], []⟩) else streamToken a.1 os.b os.c 2 1 r.done x.len
    let run := b.1
    if run.waits then none else
    let s := s.putRun k { run with undo := [] }
    match run.fault with
    | some f => some (s.accessFault k e (s.kvNote e r 0 0) f)
    | none =>
      let run := run.endUnit
      let s := s.modLayer n l fun x =>
        { x with tokens := x.tokens ++ [⟨a.2, b.2⟩], len := x.len + 1, high := max x.high (x.len + 1) }
      let s := s.takeTags k e.key run.exts
      let r := { r with done := r.done + 1, snaps := run.snaps, feeds := run.feeds }
      some (s.setRun k e.key (s.kvNote e r 0 0))

/-! ### Fixes (R292, R293) -/

/-- The timeout of a wait for a free group (R118, R293). -/
def State.fixTimeout (s : State) (e : Entry) : Nat :=
  match e.opds.dst with
  | .tensor t => if t.fixTimeout = 0 then s.setting 0x0202 else t.fixTimeout
  | _ => s.setting 0x0202

/-- Whether an instruction's DST view waits for a free group (R118, R293). -/
def Entry.fixWaits (e : Entry) : Bool := match e.opds.dst with | .tensor t => t.fixWait | _ => false

/-- Begin the fix of the full tray of an instruction (R292, R293). -/
def State.beginFix (s : State) (k : Nat) (e : Entry) (n l : Nat) : State :=
  if ((s.layer n l).map (·.tray)) = some .fixing then s.kvWait k e.key n l .other none else
  let x := s.fixTake k n l true
  match x.1 with
  | .begun => x.2.kvWait k e.key n l .fix none
  | .waitFrame => (x.2.modLayer n l fun y => { y with tray := .full }).kvWait k e.key n l .frame none
  | .noGroup =>
    if e.fixWaits then x.2.kvWait k e.key n l .group (some (x.2.now + x.2.fixTimeout e))
    else x.2.kvEnd k e.key 7 0

/-- A started APPEND or FIX goes on: an APPEND fixes a full tray first, then tokens follow until the tray is full; a FIX fixes a tray that
is FULL and does nothing else (R291, R292, R294). -/
def State.kvGo (s : State) (k key : Nat) : Nat → State
  | 0 => s
  | fuel + 1 =>
    match s.running k key with
    | none => s
    | some (e, r) =>
      let t := kvTarget e.args
      if stoppedStatus r.status then s else
        match s.layer t.1 t.2.1 with
        | none => s
        | some x =>
          if e.op = 0xB1 ∧ x.tray ≠ .full then s.setRun k key (s.kvNote e { r with done := 1, snaps := [Counts.zero] } 0 0)
          else if x.tokens.length = 16 then s.beginFix k e t.1 t.2.1
          else if r.total ≤ r.done then s.setRun k key (s.kvNote e r 0 0)
          else match s.appendToken k e r t.1 t.2.1 with
            | some t => t.kvGo k key fuel
            | none => s

/-- A waiting instruction goes on. -/
def State.kvResume (s : State) (w : KvWaiter) (fixes : Nat) : State :=
  let s := { s with kv := { s.kv with waiters := s.kv.waiters.filter fun v => !(v.slice == w.slice && v.key == w.key) } }
  match s.running w.slice w.key with
  | none => s
  | some (e, r) =>
    (s.setRun w.slice w.key (s.kvNote e r fixes (if w.kind = .group then s.now - w.since else 0))).kvGo w.slice w.key 20

/-- Serve the waiters of groups and frames in the order in which they began to wait (R292, R293). -/
def State.serveWaiters (s : State) : State :=
  s.kv.waiters.foldl (fun s w =>
    if w.kind = .group ∨ w.kind = .frame then
      match s.fixTake w.slice w.ctx w.layer false with
      | (.begun, s') =>
        let wait := if w.kind = .group then s'.now - w.since else 0
        let s' := { s' with kv := { s'.kv with waiters := s'.kv.waiters.map fun (v : KvWaiter) =>
          if v.slice == w.slice && v.key == w.key then { v with kind := .fix, deadline := none } else v } }
        match s'.running w.slice w.key with
        | some (e, r) => s'.setRun w.slice w.key (s'.kvNote e r 0 wait)
        | none => s'
      | _ => s
    else s) s

/-! ### Starting -/

/-- Put a KV instruction into its unit, running; LENGTH of its result is that of its layer (R295). -/
def State.kvBegin (s : State) (k : Nat) (e : Entry) (total : Nat) : State :=
  let t := kvTarget e.args
  let len := ((s.layer t.1 t.2.1).map (·.len)).getD 0
  s.setRun k e.key ⟨total, 0, [], if total = 0 then [Counts.zero] else [], [], none, 0, 0, kvExt 0 0 len 0 0 0, s.now, Pend.none⟩

/-- A KV instruction completes RECOMPUTE (R291). -/
def State.kvRecompute (s : State) (k : Nat) (e : Entry) (a b : Nat) : State :=
  match s.running k e.key with
  | none => s
  | some (e, r) =>
    let t := kvTarget e.args
    let len := ((s.layer t.1 t.2.1).map (·.len)).getD 0
    s.setRun k e.key { r with status := 6, extra := kvExt 0 0 len 0 a b }

/-- An APPEND or FIX that has pinned its context goes on when its tray is in the hub (R285). -/
def State.kvEnter (s : State) (k : Nat) (e : Entry) (n l : Nat) : State :=
  if s.trayReady n l then s.kvGo k e.key 20 else s.kvWait k e.key n l .restore none

/-- Start an APPEND: the check of R271, its pin, the comparison of R291; one that found RECOMPUTE at issue completes so. What ends an
APPEND at its start does not wait for its tray: DEDUCED from R285 and R291, unsafe (log 14). -/
def State.startAppend (s : State) (k : Nat) (e : Entry) : State :=
  let (n, l, pos) := kvTarget e.args
  let t := if e.opds.all.any Operand.isEmpty then 0 else appendTokens e.opds
  let s := s.kvBegin k e t
  let fail (s : State) (code arg : Nat) : State :=
    match s.running k e.key with
    | some (e, r) => s.faultRunning k e r code 0xFF arg
    | none => s
  let v := kvViews e.op e.opds
  if !s.kvOk n l v.1 v.2 then fail s 0x0106 (kvArg n l)
  else
    let s := s.kvPin n l k e.key true
    match e.early with
    | some (a, b) => s.kvRecompute k e a b
    | none =>
      if t = 0 then s.kvEnter k e n l
      else match s.posCheck n l pos t with
        | .bad => fail s 0x0107 (kvArg n l + pos * 2 ^ 32)
        | .recompute a b => s.kvRecompute k e a b
        | .ok => s.kvEnter k e n l

/-- Start a FIX (R271, R294). -/
def State.startFix (s : State) (k : Nat) (e : Entry) : State :=
  let (n, l, _) := kvTarget e.args
  let s := s.kvBegin k e 1
  let v := kvViews e.op e.opds
  if s.kvOk n l v.1 v.2 then (s.kvPin n l k e.key true).kvEnter k e n l
  else match s.running k e.key with
    | some (e, r) => s.faultRunning k e r 0x0106 0xFF (kvArg n l)
    | none => s

/-- Write bytes into a PACKED UINT8 destination, in iteration order. -/
def writeOut (t : Tensor) : Run → Nat → List Byte → Run
  | r, _, [] => r
  | r, p, b :: bs =>
    let o := elemOffset r t p
    let r1 := writeElem o.1 t p 0 o.2 b.toNat
    if r1.fault.isSome then r1 else writeOut t r1 (p + 1) bs

/-- Start a PAGEQ: its records are of one moment (R296). -/
def State.startPageq (s : State) (k : Nat) (e : Entry) : State :=
  let (n, l, pos) := kvTarget e.args
  let s := s.kvBegin k e 1
  match s.running k e.key, e.opds.dst with
  | some (e, r), .tensor t =>
    let recs := s.kvRecords n l (e.fields.func.toNat % 4) (pos / 16) (bits e.fields.imm.toNat 45 34)
    let run := writeOut t (s.kvRun k r s.ectl.poisoned) 0 recs
    let s := s.putRun k run
    match run.fault with
    | some f => (s.rollback k 0 false run.undo).accessFault k e r f
    | none => s.setRun k e.key { r with done := 1, snaps := [Counts.zero], extra := [] }
  | _, _ => s

/-- A started KV instruction is still at work: tokens or its fix are left, or it waits. -/
def State.kvAtWork (s : State) (k : Nat) (e : Entry) (r : Running) : Bool :=
  decide (r.status = 0 ∧ r.done < r.total) || s.kv.waiters.any fun w => w.slice == k && w.key == e.key

/-- Two KV instructions are on one layer of a context. -/
def Entry.sameLayer (a b : Entry) : Bool := (kvTarget a.args).1 == (kvTarget b.args).1 && (kvTarget a.args).2.1 == (kvTarget b.args).2.1

/-- The KV instruction of slice `k` waits for another one of its layer that is at work, or that is ready in its own port and arrived
first: the time of arrival is that of issue, and slices break a tie (R289, R291, R305). -/
def State.kvBusy (s : State) (k : Nat) (e : Entry) : Bool :=
  s.present.any fun j =>
    let x := s.sl j
    (x.flight.any fun f => f.unit == 5 && f.sameLayer e && (match f.run? with | some r => s.kvAtWork j f r | none => false)) ||
      (decide (j ≠ k) && !x.busy 5 && !s.clockStopped j &&
        (match (x.queue 5).head? with
         | some f => f.sameLayer e && (decide (f.issueNs < e.issueNs) || (f.issueNs == e.issueNs && decide (j < k)))
         | none => false))

/-- A PAGEQ reads entries of tables in a column in HALT, and waits (R296, R338). -/
def State.pageqHalted (s : State) (e : Entry) : Bool :=
  let t := kvTarget e.args
  e.op == 0xB2 && e.fields.func.toNat % 4 == 1 &&
    (match s.layer t.1 t.2.1 with | some x => s.haltColumns.contains x.column | none => false)

/-- A started KV instruction that waited for a column in HALT goes on (R338). -/
def State.kvStalled (s : State) (k : Nat) : State :=
  match (s.sl k).flight.find? fun e => e.unit == 5 && e.run?.isSome with
  | some e => if s.kv.waiters.any fun w => w.slice == k && w.key == e.key then s else s.kvGo k e.key 20
  | none => s

/-- Start an instruction of the KV port (R115). -/
def State.startKv (s : State) (k : Nat) (e : Entry) : State :=
  if e.op = 0xB0 then s.startAppend k e else if e.op = 0xB1 then s.startFix k e else s.startPageq k e

end Sys2Proof.Machine
end

