-- ==== Sys2Proof/Machine/ReelUnit.lean ====
section
/-! DEFINITION. What the reel port does with ROLL, TAKE and RELEASE (R309 to R313, R320 to R322). -/

namespace Sys2Proof.Machine

/-! ### The own block (R315) -/

/-- Values per token of an operand: DIM0 times DIM1. -/
def tokenWidth : Operand → Nat
  | .tensor t => t.kvWidth
  | _ => 0

/-- Element bytes of one stream of a block of `n` values (R55, R315). -/
def elemSpan (t : Tensor) (n : Nat) : Nat :=
  if t.planar then ceilDiv n 1024 * (fmtBits t.fmt * 128) else n * packedBytes t.fmt

/-- Whether byte `o` of the element data of `n` values holds an element: bytes beyond the last one are not read (R57). -/
def spanHolds (t : Tensor) (n o : Nat) : Bool :=
  !t.planar || decide (o / (fmtBits t.fmt * 128) * 1024 + o % 128 * 8 < n)

/-- The element bytes of one stream, byte by byte; a byte that holds no element is 0 (log 11). -/
def spanBytes (t : Tensor) (opnd n : Nat) : Run → List Nat → Run × List Byte
  | r, [] => (r, [])
  | r, o :: os =>
    let x := if spanHolds t n o then readByte r t (t.base + o) .read o opnd else (r, 0)
    let y := spanBytes t opnd n x.1 os
    (y.1, x.2 :: y.2)

/-- Bytes padded with zero bytes to a multiple of 64. -/
def padBytes (l : List Byte) : List Byte := l ++ List.replicate (padded l.length - l.length) 0

/-- Scale bytes of one stream (R315). -/
def scaleSpan (t : Tensor) (n : Nat) : Nat := if fmtMx t.fmt then ceilDiv n 32 else 0

/-- One stream of the own block: element bytes and scale bytes, each padded. -/
def streamBytes (r : Run) (o : Operand) (opnd keys : Nat) : Run × List Byte :=
  match o with
  | .tensor t =>
    let n := keys * t.kvWidth
    let e := spanBytes t opnd n r (List.range (elemSpan t n))
    let c := readBytes e.1 { t with base := t.scaleBase } .read 0 (0x80 + opnd) t.scaleBase (scaleSpan t n)
    (c.1, padBytes e.2 ++ padBytes c.2)
  | _ => (r, [])

/-! ### ROLL (R309 to R313) -/

/-- The tensor of an operand. -/
def Operand.tensor? : Operand → Option Tensor
  | .tensor t => some t
  | _ => Option.none

/-- The round that a ROLL opens, with its payload and the global positions read (R310). -/
def rollRound (k : Nat) (e : Entry) (payload : List Byte) (globals : List Nat) (old : Round) (up : Nat → Bool) : Round :=
  let p (i : Nat) : Nat := (e.args[i]?).getD 0
  let f := e.fields.func.toNat
  let n := p 0 % 2 ^ 16
  let mode := f % 4
  let keys := p 2 / 2 ^ 32
  let t := e.opds.a.tensor?
  let w := tokenWidth e.opds.a
  let base : Round := { old with
    opened := true, fwdOnly := false, injected := false, mode := mode, n := n, pos := bits (p 0) 31 16, slice := k, key := e.key,
    round := p 0 / 2 ^ 32, layer := bits (p 3) 63 48, nslot := bits e.fields.imm.toNat 47 45 + 1, stride := p 4 % 2 ^ 40,
    qPos0 := p 1 % 2 ^ 32, qLen := p 1 / 2 ^ 32, kPos0 := p 2 % 2 ^ 32, keys := keys, width := p 3 % 2 ^ 32,
    causal := f.testBit 2, window := f.testBit 3, globals := globals, land0 := e.opds.dst.tensor?,
    land1 := (e.opds.more.head?).bind Operand.tensor?, payload := payload,
    elemB := (t.map fun t => elemSpan t (keys * w)).getD 0, scaleB := (t.map fun t => scaleSpan t (keys * w)).getD 0,
    steps := (List.range' 1 (n - 1)).map fun j => ⟨j, none, false, 0, 0, 0, 0⟩, began := false }
  let dirs := if mode = 2 ∧ base.fwdHops < n - 1 then [0, 1] else [0]
  { base with left := dirs.filter up, lost := dirs.any fun d => !up d }

/-- Whether a header belongs to a round, or is older than it (R317, R324). -/
def Round.claims (r : Round) (h : List Byte) : Bool :=
  let num := fieldOf h 16 4
  decide (num < r.round) ||
    (num == r.round && fieldOf h 8 2 == r.n && (if fieldOf h 5 1 / 2 % 2 = 1 then 2 else 1) == r.mode)

/-- The result of a TAKE, in EXT (R322). -/
def takeExt (r : Round) (k o : Nat) : List Byte :=
  let x := r.step k
  leBytes 8 x.arriveNs ++ leBytes 8 x.injectNs ++ leBytes 4 x.kPos0 ++ leBytes 4 x.keys ++
    leBytes 2 ((r.pos + r.n - k) % max 1 r.n) ++ leBytes 2 k ++ leBytes 1 o ++ leBytes 1 (r.seq k % max 1 r.nslot) ++
    leBytes 1 (if r.isFwd k then 0 else 1) ++ leBytes 1 0

/-- Channel of a TAKE or RELEASE, and its step. -/
def Entry.takeStep (e : Entry) : Nat × Nat := (bits e.fields.imm.toNat 55 54, (e.args[0]?).getD 0)

/-- Keep the outcome that a TAKE of slice `k` has found: its result stands from then on (R320). -/
def State.takeLatch (s : State) (k : Nat) (e : Entry) : State :=
  match e.run? with
  | none => s
  | some r =>
    if e.op ≠ 0xA1 ∨ stoppedStatus r.status ∨ 2 < e.args.length then s else
      let t := e.takeStep
      let rd := s.round t.1
      match (rd.step t.2).outcome with
      | none => s
      | some o => s.mod k fun x => x.modEntry e.key fun e =>
          { e with args := e.args ++ [o],
                   phase := .running { r with done := 1, snaps := [Counts.zero], extra := takeExt rd t.2 o,
                                              cmpVal := some (o == 0) } }

/-- Every TAKE on a channel keeps its outcome before the channel's next round opens. -/
def State.latchTakes (s : State) (rch : Nat) : State :=
  (List.range 32).foldl (fun s k => (s.sl k).flight.foldl (fun s e =>
    if e.op = 0xA1 ∧ e.takeStep.1 = rch then s.takeLatch k e else s) s) s

/-- Open the round of a ROLL: blocks whose hold expired end MISSED, the injection is ready behind what was ready before, held blocks of
the round are decided (R312, R316, R324). -/
def State.openRound (s : State) (rch : Nat) (rd : Round) : State :=
  let s := (s.latchTakes rch).modRound rch fun _ => rd
  let mine (h : List Byte) : Bool := fieldOf h 4 1 % 4 == rch && fieldOf h 16 4 == rd.round && rd.claims h
  let gone := s.reel.expired.filter mine
  let s := { s with reel := { s.reel with expired := s.reel.expired.filter fun h => !mine h } }
  let s := gone.foldl (fun s h =>
    let k := rd.stepOf (fieldOf h 6 2)
    (s.modRound rch fun r => r.modStep k fun y => y.withHeader h).setOutcome rch k 4 (fieldOf h 40 8)) s
  let n := s.reel.nextId
  let s := { s with reel := { s.reel with nextId := n + 1 } }
  let s := rd.left.foldl (fun s p =>
    s.modRport p fun x => { x with queue := queueOut ⟨false, n, rch, 1 + rd.payload.length / 64⟩ x.queue }) s
  let s := (s.reel.blocks.filter fun b => (match b.state with | .held _ => true | _ => false) && fieldOf b.hdr 4 1 % 4 == rch &&
    rd.claims b.hdr).foldl (fun s b => s.teeBlock b) s
  ((s.startInjection 0).startInjection 1).closeRound rch

/-- A reel instruction runs. -/
def State.reelBegin (s : State) (k : Nat) (e : Entry) (done : Nat) : State :=
  s.setRun k e.key ⟨1, done, [], if done = 1 then [Counts.zero] else [], [], none, 0, 0, [], s.now, Pend.none⟩

/-- Start a ROLL on a channel without an open round: the round opens, with the own block and the globals as they are read. Where a read
faults, the round is open without an injection, and the ROLL faults (R312). -/
def State.startRoll (s0 : State) (k : Nat) (e : Entry) (soft : List SoftErr) : State :=
  let bad := s0.badGranules soft
  let p (i : Nat) : Nat := (e.args[i]?).getD 0
  let rch := bits e.fields.imm.toNat 49 48
  let s := (s0.aliasGranules soft).reelBegin k e 0
  match s.running k e.key with
  | none => s
  | some (e, r) =>
    let ng := if e.fields.func.toNat.testBit 4 then bits (p 3) 38 32 else 0
    let g := readSide (s.waitingRun (s.kvRun k r bad)) e.opds.c (List.range ng)
    let keys := p 2 / 2 ^ 32
    let a := streamBytes g.1 e.opds.a 1 keys
    let b := streamBytes a.1 e.opds.b 2 keys
    if b.1.waits then s0 else
    let s := ((s.softSingles k soft).putRun k b.1).takeTags k e.key b.1.exts
    let rd := rollRound k e (a.2 ++ b.2) (g.2.map fun v => (v % 2 ^ 32).toNat) (s.round rch) fun p => (s.rport p).up
    match b.1.fault with
    | some f => (s.openRound rch { rd with payload := [], left := [], lost := true }).accessFault k e r f
    | none => s.openRound rch rd

/-! ### TAKE and RELEASE (R320, R321) -/

/-- The check of TAKE and RELEASE when they start: an open round, a foreign step of it (R320). -/
def State.stepOk (s : State) (e : Entry) : Bool :=
  let t := e.takeStep
  let r := s.round t.1
  r.opened && decide (1 ≤ t.2 ∧ t.2 < r.n)

/-- ARG of REEL_PARAM and REEL_DATA (R541). -/
def reelArg (rch o k : Nat) : Nat := rch + o * 2 ^ 8 + k % 2 ^ 16 * 2 ^ 16

/-- Start a TAKE: its timeout runs from now (R320). -/
def State.startTake (s : State) (k : Nat) (e : Entry) : State :=
  let s := s.reelBegin k e 0
  match s.running k e.key with
  | none => s
  | some (e, r) =>
    let t := e.takeStep
    if !s.stepOk e then s.faultRunning k e r 0x0108 0xFF (reelArg t.1 0 t.2)
    else
      let w := bits e.fields.imm.toNat 46 15
      let e' := { e with args := e.args.take 1 ++ [s.now + (if w = 0 then s.setting 0x0301 else w)] }
      (s.mod k fun x => x.modEntry e.key fun _ => e').takeLatch k e'

/-- Start a RELEASE: the slot of a landed step is free, and landings that waited for it begin (R321). -/
def State.startRelease (s : State) (k : Nat) (e : Entry) : State :=
  let s := s.reelBegin k e 1
  match s.running k e.key with
  | none => s
  | some (e, r) =>
    let t := e.takeStep
    if !s.stepOk e then s.faultRunning k e { r with done := 0, snaps := [] } 0x0108 0xFF (reelArg t.1 0 t.2)
    else
      (s.modRound t.1 fun x => x.modStep t.2 fun y =>
        { y with released := y.released || y.outcome == some 0 }).wakeLandings

/-- An instruction at the head of the reel queue can start: a ROLL waits while its channel's round is open (R313). -/
def State.reelReady (s : State) (e : Entry) : Bool := e.op != 0xA0 || !(s.round (bits e.fields.imm.toNat 49 48)).opened

/-- Start an instruction of the reel port (R115). -/
def State.startReel (s : State) (k : Nat) (e : Entry) (soft : List SoftErr) : State :=
  if e.op = 0xA0 then s.startRoll k e soft else if e.op = 0xA1 then s.startTake k e else s.startRelease k e

end Sys2Proof.Machine
end

