-- ==== Sys2Proof/Machine/Engine.lean ====
section
/-! DEFINITION. What a sequencer does as instructions issue, and what the units do as they start and complete them: issue
(R125 to R131, R158), cuts (R554), STRIP groups (R129 to R131), waits (R144, R145), completion (R149). -/

namespace Sys2Proof.Machine

/-- A slice can issue: its sequencer is free to, and its clock runs (R515). -/
def State.canIssue (s : State) (k : Nat) : Bool := (s.sl k).canIssue && !s.clockStopped k

/-! ### Uncorrectable configuration frames (R498) -/

/-- A frame of a slice is marked uncorrectable (R499). -/
def State.frameBad (s : State) (k frame : Nat) : Bool := s.scrub.bad.contains (k, frame)

/-- The instruction-memory frame of the next instruction, where it is marked; routines lie in the library cache (R496). -/
def State.fetchBad (s : State) (k : Nat) : Option Nat :=
  let x := s.sl k
  let f := (if x.bank then 1024 else 0) + x.seq.pc / 16
  if x.seq.routine.isNone && s.frameBad k f then some f else none

/-- The first marked frame of the descriptor table among those that hold an instruction's descriptors. -/
def State.descBad (s : State) (k op : Nat) (f : Fields) : Option Nat :=
  ((bindAll (s.sl k) op f).2.flatMap fun y => y.2.1.t.handle :: (y.2.2.toList.map (·.t.handle))).findSome? fun h =>
    if s.frameBad k (2048 + h / 2) then some (2048 + h / 2) else none

/-- A slice fetches or reads an uncorrectable word: it faults at once (R498, R500, R541). -/
def State.configFault (s : State) (k op frame : Nat) : State :=
  let q := (s.sl k).seq
  let s := { s with scrub := { s.scrub with
    due := s.scrub.due.filter (·.1 != k)
    lastSlice := k, lastFrame := frame, lastFetch := true, lastValid := true, lastNs := s.tb.now } }
  (s.logFault k 0x0601 q.pc q.routine op 0xFF (frame + 2 ^ 16)).faultSlice k 0x0601 6

/-- What issues when a slice can issue: `t`, unless the instruction's word cannot be fetched (R498). -/
def State.gate (s : State) (k op : Nat) (t : State) : State :=
  if !s.canIssue k then s else
    match s.fetchBad k with
    | some f => s.configFault k op f
    | none => t

/-! ### Cuts (R554) -/

/-- The cut of a slice is armed on an instruction of the current frame. -/
def Slice.cutHits (x : Slice) (index : Nat) (routine : Option Nat) : Bool :=
  x.cut.enable && x.cut.index == index && x.cut.routine == routine && x.cut.frame == x.seq.frame && !x.cut.next

/-- After an instruction has issued: a cut on it fires, and the slice drains what has issued (R554). -/
def State.cutCheck (s : State) (k op index : Nat) (routine : Option Nat) : State :=
  let x := s.sl k
  if x.state = .running ∧ x.cutHits index routine then
    ((s.modSeq k fun q => { q with cutStop := true }).logFault k 0x0701 index routine op 0xFF x.seq.frame.toNat).drainTo k 5
      .faulted 0x0701
  else s

/-! ### Issue -/

/-- Count an instruction issued, and fetched (R559). -/
def Slice.countIssue (x : Slice) : Slice :=
  { x with perf := { x.perf with issued := x.perf.issued + 1, fetched := x.perf.fetched + 1 } }

/-- Note that the instruction at the pc of a routine issues (R554). -/
def Slice.noteSeen (x : Slice) : Slice :=
  match x.seq.routine with
  | none => x
  | some r =>
    let n := ((x.seq.seen.find? (·.1 == r)).map (·.2)).getD 0
    { x with seq := { x.seq with seen := (r, max n (x.seq.pc + 1)) :: x.seq.seen.filter (·.1 != r) } }

/-- An instruction issues: no stall shows, it counts, its effect `f` (which also moves the pc), then a cut on it. -/
def State.issued (s : State) (k op : Nat) (f : Slice → Slice) : State :=
  let q := (s.sl k).seq
  (s.mod k fun x => f ((x.showStall none).countIssue.noteSeen)).cutCheck k op q.pc q.routine

/-- Move the pc past an instruction. -/
def Slice.nextPc (x : Slice) : Slice := { x with seq := { x.seq with pc := x.seq.pc + 1 } }

/-- Why a scalar instruction waits: a comparator that it reads or writes is not resolved (R139, R158). -/
def Slice.cmpStall (x : Slice) (reads writes : List (Fin 4)) : Option Stall :=
  if reads.any (fun c => x.seq.cmpOpen[c]) then some .pred
  else if writes.any (fun c => x.seq.cmpOpen[c]) then some .interlock else none

/-- A scalar instruction: it waits for its comparators, else it issues with its effect (R156, R158). -/
def State.scalar (s : State) (k op : Nat) (reads writes : List (Fin 4)) (f : Slice → Slice) : State :=
  let x := s.sl k
  s.gate k op <|
    match x.cmpStall reads writes with
    | some st => s.setSl k (x.showStall (some st))
    | none => s.issued k op fun x => (f x).nextPc

/-- A control instruction faults: it has issued, it has no completion record (R149, R540). -/
def State.faultControl (s : State) (k op code arg : Nat) : State :=
  let q := (s.sl k).seq
  ((s.logFault k code q.pc q.routine op 0xFF arg).mod k fun x => ((x.showStall none).countIssue).nextPc).faultSlice k code 5

/-! ### Starting (R125, R131) -/

/-- The members of a STRIP group that wait in their queues. -/
def Slice.groupMembers (x : Slice) (g : Nat) : List Entry := x.flight.filter fun e => e.group == some g && e.run?.isNone

/-- Every unit of a closed group is idle with a member at the head of its queue (R131). -/
def Slice.groupReady (x : Slice) (g : Nat) : Bool :=
  (x.seq.group.map (·.num)) != some g &&
    (x.groupMembers g).all fun e => !x.busy e.unit && (match (x.queue e.unit).head? with | some h => h.group == some g | none => false)

/-- Start the members of a closed group, where their units are free (R131). -/
def State.startGroup (s : State) (k g : Nat) (soft : List SoftErr) : State :=
  let x := s.sl k
  if !x.groupReady g then s else
    let es := x.groupMembers g
    let a := (es.head?.map (·.args)).getD []
    let n := (a[0]?).getD 0
    s.startMembers k es n (ceilDiv n 4096) ((a[1]?).getD 0 == 1) soft

/-- The head of a unit's queue starts where the unit is free and nothing holds it (R125); `soft` are the words that it reads in
error. What it reads outside the block then waits for tags, not its start (R26). -/
def State.startHead (s : State) (k u : Nat) (e : Entry) (soft : List SoftErr) : State :=
  match e.group with
  | some g => s.startGroup k g soft
  | none =>
    if (s.sl k).busy u then s
    else if u = 4 then
      (if s.reelReady e then s.startReel k e soft else s)
    else if u = 5 then
      if s.kvBusy k e || s.pageqHalted e then s else
      (let s := (s.aliasGranules soft).softSingles k soft
       { s with ectl := { s.ectl with poisoned := (s.badGranules soft).eraseDups } }.startKv k e)
    else if s.attnReady e then s.startAlone k e soft
    else s

/-- Start the head of a unit's queue, which reads the words in error that INSTRUCTION_START has given (log 24). -/
def State.startUnit (s : State) (k u : Nat) : State :=
  if s.clockStopped k then s else
  match ((s.sl k).queue u).head? with
  | none => if u = 5 then s.kvStalled k else s
  | some e =>
    let t := s.startHead k u e (s.sl k).soft
    if ((t.sl k).queue u).head? = some e then t else t.mod k fun x => { x with soft := [] }

/-! ### Engine instructions -/

/-- The contexts that a KV_SEQ ATTN pins at issue (R270). -/
def attnPins (a : AttnArgs) : List (Nat × Nat) := a.items.filterMap fun it => it.kv.map fun v => (v.ctx, v.layer)

/-- Put a checked instruction into its queue (R125). -/
def State.enqueue (s : State) (k op : Nat) (f : Fields) (grp : Option Nat) (ok : IssueOk) (acc : List Res × List Res) : State :=
  let q := (s.sl k).seq
  let e : Entry := ⟨q.nextKey, op, f, q.pc, q.routine, grp, q.frame.toNat, ok.opds, ok.attn, ok.early, ok.args, acc.1, acc.2,
    cmpTarget op f, s.now, .queued⟩
  let s := s.mod k fun x => { x with
    flight := x.flight ++ [e]
    seq := { x.seq with
      nextKey := x.seq.nextKey + 1
      cmpOpen := match cmpTarget op f with | some c => x.seq.cmpOpen.setIfInBounds c true | none => x.seq.cmpOpen } }
  (match ok.attn with | some a => attnPins a | none => []).foldl (fun (s : State) (p : Nat × Nat) => s.kvPin p.1 p.2 k q.nextKey false) s

/-- Issue an engine instruction (R125 to R131, R542): it stalls, or a check at issue fails, or it enters its queue and starts
at once where its unit is free. -/
def State.issueEngine (s : State) (k op : Nat) (f : Fields) : State :=
  let x := s.sl k
  s.gate k op <|
    let g := if op < 0x90 then x.seq.group else none
    let acc := x.accesses op f (bindAll x op f).1 ((g.map (·.double)).getD false)
    match x.stall op f acc.1 acc.2 with
    | some st => s.setSl k (x.showStall (some st))
    | none =>
      match s.descBad k op f with
      | some d => s.configFault k op d
      | none =>
      match s.issueCheck k op f g.isSome with
      | .error e => (s.mod k fun x => (x.showStall none).countIssue).faultAtIssue k op f g.isSome e
      | .ok ok =>
        let s := (s.enqueue k op f (g.map (·.num)) ok acc).issued k op Slice.nextPc
        if g.isNone && !x.busy (unitOf op) && (x.queue (unitOf op)).isEmpty then s.startUnit k (unitOf op) else s

/-! ### STRIP groups (R129, R130) -/

/-- STRIP opens a group (R129). -/
def State.openGroup (s : State) (k shape : Nat) (double : Bool) : State :=
  s.gate k 0x03 <| s.issued k 0x03 fun x => ({ x with seq := { x.seq with
    group := some ⟨x.seq.groups, double, x.handle shape⟩, groups := x.seq.groups + 1 } }).nextPc

/-- The first member of a group whose counts are not its length (R130). -/
def Slice.groupFault (x : Slice) (g n : Nat) : Option IssueFault :=
  (x.groupMembers g).findSome? fun e => shapeFault (wantCounts e.op e.fields e.opds n)

/-- ENDSTRIP closes the group: its length is read, its members are checked, and they may start (R130, R131). -/
def State.closeGroup (s : State) (k : Nat) : State :=
  let x := s.sl k
  s.gate k 0x04 <| match x.seq.group with
  | some g =>
    let b := bindPlain x g.shape
    let n := b.t.count
    match b.bind with
    | some d => s.faultControl k 0x04 0x0102 (g.shape + d * 2 ^ 16)
    | none =>
      match x.groupFault g.num n with
      | some e => s.faultControl k 0x04 0x0104 e.arg
      | none =>
        (s.issued k 0x04 fun x => ({ x with
          flight := x.flight.map fun (e : Entry) => if e.group = some g.num then { e with args := [n, if g.double then 1 else 0] } else e
          seq := { x.seq with group := none } }).nextPc).startGroup k g.num []
  | none => s

/-! ### Calls (R140, R143) -/

/-- A taken CALL (R140, R141, R559). HBASE and TBASE of a nested CALL count from the table's start and from T0, not from the caller's
bases: R141 says no more than that a routine's h names HBASE + h. DESIGN CHOICE, unsafe (log 44). -/
def Slice.enter (x : Slice) (f : CallFields) : Slice :=
  { x with
    seq := { x.seq with
      stack := ⟨x.seq.pc + 1, x.seq.routine, x.seq.hbase, x.seq.tbase⟩ :: x.seq.stack
      pc := 0, routine := some f.routine.toNat, hbase := f.hbase.toNat, tbase := f.tbase.toNat, pred := none, predStall := false }
    perf := { x.perf with callsTaken := x.perf.callsTaken + 1 } }

/-- A CALL that is not taken. -/
def Slice.skipCall (x : Slice) : Slice :=
  ({ x with seq := { x.seq with pred := none, predStall := false } }).nextPc

/-- A resolved CALL issues, taken or not (R116, R140). -/
def State.issueCall (s : State) (k : Nat) (f : CallFields) : State :=
  s.issued k 0x01 fun x => if f.pred && x.seq.cmp[f.cmp] != f.sense then x.skipCall else x.enter f

/-- CALL: predicated on an unresolved comparator it waits (R143). -/
def State.doCall (s : State) (k : Nat) (f : CallFields) : State :=
  let x := s.sl k
  s.gate k 0x01 <| if f.pred && x.seq.cmpOpen[f.cmp] then
    s.mod k fun x => { x.showStall (some .pred) with seq := { (x.showStall (some .pred)).seq with pred := some ⟨f, x.seq.pc⟩ } }
  else s.issueCall k f

/-- The comparator of a waiting CALL resolves: the instructions fetched on the path not taken are discarded (R143, R545). -/
def State.resolvePred (s : State) (k fall into : Nat) : State :=
  let x := s.sl k
  match x.seq.pred with
  | none => s
  | some p =>
    if x.seq.cmpOpen[p.call.cmp] then s else
      let taken := x.seq.cmp[p.call.cmp] == p.call.sense
      let n := if taken then fall else into
      let first := if taken then p.index + 1 else 0
      let s := s.mod k fun x => { x with
        seq := { x.seq with pred := none }
        perf := { x.perf with fetched := x.perf.fetched + BitVec.ofNat 64 n, discarded := x.perf.discarded + BitVec.ofNat 64 n } }
      let s := if n ≠ 0 ∧ s.sheet.trace.getLsbD 1 then
          s.log k 3 1 false (leBytes 2 p.index ++ leBytes 2 p.call.routine.toNat ++ leBytes 1 (if taken then 0 else 1) ++
            leBytes 1 n ++ leBytes 2 first ++ leBytes 4 x.seq.frame.toNat ++ leBytes 4 0) true
        else s
      s.issueCall k p.call

/-- RET (R140, R141). -/
def State.doRet (s : State) (k : Nat) : State :=
  let x := s.sl k
  s.gate k 0x02 <| match x.seq.stack with
  | c :: rest =>
    s.issued k 0x02 fun x => { x with seq := { x.seq with
      stack := rest, pc := c.pc, routine := c.routine, hbase := c.hbase, tbase := c.tbase } }
  | [] => s

/-! ### Waits (R144, R145, R548) -/

/-- The comparators that a WAIT writes. -/
def waitCmps (f : WaitFields) : List (Fin 4) := if f.cmpEn then [f.cmpHeld, f.cmpAband] else []

/-- The deadline of a WAIT that issues now (R116, R144). -/
def State.waitDeadline (s : State) (f : WaitFields) : Nat :=
  s.now + (if f.timeout = 0 then s.setting 0x0107 else f.timeout.toNat)

/-- A WAIT begins: the slice waits, its comparators are not resolved. -/
def State.beginWait (s : State) (k : Nat) (kind : WaitKind) (f : WaitFields) : State :=
  s.mod k fun x => { x with seq := { x.seq with
    wait := some ⟨kind, s.now, s.waitDeadline f, f, x.seq.pc, x.seq.routine⟩
    cmpOpen := (waitCmps f).foldl (fun v (c : Fin 4) => v.setIfInBounds c.val true) x.seq.cmpOpen } }

/-- The units of QMASK are empty and idle (R145). -/
def Slice.drained (x : Slice) (mask : Nat) : Bool := !(x.flight.any fun e => mask.testBit e.unit)

/-- The DRAIN of a slice ends when its units are empty and idle (R145). -/
def State.checkDrain (s : State) (k : Nat) : State :=
  let x := s.sl k
  match x.seq.wait with
  | some w =>
    match w.kind with
    | .drain m => if x.drained m then s.mod k fun x => x.endWait w true false else s
    | .acquire _ => s
  | none => s

/-- A free semaphore, or one that the slice holds, is acquired at once; otherwise the slice joins the queue (R144, R547). -/
def State.acquireNow (s : State) (k n : Nat) : State :=
  match (s.sl k).seq.wait with
  | none => s
  | some w =>
    let m := s.sem n
    if m.held ∧ m.kind = 1 ∧ m.owner.toNat = k then s.mod k fun x => x.endWait w true false
    else if !m.held ∧ m.waiters.isEmpty then
      let q := s.semTake n k
      q.2.mod k fun x => x.endWait w true q.1
    else s.modSem n fun m => { m with waiters := m.waiters ++ [k] }

/-- WAIT (R144, R145): it issues, and the pc names the next instruction while it waits (R154). -/
def State.doWait (s : State) (k : Nat) (f : WaitFields) (kind : WaitKind) : State :=
  let x := s.sl k
  s.gate k 0x05 <|
    match x.cmpStall [] (waitCmps f) with
    | some st => s.setSl k (x.showStall (some st))
    | none =>
      let s := (s.beginWait k kind f).issued k 0x05 Slice.nextPc
      match kind with
      | .acquire n => s.acquireNow k n
      | .drain _ => s.checkDrain k

/-- A WAIT fails: by its timeout, or to break a wait cycle (R144, R551). -/
def State.failWait (s : State) (k : Nat) (cycle : Bool) : State :=
  match (s.sl k).seq.wait with
  | none => s
  | some w =>
    let s := { s with semu := { s.semu with timeouts := sat16 s.semu.timeouts 1 } }
    let s := s.semLeave k
    if w.fields.toMode then s.mod k fun x => x.endWait w false false
    else
      let kind := match w.kind with | .acquire _ => 0 | .drain _ => 1
      let arg := w.fields.sem.toNat + kind * 2 ^ 8 + (if cycle then 2 ^ 16 else 0)
      ((s.logFault k 0x0401 w.index w.routine 0x05 0xFF arg).mod k fun x => { x with seq := { x.seq with
        wait := none } }).faultSlice k 0x0401 5

/-- SIGNAL: after every earlier instruction has completed, it releases a semaphore that the slice holds (R145). -/
def State.doSignal (s : State) (k n : Nat) : State :=
  let x := s.sl k
  s.gate k 0x06 <| if !x.flight.isEmpty then s
  else if (s.heldBy k).contains n then (s.issued k 0x06 Slice.nextPc).semRelease n false
  else s.faultControl k 0x06 0x0402 n

/-! ### Completion (R149) -/

/-- An instruction has done its work and waits for nothing: a ROLL whose copies have left, a TAKE with an outcome, a KV
instruction that waits for nothing, external accesses that are answered unless it was stopped (R228, R312, R320, R397). -/
def State.finished (s : State) (k : Nat) (e : Entry) : Bool :=
  ((match e.run? with | some r => stoppedStatus r.status | none => false) || !s.tagged k e.key) &&
    (if e.op = 0xA0 then
      (let r := s.round (bits e.fields.imm.toNat 49 48)
       !(r.slice == k && r.key == e.key) || r.left.isEmpty || (match e.run? with | some r => r.status == 1 | none => false))
     else if e.op = 0xA1 then
      (match e.run? with | some r => stoppedStatus r.status || decide (2 < e.args.length) | none => false)
     else !(s.kv.waiters.any fun w => w.slice == k && w.key == e.key))

/-- The fault of a TAKE with TO_MODE 0 that met a failed outcome (R320). -/
def Entry.takeFailed (e : Entry) (r : Running) : Option Nat :=
  match e.args[2]? with
  | some o => if e.op = 0xA1 ∧ r.status = 0 ∧ bits e.fields.imm.toNat 47 47 = 0 ∧ o ≠ 0 ∧ o ≠ 1 then some o else none
  | none => none

/-- The oldest running instruction of a unit completes (R149), unless a read-modify-write of it meets a granule that has become
uncorrectable since it started (R331). -/
def State.completeUnit (s : State) (k u : Nat) : State :=
  if s.clockStopped k then s else
  let pick (s : State) : Option Entry := (s.sl k).flight.find? fun e => e.unit == u && e.run?.isSome
  match pick s with
  | none => s
  | some e0 =>
    let s := s.takeLatch k e0
    match pick s with
    | none => s
    | some e =>
      match e.run? with
      | none => s
      | some r =>
        if !s.finished k e then s else
          match e.takeFailed r with
          | some o => s.faultRunning k e { r with done := 0, snaps := [] } 0x0109 0xFF (reelArg e.takeStep.1 o e.takeStep.2)
          | none =>
          match r.pend.rmws.find? (·.bad s.ectl.poisoned) with
          | some w =>
            let pa := (w.place.head?.map (·.2)).getD 0
            let x := (s.emulUe pa false).keepUnits k w.unit e r
            x.2.faultRunning k e x.1 0x0301 0 pa
          | none =>
            let r := if e.op = 0xA0 ∧ r.status ≠ 1 ∧ e.args.length ≤ 5 then { r with done := 1, snaps := [Counts.zero] } else r
            (s.retire k e r).checkDrain k

end Sys2Proof.Machine
end

