-- ==== Sys2Proof/Machine/AttnInstr.lean ====
section
/-! DEFINITION. The meanings of the instructions of the attention pipeline, 0x90 to 0x93 (R231 to R267): each issues and, where
its unit is free, starts (R125, R542); what its units of progress compute is its own function of Machine/. -/

namespace Sys2Proof.Machine

/-- ATTN (R245): runs query-stationary attention over key-value blocks with masking, softmax and finalisation. -/
def execAttn (k : SliceId) (f : Fields) (s : State) : Host.Outcome State Fault Refusal :=
  act s (s.issueEngine k.val 0x90 f)

/-- MERGE (R257): combines attention partials in ascending index into a normalised or unnormalised output. -/
def execMerge (k : SliceId) (f : Fields) (s : State) : Host.Outcome State Fault Refusal :=
  act s (s.issueEngine k.val 0x91 f)

/-- EXPAND (R259): enlarger pass: up-projects a stored latent into per-head keys and values. -/
def execExpand (k : SliceId) (f : Fields) (s : State) : Host.Outcome State Fault Refusal :=
  act s (s.issueEngine k.val 0x92 f)

/-- ATTN_BWD (R266): key-stationary attention backward pass writing dQ, dK and dV. -/
def execAttnBwd (k : SliceId) (f : Fields) (s : State) : Host.Outcome State Fault Refusal :=
  act s (s.issueEngine k.val 0x93 f)

end Sys2Proof.Machine
end

