-- ==== Sys2Proof/Machine/Control.lean ====
section
/-! DEFINITION. The meanings of the control instructions, 0x00 to 0x07 (R106, R116, R129, R130, R140, R144, R145), of the steps
of waits (R144, R551), of predicated calls (R143) and of units (R125, R149). -/

namespace Sys2Proof.Machine

/-- NOP issues and does nothing (R116). -/
def execNop (k : SliceId) (s : State) : Host.Outcome State Fault Refusal := act s (s.scalar k.val 0x00 [] [] id)

/-- CALL (R140, R143). -/
def execCall (k : SliceId) (f : CallFields) (s : State) : Host.Outcome State Fault Refusal := act s (s.doCall k.val f)

/-- RET (R140). -/
def execRet (k : SliceId) (s : State) : Host.Outcome State Fault Refusal := act s (s.doRet k.val)

/-- STRIP opens a group (R129). -/
def execStrip (k : SliceId) (shape : BitVec 11) (double : Bool) (s : State) : Host.Outcome State Fault Refusal :=
  act s (s.openGroup k.val shape.toNat double)

/-- ENDSTRIP closes the group and lets its members start (R130, R131). -/
def execEndstrip (k : SliceId) (s : State) : Host.Outcome State Fault Refusal := act s (s.closeGroup k.val)

/-- WAIT ACQUIRE (R144). -/
def execWaitAcquire (k : SliceId) (f : WaitFields) (s : State) : Host.Outcome State Fault Refusal :=
  act s (s.doWait k.val f (.acquire f.sem.toNat))

/-- WAIT DRAIN (R145). -/
def execWaitDrain (k : SliceId) (f : WaitFields) (s : State) : Host.Outcome State Fault Refusal :=
  act s (s.doWait k.val f (.drain f.qmask.toNat))

/-- SIGNAL (R145). -/
def execSignal (k : SliceId) (sem : Byte) (s : State) : Host.Outcome State Fault Refusal := act s (s.doSignal k.val sem.toNat)

/-- TICKWAIT: the sequencer idles until its tick edge (R106). -/
def execTickwait (k : SliceId) (s : State) : Host.Outcome State Fault Refusal :=
  act s (s.scalar k.val 0x07 [] [] fun x => { x with seq := { x.seq with tickWait := true } })

/-- INSTRUCTION_START: a free unit starts the head of its queue; `soft` are the words in error that it reads (R125, R131, R330,
R544). Where nothing starts, the next instruction of the slice that starts reads them (log 24). -/
def execInstructionStart (k : SliceId) (u : Fin 6) (soft : List SoftErr) (s : State) : Host.Outcome State Fault Refusal :=
  act s ((s.mod k.val fun x => { x with soft := soft }).startUnit k.val u.val)

/-- INSTRUCTION_COMPLETE: the oldest running instruction of a unit completes (R149). -/
def execInstructionComplete (k : SliceId) (u : Fin 6) (s : State) : Host.Outcome State Fault Refusal :=
  act s (s.completeUnit k.val u.val)

/-- PREDICATE_RESOLVE: `fall` and `into` count what was fetched of the fall-through path and of the routine (R143). -/
def execPredicateResolve (k : SliceId) (fall into : Fin 9) (s : State) : Host.Outcome State Fault Refusal :=
  act s (s.resolvePred k.val fall.val into.val)

/-- WAIT_TIMEOUT: the WAIT of a slice has reached its deadline (R144). -/
def execWaitTimeout (k : SliceId) (s : State) : Host.Outcome State Fault Refusal :=
  act s (match (s.sl k.val).seq.wait with
    | some w => if w.deadline ≤ s.now then s.failWait k.val false else s
    | none => s)

/-- The slice that a slice waits for (R551). -/
def State.waitsFor (s : State) (k : Nat) : Option Nat :=
  match (s.sl k).seq.wait with
  | some w =>
    match w.kind with
    | .acquire n => if (s.sem n).held ∧ (s.sem n).kind = 1 then some (s.sem n).owner.toNat else none
    | .drain _ => none
  | none => none

/-- The slices that are reached from a slice along the waits, in order, up to a count (R551). -/
def State.waitPath (s : State) : Nat → Nat → List Nat
  | 0, _ => []
  | n + 1, k => match s.waitsFor k with
    | some j => j :: s.waitPath n j
    | none => []

/-- The slices of the wait cycle that a slice lies on. -/
def State.waitCycle (s : State) (k : Nat) : List Nat :=
  let p := s.waitPath 32 k
  if p.contains k then k :: p.takeWhile (· != k) else []

/-- The start key of a slice's wait: time, then slice (R374, R551). -/
def State.waitKey (s : State) (k : Nat) : Nat := (((s.sl k).seq.wait).map (·.startNs)).getD 0 * 32 + k

/-- The WAIT of a slice has reached its deadline. -/
def State.waitOver (s : State) (k : Nat) : Bool := match (s.sl k).seq.wait with | some w => decide (w.deadline ≤ s.now) | none => false

/-- Fail the wait with the greatest start key of a cycle; a wait of it whose own timeout falls here counts as that alone, and ends the
cycle (R551). -/
def State.breakCycle (s : State) (k : Nat) : State :=
  let c := s.waitCycle k
  if c.isEmpty then s else
    match c.find? fun j => s.waitOver j with
    | some j => s.failWait j false
    | none =>
      let v := c.foldl (fun a b => if s.waitKey a < s.waitKey b then b else a) k
      match (s.sl v).seq.wait with
      | none => s
      | some w =>
        let s := s.log 0x0109 14 5 false (objData v w.fields.sem.toNat (maskOf c).toNat 0)
        ({ s with semu := { s.semu with cycles := sat16 s.semu.cycles 1 } }).failWait v true

/-- WAIT_FOR_SCAN: at each time-base multiple of 100,000 ns firmware breaks the wait cycles (R551). -/
def execWaitForScan (s : State) : Host.Outcome State Fault Refusal :=
  act s (if s.now % 100000 = 0 ∧ s.fw.running then s.present.foldl (fun s k => s.breakCycle k) s else s)

end Sys2Proof.Machine
end

