-- ==== Sys2Proof/Machine/Dist.lean ====
section
/-! DEFINITION. Distance, latency classes and clock: hop counts (R16, R31), classes (R32), the distance table (R43), operating
points (R33). -/

namespace Sys2Proof.Machine

/-- Hops from a slice to its quadrant's gateway (R31). -/
def gatewayHops (k : Nat) : Nat := (3 - k % 8 / 2) + k % 2 + 1

/-- The difference of two numbers. -/
def absDiff (a b : Nat) : Nat := max a b - min a b

/-- How two quadrants lie: 0 the same, 1 adjacent, 2 diagonal (R44's table of adjacency). -/
def quadRelation (p q : Nat) : Nat := if p = q then 0 else if p + q = 3 then 2 else 1

/-- An entry of the distance table: latency class and hops (R43). -/
def distEntry (cls hops : Nat) : Nat := cls * 32 + hops

/-- The path from a slice to a port of a quadrant (R31, R32). -/
def portPath (k q : Nat) : Nat × Nat :=
  let c := k % 8 / 2
  let r := k % 2
  match quadRelation (k / 8) q with
  | 0 => (if c + r + 1 ≤ 2 then 0 else 1, c + r + 1)
  | 1 => (3, gatewayHops k + 1 + 4)
  | _ => (4, gatewayHops k + 2 + 4)

/-- The path from a slice to another slice (R31, R32). -/
def slicePath (k j : Nat) : Nat × Nat :=
  match quadRelation (k / 8) (j / 8) with
  | 0 =>
    let h := absDiff (k % 8 / 2) (j % 8 / 2) + absDiff (k % 2) (j % 2)
    (if h ≤ 2 then 0 else 1, h)
  | 1 => (3, gatewayHops k + 1 + gatewayHops j)
  | _ => (4, gatewayHops k + 2 + gatewayHops j)

/-- The path from a slice to a hub destination (R31, R32). -/
def hubPath (k : Nat) : Nat × Nat := (2, gatewayHops k + 1)

/-- The VC0 latency of a class, in core cycles (R32). -/
def classLatency : Nat → Nat
  | 0 => 4 | 1 => 8 | 2 => 12 | 3 => 18 | _ => 24

/-- The entry of the distance table of a slice: group and number (R43). -/
def distTable (m : Model) (k g i : Nat) : Nat :=
  let e (p : Nat × Nat) : Nat := distEntry p.1 p.2
  if m.slices ≤ k then 0
  else if g = 0 then (if i < m.mports then e (portPath k (i / 2)) else 0)
  else if g = 1 ∨ g = 2 then (if i + (g - 1) * 8 < m.sports then e (portPath k ((i + (g - 1) * 8) / 4)) else 0)
  else if g = 3 then (if i < 4 then e (hubPath k) else 0)
  else
    let j := (g - 4) * 8 + i
    if j = k ∨ m.slices ≤ j then 0 else e (slicePath k j)

/-- The register DIST_Ss_Gg (R43). -/
def distReg (m : Model) (k g : Nat) : Nat := (List.range 8).foldl (fun n i => n + distTable m k g i * 2 ^ (8 * i)) 0

/-- The core clock of an operating point in MHz (R33). -/
def opMhz : Nat → Nat
  | 0 => 700 | 1 => 1100 | 2 => 1250 | 3 => 1400 | _ => 1500

/-- The nominal voltage of an operating point in mV (R33). -/
def opMv : Nat → Nat
  | 0 => 500 | 1 => 550 | 2 => 600 | 3 => 640 | _ => 680

/-- Core cycles of the operating point in force to nanoseconds, rounded down (R8, R33). -/
def State.cyclesNs (s : State) (c : Nat) : Nat := c * 1000 / opMhz s.power.op

/-- When the next block tick edge is due (R356, R358). -/
def State.nextEdge (s : State) : Nat :=
  if s.setting 0x0102 = 1 then s.tick.last.toNat + s.tick.period else s.tick.next

end Sys2Proof.Machine
end

