-- ==== Sys2Proof/Machine/Cport.lean ====
section
/-! DEFINITION. The control-network port: the answers to register accesses (R400, R401, R407). -/

namespace Sys2Proof.Machine

/-- Present a packet on CPORT: its OP, destination, OFFSET and data word (R400). -/
def State.respond (s : State) (op : Nat) (dst : W12) (off data : Nat) : State :=
  { s with ports := { s.ports with cpResp := some ⟨op, dst, BitVec.ofNat 16 off, BitVec.ofNat 64 data⟩ } }

/-- A WRITE of a node to a register: `t` is the state that the write makes, or none where a register rule refuses it. An
unaddressed block ignores the packet (R401, R407). -/
def State.cpWrite (s : State) (src : W12) (off : Nat) (t : Option State) : State :=
  if !s.node.valid then s else
    match t with
    | some t => t.respond 4 src off 0
    | none => s.respond 5 src off 0

/-- The node that alone may commit domain entries, write the unlock registers and force semaphores is another one (R535). -/
def State.ownerRefuses (s : State) (src : W12) : Bool := s.sec.ownerValid && s.sec.owner != src

end Sys2Proof.Machine
end

