-- ==== Sys2Proof/Machine/Inval.lean ====
section
/-! DEFINITION. Invalidation of cached translations (R223): which entries a range, a domain or everything covers. -/

namespace Sys2Proof.Machine

/-- The domain and bytes that an invalidation names meet those of an entry. -/
def Inval.meets (i : Inval) (dom lo len : Nat) : Bool :=
  match i with
  | .range d va pages => d == dom && decide (lo < va + pages * 4096) && decide (va < lo + len) && pages != 0
  | .whole d => d == dom
  | .all => true

/-- An access of an instruction that was translated through an entry that an invalidation names is not answered yet (R223). -/
def State.inFlight (s : State) (i : Inval) : Bool :=
  (s.ports.tags ++ s.ports.waits).any fun t => i.meets t.acc.domain t.acc.va 64

/-- Remove the matching entries of the micro-TLBs, the hub TLB and the walk cache (R223). -/
def State.invalidate (s : State) (i : Inval) : State :=
  let keepT (t : TlbEntry) : Bool := !i.meets t.domain t.va (2 ^ t.log2)
  let keepW (w : WalkEntry) : Bool := !i.meets w.domain (w.vpn * 2 ^ levelShift w.level) (2 ^ levelShift w.level)
  { s with
    xl := { s.xl with hub := { s.xl.hub with tlb := s.xl.hub.tlb.filter keepT, walkc := s.xl.hub.walkc.filter keepW } }
    slices := s.slices.map fun x => { x with micro := x.micro.filter keepT } }

/-- Invalidate the whole window of a KV context (R272, R299, R301). -/
def State.invalCtx (s : State) (c : KvCtx) : State :=
  s.invalidate (.range c.domain (s.layerBase c.num 0) (2 ^ 36 / 4096))

end Sys2Proof.Machine
end

