-- ==== Sys2Proof/Machine/Mail.lean ====
section
/-! DEFINITION. Mailbox operations: completions and notices (R426, R427, R431, R435), commands in progress and what they hold
(R433, R434), fields of requests (R430), and the checks that many commands share. -/

namespace Sys2Proof.Machine

/-! ### Completions and notices -/

/-- A completion before its time stamp (R431). -/
def cplMsg (seq cmd status flags a b : Nat) (res : List Byte) : List Byte :=
  leBytes 8 0 ++ leBytes 4 seq ++ leBytes 2 cmd ++ leBytes 2 status ++ leBytes 1 flags ++ leBytes 1 0 ++ leBytes 2 a ++
    leBytes 4 b ++ (res ++ List.replicate 40 0).take 40

/-- A message that waits is a notice. -/
def isNotice (m : List Byte) : Bool := fieldOf m 16 1 / 2 % 2 == 1

/-- Post a message in a channel's completion ring, stamped now (R427, R431). -/
def State.postNow (s : State) (c : Nat) (m : List Byte) : State :=
  (s.modChan c fun x => { x with cpls := x.cpls ++ [leBytes 8 s.now ++ m.drop 8], cplWr := x.cplWr + 1 }).irqSet 0

/-- Post a completion, or let it wait behind what waits (R426). -/
def State.postCpl (s : State) (c : Nat) (m : List Byte) : State :=
  let x := s.chan c
  if x.cpls.length < 64 ∧ x.held.isEmpty then s.postNow c m else s.modChan c fun x => { x with held := x.held ++ [m] }

/-- Post a KV_FADE notice; one that finds 16 waiting is dropped (R435). -/
def State.postNotice (s : State) (c : Nat) (res : List Byte) : State :=
  let m := cplMsg 0 0x8001 0 2 0 0 res
  let x := s.chan c
  if x.cpls.length < 64 ∧ x.held.isEmpty then s.postNow c m
  else if (x.held.filter isNotice).length < 16 then s.modChan c fun x => { x with held := x.held ++ [m] }
  else (s.modChan c fun x => { x with lost := sat16 x.lost 1 }).log (0x0200 + c) 10 1 false (objData c 0x8001 0 0)

/-- Messages that wait are posted as entries free (R426, R435). -/
def State.drainHeld (s : State) (c : Nat) : Nat → State
  | 0 => s
  | n + 1 =>
    match (s.chan c).held with
    | m :: rest =>
      if (s.chan c).cpls.length < 64 then ((s.modChan c fun x => { x with held := rest }).postNow c m).drainHeld c n else s
    | [] => s

/-! ### Commands in progress (R433, R434) -/

/-- A field of a command's request. -/
def Cmd.f (m : Cmd) (off n : Nat) : Nat := fieldOf m.msg off n

/-- The command code of a request. -/
def Cmd.code (m : Cmd) : Nat := m.f 0 2

/-- Commands that post their completion later (R438). -/
def continuing (code : Nat) (msg : List Byte) : Bool :=
  (code == 0x06 && fieldOf msg 20 1 == 1) || [0x07, 0x08, 0x09, 0x0A, 0x0F, 0x13, 0x17, 0x18, 0x1A, 0x1E].contains code

/-- Every command that has started and owes its final completion. -/
def State.cmds (s : State) : List Cmd := ((List.range 16).filterMap fun c => (s.chan c).running) ++ s.fw.conts

/-- Change a command in progress. -/
def State.updCmd (s : State) (m : Cmd) (f : Cmd → Cmd) : State :=
  if m.late then { s with fw := { s.fw with conts := s.fw.conts.map fun x => if x = m then f x else x } }
  else s.modChan m.chan fun x => { x with running := some (f m) }

/-- A command posts its final completion and holds nothing more (R433, R434). -/
def State.endCmd (s : State) (m : Cmd) (status a b : Nat) (res : List Byte) : State :=
  let s := if m.late then { s with fw := { s.fw with conts := s.fw.conts.erase m } }
    else s.modChan m.chan fun x => { x with running := none }
  s.postCpl m.chan (cplMsg (m.f 4 4) m.code status (if m.late then 1 else 0) a b res)

/-- An object is held by a command other than the one given (R434). -/
def State.heldByOther (s : State) (m : Cmd) (o : Obj) : Bool := s.cmds.any fun x => x != m && x.objs.contains o

/-- The number of an object in DETAIL_A (R432). -/
def Obj.num : Obj → Nat
  | .slice n | .context n | .pool n | .setting n | .fwSlot n | .column n => n
  | _ => 0

/-- The first object of a list that another command holds. -/
def State.busyObj (s : State) (m : Cmd) (os : List Obj) : Option Obj := os.find? fun o => s.heldByOther m o

/-! ### Fields of requests -/

/-- The first byte at or above offset 16 that no field covers and that is not 0 (R430). -/
def firstBad (msg : List Byte) (defs : List (Nat × Nat)) : Option Nat :=
  (List.range' 16 48).find? fun i =>
    !(defs.any fun d => decide (d.1 ≤ i ∧ i < d.1 + d.2)) && (msg[i]?).getD 0 != 0

/-- How a command ends: status, DETAIL_A, DETAIL_B, results. -/
structure Ends where
  status : Nat
  a      : Nat
  b      : Nat
  res    : List Byte
deriving DecidableEq, Repr

/-- A command ends without a result. -/
def Ends.no (status a b : Nat) : Ends := ⟨status, a, b, []⟩

/-- BAD_FIELD at an offset (R432). -/
def Ends.bad (off : Nat) : Ends := .no 2 off 0

/-- A host buffer that R429 does not allow: its address field's offset. -/
def bufBad (m : Cmd) (off len : Nat) : Bool :=
  let pa := m.f off 8
  decide (pa % 64 ≠ 0 ∨ 2 ^ 52 < pa + len)

/-- The bytes of a host buffer (R429). -/
def State.buffer (s : State) (pa len : Nat) : List Byte := s.ext.readN pa len

/-- Write a host buffer (R429). -/
def State.putBuffer (s : State) (pa : Nat) (l : List Byte) : State := { s with ext := s.ext.writeN pa l }

/-- The command that runs on a channel, where it is the one asked; one that has posted TIMEOUT runs on (R433). Mailbox service
pauses while firmware does not run (R488). -/
def State.cmdOf (s : State) (ch : Channel) (code : Nat) : Option Cmd :=
  if !s.fw.running then none
  else ((s.chan ch.val).running.toList ++ s.fw.conts).find? fun m => m.chan == ch.val && m.code == code && !m.begun

/-- What a command asks for before its state checks: the bytes that its fields cover (R430), its own field and existence checks, the objects
that it holds (R434), and a limit of concurrent operations that it meets (R432). -/
structure CmdNeed where
  defs  : List (Nat × Nat)
  pre   : Cmd → Option Ends := fun _ => none
  objs  : Cmd → List Obj := fun _ => []
  limit : Cmd → Option Ends := fun _ => none

/-- The field and existence checks of a command, in the order of R562. -/
def CmdNeed.fields (n : CmdNeed) (m : Cmd) : Option Ends := ((firstBad m.msg n.defs).map Ends.bad).or (n.pre m)

/-- BUSY: another command holds what this one needs (R434). -/
def State.busy (s : State) (n : CmdNeed) (m : Cmd) : Option Ends :=
  ((s.busyObj m (n.objs m)).map fun o => Ends.no 4 o.num 0).or (n.limit m)

/-- The checks of R430 and R434, in the order of R562. -/
def State.refused (s : State) (n : CmdNeed) (m : Cmd) : Option Ends := (n.fields m).or (s.busy n m)

/-- A command ends as its checks or its effect say. -/
def State.finish (s : State) (m : Cmd) (e : Ends) : State := s.endCmd m e.status e.a e.b e.res

/-- Run the command of a channel whose effect comes with its completion: `f` gives its end and the state after it. -/
def State.command (s : State) (ch : Channel) (code : Nat) (n : CmdNeed) (f : Cmd → Ends × State) : State :=
  match s.cmdOf ch code with
  | none => s
  | some m =>
    match s.refused n m with
    | some e => s.finish m e
    | none => (f m).2.finish m (f m).1

/-- Run a command that may go on after this step (R433): `f` ends it now, or gives what it becomes and the state. It holds its objects on,
but for the library, which only the copy of routines holds (R477). -/
def State.commandGo (s : State) (ch : Channel) (code : Nat) (n : CmdNeed) (f : Cmd → (Ends × State) ⊕ (Cmd × State)) : State :=
  match s.cmdOf ch code with
  | none => s
  | some m =>
    match s.refused n m with
    | some e => s.finish m e
    | none =>
      match f m with
      | .inl x => x.2.finish m x.1
      | .inr x => x.2.updCmd m fun _ => { x.1 with begun := true, objs := (n.objs m).filter (· != .library) }

/-- The first failing check of a list: each a condition and how the command then ends. -/
def checks : List (Bool × Ends) → Option Ends
  | [] => none
  | (b, e) :: rest => if b then some e else checks rest

/-- A command that would write the settings store ends FW_TRIAL unless the running firmware is COMMITTED, and RETRY while
SUPPLY_WARN_N is asserted (R421, R432, R562). -/
def State.storeBlocked (s : State) : Option Ends :=
  checks [(s.fw.state != .committed, .no 14 0 0), (s.pins.supplyWarn, .no 19 0 0)]

/-! ### Slices named by commands -/

/-- The slices of a mask. -/
def slicesOf (w : Nat) : List Nat := maskBits 32 w

/-- A mask names a slice that the chip does not have. -/
def State.absent (s : State) (w : Nat) : Bool := (slicesOf w).any fun k => !s.present.contains k

/-- REFUSED naming a slice and its state (R432). -/
def State.refuseSlice (s : State) (k : Nat) : Ends := .no 5 k (s.sl k).state.code

/-- Commands that have begun and now have what they wait for post their final completions, where firmware runs (R444, R445,
R488). -/
def State.endWhen (s : State) (code : Nat) (p : State → Cmd → Bool) (f : State → Cmd → Ends) : State :=
  if !s.fw.running then s else
  (s.cmds.filter fun m => m.code == code && m.begun).foldl (fun s m =>
    if p s m then let e := f s m; s.endCmd m e.status e.a e.b e.res else s) s

end Sys2Proof.Machine
end

