-- ==== Sys2Proof/Machine/Persist.lean ====
section
/-! DEFINITION. The settings store (R456, R493 to R495): sector writes, their wear, the retirement of sectors. -/

namespace Sys2Proof.Machine

/-- The write count of a sector (R493). -/
def Store.count (x : Store) (sector : Nat) : Nat := ((x.wear.find? (fun p => p.1 == sector)).map (·.2)).getD 0

/-- The sector that serves a sector number (R494). -/
def Store.serving (x : Store) (sector : Nat) : Nat := ((x.replaced.find? (fun p => p.1 == sector)).map (·.2)).getD sector

/-- Count `n` writes of a sector. -/
def Store.bump (x : Store) (sector n : Nat) : Store :=
  { x with wear := (sector, x.count sector + n) :: x.wear.filter fun p => p.1 != sector }

/-- Retire a sector onto the lowest free replacement sector, or note that none is left (R494, R495). Paused while firmware does
not run (R488). -/
def State.retireSector (s : State) (sector : Nat) : State :=
  if !s.fw.running then s
  else if s.ss.replFree = 0 then { s with ss := { s.ss with exhausted := true } }
  else
    let new := 1024 - s.ss.replFree
    let x := { s.ss with
      replaced := (sector, new) :: s.ss.replaced.filter fun p => p.1 != sector
      replFree := s.ss.replFree - 1, retired := s.ss.retired + 1, exhausted := s.ss.exhausted || s.ss.replFree == 1 }
    ({ s with ss := x.bump new 1 }.log 0x0100 11 3 false (objData sector 0 new 0)).irqSet 8

/-- A write of a sector that needs `retries` retries: 3 or more retire it, 9 mean that it never read back right. Each attempt
counts as a write. DESIGN CHOICE, unsafe (log 28). -/
def State.sectorWrite (s : State) (sector retries : Nat) : State :=
  let n := min retries 8
  let s := { s with ss := { (s.ss.bump (s.ss.serving sector) (1 + n)) with retries := sat16 s.ss.retries n } }
  if 3 ≤ n then s.retireSector sector else s

/-- A write failed for good (R495). -/
def writeFails (retries : Nat) : Bool := decide (8 < retries)

/-- The settings area's writes so far, by its sectors' counts: it rotates over sectors 900 to 1,007, each filled by 255 writes
(R456, R457, R493). -/
def Store.areaSector (x : Store) : Nat :=
  900 + (x.wear.filter fun p => decide (900 ≤ p.1 ∧ p.1 < 1008)).foldl (fun n p => n + p.2) 0 / 255 % 108

/-- Store the value of a setting (R457). -/
def State.putStored (s : State) (id : Nat) (v : W64) : State :=
  { s with stored := (id, v) :: s.stored.filter fun p => p.1 != id }

/-- Write one record of a setting; none where the write fails for good (R495). STARTUP_ORDER has its own sector (R456). -/
def State.persist (s : State) (id : Nat) (v : W64) (retries : Nat) : Nat × Option State :=
  let sector := if id = 0x0801 then 897 else s.ss.areaSector
  let t := s.sectorWrite sector retries
  (sector, if writeFails retries then none else some (t.putStored id v))

/-- The signed or unsigned value of a stored setting. -/
def State.storedOf (s : State) (id : Nat) : Option W64 := (s.stored.find? (fun p => p.1 == id)).map (·.2)

end Sys2Proof.Machine
end

