-- ==== Sys2Proof/Machine/KvPlace.lean ====
section
/-! DEFINITION. Where the KV page manager keeps park slots and tables (R278, R282, R563), the closing of contexts (R301), and
the retirement of columns (R343). -/

namespace Sys2Proof.Machine

/-! ### Park slots and tables (R282, R563) -/

/-- The bytes taken in the park area of a column (R278, R563). -/
def State.parksIn (s : State) (col : Nat) : List (Nat × Nat) :=
  s.kv.ctxs.flatMap fun c =>
    (c.layers.filter fun l => l.column == col).map fun l => (l.park, ((s.ctxPool c).map KvPool.slot).getD 0)

/-- The columns in which a layer can be placed (R563). -/
def State.parkColumns (s : State) : List Nat := s.columns.filter fun c => (s.col c).state != .retiring

/-- Where things of contexts are placed: each layer's column and slot so far, and the tables. -/
abbrev Placed := List (Nat × Nat) × List KvTable

/-- Place a layer in a column: a free slot of the tray size, and room for its tables, aligned, and for `extra` (R563). -/
def State.placeSlot (s : State) (col slot : Nat) (us : List (TabUse × Nat)) (x : Placed) : Option Placed :=
  match firstFit (s.parksIn col ++ (x.1.filter (·.1 == col)).map fun y => (y.2, slot)) parkBytes 128 slot, addTables x.2 col us with
  | some a, some t => some (x.1 ++ [(col, a)], t)
  | _, _ => none

/-- The column for layer `l` of context `num`: the candidate (c + l) mod NL, or the next that has room (R563). -/
def State.placeLayer (s : State) (num l slot : Nat) (us : List (TabUse × Nat)) (x : Placed) : Option Placed :=
  let cs := s.parkColumns
  let i := (num + l) % max 1 cs.length
  (cs.drop i ++ cs.take i).findSome? fun c => s.placeSlot c slot us x

/-- Place the first `n` layers of a context; a new level-2 table lies in the column of layer 0 (R563). -/
def State.placeLayers (s : State) (p : KvPool) (num maxTokens : Nat) (l2 : Option TabUse) : Nat → Option Placed
  | 0 => some ([], s.kv.tabs)
  | n + 1 =>
    (s.placeLayers p num maxTokens l2 n).bind fun x =>
      s.placeLayer num n p.slot ((if n = 0 then l2.toList.map fun u => (u, 4096) else []) ++ p.layerTables maxTokens num n) x

/-- The level-2 table that a context needs and that its group of 8 does not have (R563). -/
def State.newLevel2 (s : State) (domain num : Nat) : Option TabUse :=
  if (s.kv.table (.group domain (num / 8))).isSome then none else some (.group domain (num / 8))

/-- Park slots of the tray size of the lowest-numbered pool, in all and unassigned (R303). DESIGN CHOICE, unsafe (log 19). -/
def State.parkSlots (s : State) : Nat × Nat :=
  match (List.range 8).findSome? s.kv.pool with
  | none => (0, 0)
  | some p =>
    s.parkColumns.foldl (fun n c => (n.1 + parkBytes / p.slot, n.2 + (parkBytes - (s.parksIn c).foldl (fun m u => m + u.2) 0) / p.slot)) (0, 0)

/-! ### Closing (R301) -/

/-- A context is CLOSING (R301). -/
def State.closeCtx (s : State) (n : Nat) : State := s.modCtx n fun c => { c with closing := true }

/-- A closing context that holds no pin and runs no fade step gives back everything (R301). -/
def State.dropCtx (s : State) (c : KvCtx) : State :=
  let s := (s.dropTables c).invalCtx c
  let s := { s with kv := { s.kv with
    ctxs := s.kv.ctxs.filter (·.num != c.num), errFades := s.kv.errFades.filter (·.ctx != c.num)
    closes := s.kv.closes.filter (· != c.num) } }
  (s.freeGroups fun g => g.ctx == c.num).trayRoom

/-! ### Retirement of columns (R343) -/

/-- The order of the victim policy (R300). -/
def KvCtx.before (a b : KvCtx) : Bool :=
  decide (a.cls < b.cls) || (a.cls == b.cls && (decide (a.lastUse < b.lastUse) || (a.lastUse == b.lastUse && decide (a.num < b.num))))

/-- Insert a context in the victim order. -/
def insertVictim (c : KvCtx) : List KvCtx → List KvCtx
  | [] => [c]
  | x :: xs => if c.before x then c :: x :: xs else x :: insertVictim c xs

/-- What a context keeps in a column: a level-2 table of its group, layers. -/
def State.keepsIn (s : State) (col : Nat) (c : KvCtx) : Bool :=
  (c.layers.any fun l => l.column == col) ||
    (match s.kv.table (.group c.domain (c.num / 8)) with | some t => t.column == col | none => false)

/-- Move one table into the first other column that has room; none where no column has. -/
def State.moveOut (s : State) (old : KvTable) : Option State :=
  (s.parkColumns.findSome? fun d => (firstFit (tablesIn s.kv.tabs d) tableBytes (max 1024 old.size) old.size).map fun a =>
    ({ old with column := d, off := a } : KvTable)).map fun new => s.moveTable old new

/-- Move one layer's park slot and tables out of a column, placed as R563 places a layer; its tables are copied, and the entries that
point to them rewritten (R343, step 2). -/
def State.moveLayer (s : State) (c : KvCtx) (l col : Nat) : Option State :=
  match s.layer c.num l, s.ctxPool c with
  | some x, some p =>
    if x.column ≠ col then some s
    else
      let us := p.layerTables c.maxTokens c.num l
      (s.placeLayer c.num l p.slot us ([], s.kv.tabs)).map fun y =>
        let s := (y.2.drop s.kv.tabs.length).foldl (fun (s : State) new =>
          match s.kv.table new.use with
          | some old => s.moveTable old new
          | none => s) s
        s.modLayer c.num l fun x => { x with column := (y.1.headD (col, 0)).1, park := (y.1.headD (0, x.park)).2 }
  | _, _ => some s

/-- Move everything that contexts keep in a column. -/
def State.moveCtxs (s : State) (col : Nat) (cs : List KvCtx) : Option State :=
  let l2 := s.kv.tabs.filter fun t => t.column == col && (match t.use with
    | .group d g => cs.any fun c => c.domain == d && c.num / 8 == g
    | _ => false)
  let o := l2.foldl (fun o t => o.bind fun s => s.moveOut t) (some s)
  (cs.flatMap fun c => (List.range c.layers.length).map fun l => (c, l)).foldl (fun o cl =>
    o.bind fun s => s.moveLayer cl.1 cl.2 col) o

/-- Close contexts in the victim order until the others can be placed (R343, step 2). -/
def State.retireMove (s : State) (col : Nat) : List KvCtx → State
  | [] => s
  | c :: cs =>
    match s.moveCtxs col (c :: cs) with
    | some t => t
    | none =>
      let s := { s with kv := { s.kv with closes := c.num :: s.kv.closes } }
      (s.closeCtx c.num).retireMove col cs

/-- Step 2 of R343: the level-2 tables and the layers of the contexts that keep something in the column; translations through what
moved go. -/
def State.emptyReserve (s : State) (col : Nat) : State :=
  let cs := (s.kv.ctxs.filter fun c => !c.closing && s.keepsIn col c).foldr insertVictim []
  cs.foldl (fun s c => s.invalCtx c) (s.retireMove col cs)

/-- The lowest page that a context has LIVE in a column. -/
def State.lowestIn (s : State) (num col : Nat) : Option Nat :=
  (s.kv.groups.filter fun g => g.ctx == num && g.column == col).foldl (fun m g =>
    match s.kv.pool g.pool with
    | none => m
    | some p =>
      if !p.emul then m else
        (List.range p.z).foldl (fun m i =>
          if g.frames[i]? = some .live then some (min (g.index * p.z + i) (m.getD (g.index * p.z + i))) else m) m) none

/-- Step 3 of R343: every context with a LIVE page in the column is to be faded from its lowest page there. -/
def State.retireFades (s : State) (col : Nat) : State :=
  s.kv.ctxs.foldl (fun s c =>
    match s.lowestIn c.num col with
    | none => s
    | some p =>
      if c.closing ∨ s.kv.fades.any (fun f => f.ctx == c.num && f.layer.isNone) ∨
          s.kv.errFades.any (fun e => e.ctx == c.num && e.layer.isNone && decide (e.len ≤ p * 16)) then s
      else { s with kv := { s.kv with errFades := s.kv.errFades ++ [⟨c.num, p * 16, none⟩] } }) s

/-- Nothing of the KV page manager lies in a column. -/
def State.columnEmpty (s : State) (col : Nat) : Bool :=
  !(s.kv.groups.any fun g => g.column == col) && !(s.kv.tabs.any fun t => t.column == col) &&
    !(s.kv.ctxs.any fun c => c.layers.any fun l => l.column == col)

/-- Step 4 of R343: the spare map records the retirement, in a write of its sector, whose retries nothing gives: a free number (log 28).
A map that cannot be written leaves the old one in force (R495), and the column is FAILED until the next reset. -/
def State.columnFailed (s : State) (col : Nat) : State :=
  let d := s.draw
  let retries := d.1 % 10
  let s := (d.2.sectorWrite 898 retries).modCol col fun c => { c with state := .failed }
  let fails := writeFails retries
  let s := if fails then s else { s with ectl := { s.ectl with retired := s.ectl.retired ||| (1#32 <<< col) } }
  s.endWhen 0x1E (fun _ m => m.f 16 1 == 2 && m.f 17 1 == col) fun _ _ => if fails then .no 5 898 0 else ⟨0, 0, 0, []⟩

/-- Retirement of the RETIRING columns goes on; a column that holds nothing more becomes FAILED (R343). Its steps wait while the column,
or one that takes what it held, is in HALT (R348). -/
def State.retireGo (s : State) : State :=
  ((List.range 32).filter fun c => (s.col c).state == .retiring).foldl (fun s col =>
    let t := s.emptyReserve col
    let moved := t.kv.tabs.filter fun x => !s.kv.tabs.contains x
    if (s.col col).thermal = 3 ∨ moved.any (fun x => (s.col x.column).thermal == 3) then s
    else
      let t := t.retireFades col
      if t.columnEmpty col then t.columnFailed col else t) s

end Sys2Proof.Machine
end

