-- ==== Sys2Proof/Machine/KvSteps.lean ====
section
/-! DEFINITION. The steps that the KV page manager takes by itself: fixes, parks and restores that end (R284, R285, R292),
waits that time out (R293), fade steps (R297, R299, R300), closes (R301), hints (R303). -/

namespace Sys2Proof.Machine

/-- After frames or groups became free: retirements go on, waiters are served (R288, R293, R343). -/
def State.kvSettled (s : State) : State := s.retireGo.serveWaiters

/-! ### Trays -/

/-- The column that holds a layer's park slot and tables is in HALT (R338). -/
def State.slotHalted (s : State) (n l : Nat) : Bool :=
  match s.layer n l with | some x => s.haltColumns.contains x.column | none => false

/-- A fix writes its page and its tray is empty; its instruction and those that waited for the tray go on (R292). -/
def State.fixEnds (s : State) (n l : Nat) : State :=
  let page := ((s.layer n l).map KvLayer.k).getD 0
  let waits : Bool := (match s.groupOf n l page with | some (g, p) => p.emul && s.haltColumns.contains g.column | none => false) ||
    s.slotHalted n l
  if (((s.layer n l).map (·.tray)) != some .fixing) || waits then s else
    let ws := s.kv.waiters.filter fun w => w.ctx == n && w.layer == l && w.kind != .restore
    let s := (s.fixDone n l).trayRoom
    (ws.foldl (fun s w => s.kvResume w (if w.kind = .fix then 1 else 0)) s).kvSettled

/-- The granules of a layer's park slot. -/
def State.slotGranules (s : State) (n l : Nat) : List Nat :=
  match s.layer n l, (s.kv.ctx n).bind s.ctxPool with
  | some x, some p => (List.range (p.slot / 64)).map fun i => x.column * 2 ^ 31 + 0x6C000000 + x.park + 64 * i
  | _, _ => []

/-- A tray's copy to its park slot completes: its granules are written whole (R284, R332). It waits for a column in HALT (R338). -/
def State.parkEnds (s : State) (n l : Nat) : State :=
  if ((s.layer n l).map (·.tray)) ≠ some .parking ∨ s.slotHalted n l = true then s else
    let gs := s.slotGranules n l
    ({ s with ectl := { s.ectl with poisoned := s.ectl.poisoned.filter fun g => !gs.contains g } }.modLayer n l
      fun x => { x with tray := .parked }).trayRoom

/-- A value of a tray whose data is lost: free (log 19). -/
def State.freeCodes (s : State) (f : Fmt) : List Nat → List Nat × State
  | [] => ([], s)
  | _ :: cs => let y := s.draw.2.freeCodes f cs; (s.draw.1 % 2 ^ fmtBits f :: y.1, y.2)

/-- The rows of a tray whose data is lost. -/
def State.freeRows (s : State) (f : Fmt) : List TokenRow → List TokenRow × State
  | [] => ([], s)
  | r :: rs =>
    let c := s.freeCodes f r.codes
    let d := c.2.freeCodes .uint8 r.scales
    let y := d.2.freeRows f rs
    (⟨c.1, d.1⟩ :: y.1, y.2)

/-- The tokens of a tray are lost: what a read of them finds is free, and firmware fades the layer to the pages below its tray (R331). R331
writes that length 16 × floor(L / 16); for a tray with 16 tokens it is read as 16 × K, so that the lost tokens go: DEDUCED, unsafe
(log 19). -/
def State.loseTray (s : State) (n l : Nat) : State :=
  match s.layer n l, (s.kv.ctx n).bind s.ctxPool with
  | some x, some p =>
    let a := s.freeRows p.fmt (x.tokens.map (·.s0))
    let b := a.2.freeRows p.fmt (x.tokens.map (·.s1))
    (b.2.modLayer n l fun x => { x with tokens := (a.1.zip b.1).map fun y => ⟨y.1, y.2⟩ }).addErrFade ⟨n, x.k * 16, some l⟩
  | _, _ => s

/-- The restore of a tray reads its park slot: `errs` are the granules in error, and those poisoned are uncorrectable (R330 to R332). -/
def State.readSlot (s : State) (n l : Nat) (errs : List SoftErr) : State :=
  let gs := s.slotGranules n l
  let errs := errs.filter fun e => gs.contains (granuleOf e.addr.toNat)
  let bad := ((errs.filter fun e => e.place == .emul && e.double).map (fun e => granuleOf e.addr.toNat) ++
    s.ectl.poisoned.filter fun g => gs.contains g).eraseDups
  let wrong := errs.any fun e => e.place == .wrong
  let s := (errs.filter fun e => e.place == .wrong || (e.place == .emul && !e.double)).foldl (fun s e => s.emulCe e.addr.toNat false) s
  let s := bad.foldl (fun s g => s.emulUe g false) s
  if !bad.isEmpty then s.loseTray n l else if wrong then
    (match s.layer n l, (s.kv.ctx n).bind s.ctxPool with
     | some x, some p =>
       let a := s.freeRows p.fmt (x.tokens.map (·.s0))
       let b := a.2.freeRows p.fmt (x.tokens.map (·.s1))
       b.2.modLayer n l fun x => { x with tokens := (a.1.zip b.1).map fun y => ⟨y.1, y.2⟩ }
     | _, _ => s)
  else s

/-- A tray's restore completes, once a hub slot is free; the instructions that waited for it go on (R285). It waits for a column in HALT
(R338). -/
def State.restoreEnds (s : State) (n l : Nat) (errs : List SoftErr) : State :=
  if ((s.layer n l).map (·.tray)) ≠ some .restoring ∨ trayRegion < s.trayBytes ∨ s.slotHalted n l = true then s else
    let s := if ((s.layer n l).map (·.tokens.isEmpty)) = some true then s else s.readSlot n l errs
    let ws := s.kv.waiters.filter fun w => w.ctx == n && w.layer == l && w.kind == .restore
    let s := s.modLayer n l fun x => { x with tray := if x.wasFull then .full else .resident, wasFull := false }
    ws.foldl (fun s w => s.kvResume w 0) s

/-! ### Fade steps (R299) -/

/-- A fade of one layer, or of every layer, takes in layer `l`. -/
def takesLayer (layer : Option Nat) (l : Nat) : Bool := match layer with | some k => k == l | none => true

/-- A fade to `f` lowers a length of a context. -/
def KvCtx.falls (c : KvCtx) (f : Nat) (layer : Option Nat) : Bool :=
  c.layers.zipIdx.any fun l => takesLayer layer l.2 && decide (f < l.1.len)

/-- A context can begin a fade step to `f`: it frees something, is not closing and runs no other step (log 14). -/
def State.canFade (s : State) (c : KvCtx) (f : Nat) (layer : Option Nat) : Bool :=
  !c.closing && !(s.kv.fades.any (·.ctx == c.num)) && c.falls f layer

/-- End the fixes of a context that wait for a free group, with POOL_EMPTY (R299, step 1). -/
def State.endFixWaits (s : State) (n : Nat) : State :=
  (s.kv.waiters.filter fun w => w.ctx == n && w.kind == .group).foldl (fun s w => s.kvEnd w.slice w.key 7 (s.now - w.since)) s

/-- Begin a fade step (R299, step 1). -/
def State.beginFade (s : State) (e : ErrFade) (cause : Nat) : State :=
  ({ s with kv := { s.kv with fades := s.kv.fades ++ [(⟨e.ctx, e.len, e.layer, cause, 1, [], []⟩ : FadeStep)] } }).endFixWaits e.ctx

/-- The length to which the victim policy fades a context (R300). -/
def State.fadeLength (s : State) (c : KvCtx) : Nat :=
  let z := ((s.ctxPool c).map KvPool.z).getD 1
  let p := (c.layers.foldl (fun m l => max m l.len) 0) / 16
  16 * z * ((p - s.setting 0x0203) / z)

/-- The victims of a pool chain, in order (R300). -/
def State.victims (s : State) (chain : List Nat) : List KvCtx :=
  (s.kv.ctxs.filter fun c =>
    c.cls != 7 && !(s.kv.waiters.any fun w => w.ctx == c.num && w.kind == .group) &&
    (s.kv.groups.any fun g => g.ctx == c.num && chain.contains g.pool) && s.canFade c (s.fadeLength c) none).foldr insertVictim []

/-- The victim policy for a chain: a step on its first victim, or the entry that says there is none (R300). -/
def State.fadeVictim (s : State) (chain : List Nat) : State :=
  match s.victims chain with
  | c :: _ => s.beginFade ⟨c.num, s.fadeLength c, none⟩ 1
  | [] =>
    if s.kv.fades.any (fun f => (s.kv.ctx f.ctx).any fun c => c.chain == chain) then s
    else ({ s with kv := { s.kv with press := s.kv.press.filter (· != chain) } }).log 0x0101 6 4 false
      (objData (chain.headD 0) 0 0 0)

/-- The error fades that can begin now. -/
def State.errFade (s : State) : Option ErrFade :=
  s.kv.errFades.find? fun e => match s.kv.ctx e.ctx with | some c => s.canFade c e.len e.layer | none => false

/-- Error fades that would free nothing go (R299, R300). -/
def State.dropErrFades (s : State) : State :=
  { s with kv := { s.kv with errFades := s.kv.errFades.filter fun e => match s.kv.ctx e.ctx with
      | some c => !c.closing && c.falls e.len e.layer
      | none => false } }

/-- FADE_STEP_START: an error fade that waits, else the victim policy for the first chain under pressure that names the pool;
at most 4 steps run at once (R297, R299, R300, R343). -/
def State.fadeStart (s : State) (pool : Nat) : State :=
  let s := s.retireGo.dropPress.dropErrFades
  if !s.fw.running ∨ 4 ≤ s.kv.fades.length then s else
    match s.errFade with
    | some e => ({ s with kv := { s.kv with errFades := s.kv.errFades.erase e } }).beginFade e 2
    | none =>
      match s.kv.press.find? (·.contains pool) with
      | some chain => s.fadeVictim chain
      | none => s

/-- Step 2: the new lengths (R299). -/
def KvLayer.fade (f : Nat) (l : KvLayer) : KvLayer :=
  if l.len ≤ f then l
  else { l with
    len := f, tokens := [], wasFull := false,
    tray := if l.tray = .full then .resident else l.tray }

/-- The fade step of a context at a step; steps pause while firmware does not run (R488). -/
def State.fadeAt (s : State) (n step : Nat) : Option FadeStep :=
  if s.fw.running then s.kv.fades.find? fun f => f.ctx == n && f.step == step else none

/-- Replace the fade step of a context. -/
def State.setFade (s : State) (f : FadeStep) : State :=
  { s with kv := { s.kv with fades := s.kv.fades.map fun x => if x.ctx = f.ctx then f else x } }

/-- FADE_STEP_RECORD: no started APPEND or FIX is left, no fix runs on, so the lengths fall and the generation rises. -/
def State.fadeRecord (s : State) (n : Nat) : State :=
  match s.fadeAt n 1 with
  | none => s
  | some f =>
    let s := s.endFixWaits n
    match s.kv.ctx n with
    | none => s
    | some c =>
      if c.pins.any (·.write) ∨ c.layers.any (fun l => l.tray == .fixing) then s else
        let doomed := (s.kv.groups.filter fun g => g.ctx == n && takesLayer f.layer g.layer).map fun g => (g.pool, g.column, g.num)
        let s := s.setFade { f with step := 2, oldLen := c.layers.map (·.len), doomed := doomed }
        (s.modCtx n fun c => { c with
          fadeGen := (c.fadeGen + 1) % 256
          layers := c.layers.zipIdx.map fun l => if takesLayer f.layer l.2 then l.1.fade f.len else l.1 }).dropErrFades

/-- Step 4 in the frames of a group that was claimed by step 2: its LIVE pages at or beyond F drain (R287, R288). -/
def KvGroup.drain (z : Nat) (f : FadeStep) (g : KvGroup) : KvGroup :=
  if !f.doomed.contains (g.pool, g.column, g.num) then g
  else { g with frames := g.frames.zipIdx.map fun x =>
      if x.1 = .live ∧ f.len ≤ (g.index * z + x.2) * 16 then .draining else x.1 }

/-- The pages of a layer that step 4 fades: at or beyond F and below H, and not LIVE (R299). -/
def State.fadedPages (s : State) (n : Nat) (f : FadeStep) (z : Nat) (l : KvLayer × Nat) : List Nat :=
  if !takesLayer f.layer l.2 then [] else
    (List.range (ceilDiv l.1.high 16)).filter fun p =>
      decide (f.len ≤ p * 16) && (s.groupWith n l.2 (p / z) fun g => g.frames[p % z]? == some .live).isNone

/-- A layer's FADED pages after step 4. -/
def KvLayer.refade (l : KvLayer) (pages : List Nat) (cause : Nat) : KvLayer :=
  { l with faded := l.faded.filter (fun x => !pages.contains x.1) ++ pages.map fun p => (p, cause) }

/-- FADE_STEP_WRITE: no pin of an older generation is left; the entries are written, the frames drain (R299, steps 3, 4). -/
def State.fadeWrite (s : State) (n : Nat) : State :=
  match s.fadeAt n 2, s.kv.ctx n with
  | some f, some c =>
    match s.ctxPool c with
    | none => s
    | some p =>
      if c.pins.any (fun p => p.gen != c.fadeGen) then s else
        let s := { s with kv := { s.kv with groups := s.kv.groups.map fun (g : KvGroup) => if g.ctx = n then g.drain p.z f else g } }
        let ls := c.layers.zipIdx.map fun l => (l, s.fadedPages n f p.z l)
        let s := (s.modCtx n fun c => { c with layers := ls.map fun l => l.1.1.refade l.2 f.cause }).setFade { f with step := 4 }
        ls.foldl (fun s l => l.2.foldl (fun s page => s.syncPage p n l.1.2 page (page % p.z == 0)) s) s
  | _, _ => s

/-- The DRAINING frames of a context become RESERVED, and its groups not in use become free (R288). -/
def State.undrain (s : State) (n : Nat) : State :=
  let gs := s.kv.groups.map fun g => if g.ctx = n then
      { g with frames := g.frames.map fun f => if f = .draining then .reserved else f } else g
  ({ s with kv := { s.kv with groups := gs } }).freeGroups fun g => g.ctx == n && !g.inUse

/-- The result of a KV_FADE notice (R435). -/
def fadeNotice (n cause gen f lmin lmax layers : Nat) : List Byte :=
  leBytes 2 n ++ leBytes 1 cause ++ leBytes 1 gen ++ leBytes 4 f ++ leBytes 4 lmin ++ leBytes 4 lmax ++ leBytes 1 layers

/-- FADE_STEP_FINISH: the invalidation is done; groups are freed, the entry is written and the notice posted (R299, step 5). -/
def State.fadeFinish (s : State) (n : Nat) : State :=
  match s.fadeAt n 4, s.kv.ctx n with
  | some f, some c =>
    let s := (s.invalCtx c).undrain n
    let fell := (f.oldLen.zipIdx.filter fun l => takesLayer f.layer l.2 && decide (f.len < l.1)).length
    let lmin := f.oldLen.foldl min (f.oldLen.headD 0)
    let s := { s with kv := { s.kv with fades := s.kv.fades.filter (·.ctx != n) } }
    let s := s.log 0x0101 6 3 false (objData n 0 f.len (c.fadeGen + f.cause * 2 ^ 8 + fell * 2 ^ 16))
    (s.postNotice c.notice (fadeNotice n f.cause c.fadeGen f.len lmin (f.oldLen.foldl max 0) fell)).kvSettled
  | _, _ => s

/-! ### Closing and hints -/

/-- KV_CLOSE_FINISH: the last pin is released and no fade step runs (R301); a close by retirement posts its notice (R343). -/
def State.closeFinish (s : State) (n : Nat) : State :=
  match s.kv.ctx n with
  | none => s
  | some c =>
    if !s.fw.running ∨ !c.closing ∨ !c.pins.isEmpty ∨ s.kv.fades.any (·.ctx == n) ∨ c.layers.any (fun l => l.tray == .fixing) then s else
      let retired := s.kv.closes.contains n
      let s := s.dropCtx c
      let ls := c.layers.map (·.len)
      let s := if !retired then s else
          s.postNotice c.notice (fadeNotice n 3 c.fadeGen 0 (ls.foldl min (ls.headD 0)) (ls.foldl max 0)
            (ls.filter (0 < ·)).length)
      (s.endWhen 0x0F (fun _ m => m.f 16 2 == n) fun _ _ => ⟨0, 0, 0, []⟩).kvSettled

/-- A write of KV_HINT restores every parked tray of a context, exempts it from parking at the next tick edge, or both; one for
a context that is not open is ignored with its entry (R303). -/
def State.writeHint (s : State) (n : Nat) (unpark keep : Bool) : State :=
  match s.kv.ctx n with
  | none => s.log 0x0101 6 5 false (objData n 0 0 0)
  | some c =>
    let s := if unpark then (List.range c.layers.length).foldl (fun s l =>
        if ((s.layer n l).map (·.tray)) = some .parked then s.wantTray n l else s) s else s
    if keep then s.modCtx n fun c => { c with keep := true } else s

/-! ### The commands -/

/-- TRAY_FIX_DONE (R292). -/
def execTrayFixDone (ctx : BitVec 15) (layer : BitVec 6) (s : State) : Host.Outcome State Fault Refusal :=
  act s (s.fixEnds ctx.toNat layer.toNat)

/-- FIX_WAIT_TIMEOUT: the fix of a slice has waited to its deadline for a free group (R293). -/
def execFixWaitTimeout (k : SliceId) (s : State) : Host.Outcome State Fault Refusal :=
  act s (match s.kv.waiters.find? fun w => w.slice == k.val && w.kind == .group with
    | none => s
    | some w => if (match w.deadline with | some d => decide (d ≤ s.now) | none => false) then
        s.kvEnd w.slice w.key 7 (s.now - w.since) else s)

/-- TRAY_PARK_DONE (R284). -/
def execTrayParkDone (ctx : BitVec 15) (layer : BitVec 6) (s : State) : Host.Outcome State Fault Refusal :=
  act s (s.parkEnds ctx.toNat layer.toNat)

/-- TRAY_RESTORE_DONE (R285, R330, R331). -/
def execTrayRestoreDone (ctx : BitVec 15) (layer : Reads (BitVec 6)) (s : State) : Host.Outcome State Fault Refusal :=
  act s (s.restoreEnds ctx.toNat layer.val.toNat layer.errs)

/-- FADE_STEP_START (R299, R300). -/
def execFadeStepStart (pool : Fin 8) (s : State) : Host.Outcome State Fault Refusal := act s (s.fadeStart pool.val)

/-- FADE_STEP_RECORD (R299, steps 1 and 2). -/
def execFadeStepRecord (ctx : BitVec 15) (s : State) : Host.Outcome State Fault Refusal := act s (s.fadeRecord ctx.toNat)

/-- FADE_STEP_WRITE (R299, steps 3 and 4). -/
def execFadeStepWrite (ctx : BitVec 15) (s : State) : Host.Outcome State Fault Refusal := act s (s.fadeWrite ctx.toNat)

/-- FADE_STEP_FINISH (R299, step 5). -/
def execFadeStepFinish (ctx : BitVec 15) (s : State) : Host.Outcome State Fault Refusal := act s (s.fadeFinish ctx.toNat)

/-- KV_CLOSE_FINISH (R301). -/
def execKvCloseFinish (ctx : BitVec 15) (s : State) : Host.Outcome State Fault Refusal := act s (s.closeFinish ctx.toNat)

/-- KV_HINT_UNPARK (R303). -/
def execKvHintUnpark (src : W12) (ctx : BitVec 15) (s : State) : Host.Outcome State Fault Refusal :=
  act s (s.cpWrite src 0x4010 (some (s.writeHint ctx.toNat true false)))

/-- KV_HINT_KEEP (R303). -/
def execKvHintKeep (src : W12) (ctx : BitVec 15) (s : State) : Host.Outcome State Fault Refusal :=
  act s (s.cpWrite src 0x4010 (some (s.writeHint ctx.toNat false true)))

end Sys2Proof.Machine
end

