-- ==== Sys2Proof/Machine/PowerOps.lean ====
section
/-! DEFINITION. The power manager: samples and cap windows (R502 to R506), operating points (R33 to R36, R507 to R509), the
handshake of a clock change (R394), the thermal model (R511 to R513), quadrant halt (R515). -/

namespace Sys2Proof.Machine

/-! ### Entries -/

/-- A POWER entry: code, quadrant or 0xFFFF, old and new point, VAL0, VAL1 (R525, R546). -/
def State.logPower (s : State) (code obj old new v0 v1 : Nat) : State :=
  s.log 0x0106 9 code false (objData obj (old + new * 16) v0 v1)

/-- Block power of a sample (R502). -/
def PwrSample.block (p : PwrSample) : Nat := p.quads.foldl (· + ·) 0 + p.hub + p.emul

/-- The mean of a channel over the samples of the last 100 µs; 0 before the first sample (R507, R512). -/
def Power.mean (p : Power) (f : PwrSample → Nat) : Nat := (p.hist.map f).foldl (· + ·) 0 / max 1 p.hist.length

/-- Mean block power in 0.1 W, as entries carry it (R546). DESIGN CHOICE, unsafe (log 18). -/
def Power.tenths (p : Power) : Nat := p.mean PwrSample.block / 100000

/-- Mean quadrant power in µW. -/
def Power.quadMean (p : Power) (q : Nat) : Nat := p.mean fun x => (x.quads[q]?).getD 0

/-- A quadrant's record. -/
def State.quad (s : State) (q : Nat) : Quad := (s.power.quads[q]?).getD Quad.reset

/-- Change a quadrant's record. -/
def State.modQuad (s : State) (q : Nat) (f : Quad → Quad) : State :=
  { s with power := { s.power with quads := s.power.quads.setIfInBounds q (f (s.quad q)) } }

/-- The quadrants present (R40). -/
def State.quadList (s : State) : List Nat := List.range s.chip.model.quads

/-! ### Cap windows (R504 to R506) -/

/-- The length of the current window in ns. -/
def Power.windowNs (p : Power) : Nat := p.windowMs * 1000000

/-- The end of the current window. -/
def Power.windowEnd (p : Power) : Nat := p.winStart + p.windowNs

/-- Close the current window against its cap; the next one starts under the cap and length last set (R505, R506). Powers are
compared exactly: the energy in pJ is the power in mW times the length in ns. -/
def State.closeWindow (s : State) : State :=
  let p := s.power
  let high := decide (p.capW * 1000 * p.windowNs < p.energy)
  let avg := p.energy / (p.windowNs * 100)
  let s := { s with power := { p with
    lastAvg := avg, lastCap := p.capW, lastOver := high,
    overNs := if high && p.overruns == 0 then BitVec.ofNat 48 p.windowEnd else p.overNs,
    overruns := if high then sat16 p.overruns 1 else p.overruns,
    winStart := p.windowEnd, energy := 0, samples := 0,
    capW := if p.nextCap = 0 then p.capW else p.nextCap, nextCap := 0,
    windowMs := if p.nextWindow = 0 then p.windowMs else p.nextWindow, nextWindow := 0 } }
  if high then (s.logPower 1 0xFFFF p.op p.op avg p.winStart).irqSet 3 else s

/-- Close every window that has ended. -/
def State.closeWindows (s : State) : Nat → State
  | 0 => s
  | n + 1 => if s.start.phase = .ready ∧ s.power.windowEnd ≤ s.now then s.closeWindow.closeWindows n else s

/-- The windows that can have ended: none is shorter than 10 ms (R458). -/
def State.windowsDue (s : State) : State := s.closeWindows ((s.now - s.power.winStart) / 10000000 + 1)

/-- One telemetry sample, in the window that contains its stamp (R502, R504). -/
def State.sample (s : State) (quads : List Nat) (hub emul : Nat) : State :=
  let s := s.windowsDue
  let p := s.power
  let x : PwrSample := ⟨s.quadList.map fun q => (quads[q]?).getD 0, hub, emul⟩
  let h := p.hist ++ [x]
  let run := s.start.phase == .ready
  { s with power := { p with
      hist := h.drop (h.length - 100),
      energy := if run then p.energy + x.block else p.energy,
      samples := if run then p.samples + 1 else p.samples } }

/-! ### The handshake (R394) -/

/-- An armed program has a timed stream (R35). -/
def State.timedArmed (s : State) : Bool :=
  s.present.any fun k => (s.sl k).armed && !(((s.sl k).prog.map (·.streams)).getD []).isEmpty

/-- A clock change is pending. -/
def Dvfs.pending (d : Dvfs) : Bool := d.req || d.settle.isSome

/-- The verification floor (R508). -/
def State.floor (s : State) : Nat :=
  let mhz := s.present.foldl (fun m k => if (s.sl k).armed then max m (((s.sl k).prog.map (·.mhz)).getD 0) else m) 0
  ((List.range 5).find? fun k => decide (mhz ≤ opMhz k)).getD 4

/-- Drive DVFS_OP and DVFS_REQ (R394, step 2). -/
def State.dvfsRequest (s : State) (op : Nat) (therm : Bool) : State :=
  { s with ports := { s.ports with dvfs := ⟨true, op, none, s.now, none, false, therm⟩ } }

/-- Begin a change of point: a raise first raises the voltage and waits for the regulator (R34, R394). -/
def State.beginChange (s : State) (op : Nat) (therm : Bool) : State :=
  if s.power.op < op then { s with ports := { s.ports with dvfs := ⟨false, 0, some op, s.now, none, false, therm⟩ } }
  else s.dvfsRequest op therm

/-- The regulator reports that a raised voltage has settled (R34). A point's voltage is its nominal one: R33 lets the power manager raise it
by up to 0.07 V for ageing and leaves open when and by how much; it is never raised here. DESIGN CHOICE, unsafe (log 48). -/
def State.voltSettled (s : State) : State :=
  match s.ports.dvfs.settle with
  | none => s
  | some op => { s with power := { s.power with voltMv := opMv op } }.dvfsRequest op s.ports.dvfs.therm

/-- DVFS_ACK is sampled while DVFS_REQ is asserted (R394, steps 3 and 4; R385). -/
def State.ack (s : State) : State :=
  let d := s.ports.dvfs
  if !d.req || d.switchAt.isSome || decide (d.reqAt + 100000 < s.now) then s
  else { s with ports := { s.ports with dvfs := { d with switchAt := some (s.now + 2000), atEdge := s.timedArmed } } }

/-- The switch instant has come: while a timed stream is armed, also one that was armed after the ACK, it is a tick edge (R35, R394,
step 4). -/
def State.switchDue (s : State) : Bool :=
  match s.ports.dvfs.switchAt with
  | none => false
  | some t => s.ports.dvfs.req &&
      (if s.ports.dvfs.atEdge || s.timedArmed then s.tick.count != 0 && decide (t ≤ s.tick.last.toNat) else decide (t ≤ s.now))

/-- No handshake. -/
def State.dvfsIdle (s : State) : State := { s with ports := { s.ports with dvfs := Dvfs.reset } }

/-- A pending lowering that no limit forces would go below the clock of a program that was armed since it was chosen (R36). -/
def State.lowersTooFar (s : State) : Bool :=
  let d := s.ports.dvfs
  !d.therm && decide (d.op < s.power.op) && decide (d.op < s.floor)

/-- The core clock switches; a lowered point then lowers the voltage (R34, R36, R394, R509). A lowering that an armed program forbids by
then is abandoned as one without an ACK is (R36; DEDUCED, log 48). -/
def State.switchPoint (s : State) : State :=
  if !s.switchDue then s else
    let d := s.ports.dvfs
    let old := s.power.op
    if s.lowersTooFar then s.dvfsIdle.logPower 8 0xFFFF old d.op s.power.tenths 0 else
    let s := { s with power := { s.power with
      op := d.op, voltMv := opMv d.op, thermSteps := if d.therm then sat16 s.power.thermSteps 1 else s.power.thermSteps } }.dvfsIdle
    let s := s.logPower 4 0xFFFF old d.op s.power.tenths 0
    if d.op < s.floor then s.logPower 5 0xFFFF old d.op s.power.tenths 0 else s

/-- No DVFS_ACK in 100,000 ns: the change is abandoned, a raised voltage lowered back (R394). -/
def State.abandonChange (s : State) : State :=
  let d := s.ports.dvfs
  if !d.req || d.switchAt.isSome || decide (s.now < d.reqAt + 100000) then s
  else
    ({ s with power := { s.power with voltMv := opMv s.power.op } }.dvfsIdle).logPower 8 0xFFFF s.power.op d.op s.power.tenths 0

/-- The DVFS_GO pin: high for one REFCLK period before a switch whose instant is known (R394). -/
def State.dvfsGo (s : State) : Bool :=
  match s.ports.dvfs.switchAt with
  | none => false
  | some t =>
    let at_ := if s.ports.dvfs.atEdge || s.timedArmed then max t s.nextEdge else t
    decide (at_ - 10 ≤ s.now ∧ s.now < at_)

/-! ### The point chosen (R507 to R509, R513) -/

/-- f × V² of a point (R507). -/
def opFactor (k : Nat) : Nat := opMhz k * opMv k * opMv k

/-- The highest point, if any, that satisfies a test. -/
def highest (p : Nat → Bool) : Option Nat := [4, 3, 2, 1, 0].find? p

/-- The estimate of point `k` times f_now × V_now², in µW (R507). -/
def Power.est (p : Power) (k : Nat) : Nat :=
  p.mean (fun x => x.quads.foldl (· + ·) 0 + x.hub) * opFactor k + p.mean (·.emul) * opMhz k * opMv p.op * opMv p.op

/-- The cap target (R507). -/
def State.capTarget (s : State) : Nat :=
  let p := s.power
  let r := p.windowEnd - s.now
  if r < 100000 then p.capTarget
  else
    let left : Int := p.capW * 1000 * p.windowNs - p.energy
    (highest fun k => decide ((p.est k * r * 100 : Int) ≤ 97 * left * 1000 * opFactor p.op)).getD 0

/-- The thermal target: the model's, and the measured rule of hub hardware (R513). -/
def State.thermTarget (s : State) : Nat :=
  let model := s.quadList.foldl (fun m q => min m (s.quad q).target) 4
  if s.quadList.any fun q => decide (((s.quad q).limit : Int) ≤ (s.quad q).tm) then min model (s.power.op - 1) else model

/-- The manager chooses its point and requests the change to it (R508, R509). -/
def State.evaluate (s : State) : State :=
  if s.start.phase ≠ .ready then s else
    let cap := s.capTarget
    let therm := min s.thermTarget s.power.emulLimit
    let floor := s.floor
    let want := min (max cap floor) therm
    let limited := decide (therm < max cap floor)
    let s := { s with power := { s.power with
      capTarget := cap, floor := floor, capLimited := decide (cap < floor), thermLimited := limited,
      target := if s.power.clamp then 0 else want } }
    if s.power.clamp || want == s.power.op || s.ports.dvfs.pending then s else s.beginChange want limited

/-! ### The thermal model (R512, R513) -/

/-- exp(−num/den) in 2^-64. DESIGN CHOICE, unsafe (log 18): the precision of the firmware's arithmetic is not given. -/
def expNeg (num den : Nat) : Nat :=
  let y : Int := (num * 2 ^ 86 / max 1 den : Nat)
  let one : Int := 2 ^ 96
  let t := (List.range 16).foldl (fun (a : Int × Int) (i : Nat) => (a.1 + a.2, -(a.2 * y) / (one * ((i : Int) + 1)))) ((0 : Int), one)
  let r := (List.range 10).foldl (fun (a : Int) _ => a * a / one) t.1
  (r / 2 ^ 32).toNat

/-- One degree in the units of the model. -/
def degree : Int := 2 ^ 64

/-- The steady temperature of a quadrant at a power in µW (R512). -/
def Quad.tss (q : Quad) (p : Int) : Int := q.tref + q.rth * p * degree / 1000000000

/-- The temperature after a time in µs (R512). -/
def Quad.after (q : Quad) (p : Int) (us : Nat) : Int :=
  let t := q.tss p
  t + (q.tm * (degree / 4) - t) * expNeg us q.tau / degree

/-- Calibrate Tref by the last one-interval error, at most 1 °C (R512). -/
def Quad.calibrate (q : Quad) : Quad :=
  match q.t1 with
  | none => q
  | some t => { q with tref := q.tref + max (-degree) (min degree ((q.tm * (degree / 4) - t) / 8)) }

/-- The highest point that a quadrant's prediction allows (R513). -/
def Quad.thermal (q : Quad) (op p : Nat) : Nat :=
  let at_ (k : Nat) : Int := q.after ((p * opFactor k / opFactor op : Nat) : Int) (q.horizon * 1000)
  (highest fun k => decide (at_ k < (q.limit : Int) * (degree / 4) - (if op < k then 3 * degree else 0))).getD 0

/-- A temperature of the model in 0.25 °C; an inexact one is rounded freely (log 18). -/
def State.quarter (s : State) (t : Int) : Int × State :=
  let n := t / (degree / 4)
  if t % (degree / 4) = 0 then (n, s) else (n + (s.draw.1 % 2 : Nat), s.draw.2)

/-- Tamosh firmware evaluates one quadrant (R512, R513). -/
def State.evalQuad (s : State) (q : Nat) : State :=
  let p := s.power.quadMean q
  let x := (s.quad q).calibrate
  let a := s.quarter x.tref
  let b := a.2.quarter (x.after p (x.horizon * 1000))
  b.2.modQuad q fun _ => { x with trefQ := a.1, pred := b.1, t1 := some (x.after p 100), target := x.thermal s.power.op p }

/-! ### Sensors and halt (R511, R515, R422) -/

/-- A 10-bit sensor reading in 0.25 °C. -/
def sensor (l : List (BitVec 10)) (i : Nat) : Int := ((l[i]?).getD 0).toInt

/-- The hottest of a quadrant's four sensors (R511). -/
def hottest4 (l : List (BitVec 10)) (q : Nat) : Int :=
  max (max (sensor l (q * 4)) (sensor l (q * 4 + 1))) (max (sensor l (q * 4 + 2)) (sensor l (q * 4 + 3)))

/-- A temperature as a field of an entry or register. -/
def tempField (t : Int) : Nat := (BitVec.ofInt 10 t).toNat

/-- A quadrant enters halt at OP0, and leaves it below its limit; its arrays then ramp (R515, R520). -/
def State.haltStep (s : State) (q : Nat) : State :=
  let x := s.quad q
  let p := s.power
  if p.qhalt.getLsbD q then
    (if x.tm < x.limit then
      let s := { s with power := { p with qhalt := p.qhalt &&& ~~~(1#4 <<< q) } }
      let s := (List.range 8).foldl (fun s i => s.mod (q * 8 + i) fun x => { x with arrayGated := true }) s
      s.logPower 7 q p.op p.op (tempField x.tm) 0
    else s)
  else if p.op = 0 ∧ (x.limit : Int) + 40 ≤ x.tm then
    (({ s with power := { p with qhalt := p.qhalt ||| (1#4 <<< q), qhalts := sat16 p.qhalts 1 } }).logPower 6 q 0 0
      (tempField x.tm) 0).irqSet 3
  else s

/-- The logic-die sensors are sampled (R511). -/
def State.sense (s : State) (temps : List (BitVec 10)) (hub : BitVec 10) : State :=
  let s := s.quadList.foldl (fun s q => s.modQuad q fun x => { x with tm := hottest4 temps q }) s
  let s := { s with power := { s.power with hubTemp := hub.toInt } }
  s.quadList.foldl State.haltStep s

/-- THERM_ALERT_N is asserted (R422). -/
def State.thermAlert (s : State) : Bool :=
  !s.haltColumns.isEmpty || s.quadList.any (fun q => decide (460 ≤ (s.quad q).tm)) || decide (460 ≤ s.power.hubTemp)

/-- Emulsion columns in THROTTLE or HALT. -/
def State.hotColumns (s : State) : List Nat := (List.range 32).filter fun c => decide (2 ≤ (s.col c).thermal)

/-- Set the emulsion limit, with its entry (R517, R525). -/
def State.setEmulLimit (s : State) (n : Nat) (since cool : Option Nat) : State :=
  let old := s.power.emulLimit
  let s := { s with power := { s.power with emulLimit := n, emulHotNs := since, emulCoolNs := cool } }
  if n = old then s else s.logPower 9 0xFFFF old n s.power.tenths 0

/-- Whether 1 ms has passed since a time. -/
def State.msSince (s : State) (t : Option Nat) : Bool := match t with | some t => decide (t + 1000000 ≤ s.now) | none => false

/-- One step of the emulsion limit (R517). `emulHotNs` is the last fall, or the time from which the next one counts, while the
limit is set; `emulCoolNs` the time since which no column is hot, or the last lift. -/
def State.emulStep (s : State) : State :=
  let p := s.power
  if !s.hotColumns.isEmpty then
    (if p.emulHotNs.isSome then
      (if s.msSince p.emulHotNs then s.setEmulLimit (p.emulLimit - 1) (some s.now) none else s)
    else if (List.range 32).any fun c => s.msSince (s.col c).hotNs then
      s.setEmulLimit (p.op - 1) (some s.now) none
    else s)
  else if p.emulHotNs.isSome && s.msSince p.emulCoolNs then
    (if 3 ≤ p.emulLimit then s.setEmulLimit 4 none none else s.setEmulLimit (p.emulLimit + 1) p.emulHotNs (some s.now))
  else s

end Sys2Proof.Machine
end

