-- ==== Sys2Proof/Machine/Ticks.lean ====
section
/-! DEFINITION. The block tick and the time base: edge steps of a slice (R73, R107), overexposure (R360 to R363), edges of the
block tick (R357 to R360), time synchronisation and slewing (R352, R353); the end of a drain (R468). -/

namespace Sys2Proof.Machine

/-! ### Meter slots (R73 to R75) -/

/-- The meter controls of a slot: those of a descriptor of the active program that names it (R70), else the last that fed it
(log 10). -/
def Slice.slotCtl (x : Slice) (i : Nat) : Option MeterCtl :=
  let hs := (x.prog.map (·.handles)).getD []
  match hs.findSome? fun h => ((bindPlain x h).t.meter).bind fun m => if m.slot = i then some m else none with
  | some m => some m
  | none => ((x.slots[i]?).getD ⟨none, 0, false, false⟩).ctl

/-- The largest finite value of a destination element format (R73). -/
def fmtTop (f : Fmt) : Val :=
  if fmtInt f then Val.ofInt (intMax f) else if f = .mask1 then .one
  else if f = .mxInt8 then .fin false 127 (-6) else decodeElem f (fmtMax f)

/-- The smallest k with AMAX / 2^k at most T / 2^H, before its clamp (R73). -/
def proposalK (amax top : Val) (head : Nat) : Int :=
  let k0 := amax.ilog2 - top.ilog2 + head - 2
  let ok (k : Int) : Bool := (amax.mul (.fin false 1 (-k))).cmp (top.mul (.fin false 1 (-(head : Int)))) != .gt
  (((List.range 6).map fun (i : Nat) => k0 + i).find? ok).getD (k0 + 6)

/-- The meter writes its register of the inactive bracket; a write of the frame that it overwrites is entered (R73, R74). -/
def State.meterWrite (s : State) (k p : Nat) (v : W64) : State :=
  let x := s.sl k
  let s := if x.patched.contains p || x.pwrites.contains p then
      s.log k 13 1 false (objData k p (x.seq.frame.toNat % 2 ^ 32) v.toNat) else s
  (s.cleanInactive k p).mod k fun x => x.setParamIn p v

/-- Close one meter slot (R73, steps 1 to 4 and 6; R75). -/
def State.closeSlot (s : State) (k i : Nat) : State :=
  let x := s.sl k
  let m := (x.slots[i]?).getD ⟨none, 0, false, false⟩
  let ctl := x.slotCtl i
  let old := (x.mtr[i]?).getD ⟨0, false, false, false, false, 0⟩
  let pub := (ctl.map (·.pub)).getD false
  let preg := (ctl.map (·.preg)).getD 0
  let fresh := pub && m.seen && m.amax != 0
  let kk := proposalK (f32 m.amax) (fmtTop ((ctl.map (·.fmt)).getD .fp32)) ((ctl.map (·.head)).getD 0)
  let kc := max (-126) (min 126 kk)
  let s := s.mod k fun x => { x with
    mtr := x.mtr.setIfInBounds i
      ⟨BitVec.ofNat 32 m.amax, m.seen, m.nonfin, fresh && kc != kk, fresh, if fresh then BitVec.ofInt 9 kc else old.propK⟩
    slots := x.slots.setIfInBounds i ⟨m.ctl, 0, false, false⟩ }
  if fresh then s.meterWrite k preg (BitVec.ofNat 64 (toF32 (.fin false 1 kc)))
  else if pub then s.meterWrite k preg (x.param preg) else s

/-- Clear the meter slots without publishing (R472). -/
def Slice.clearSlots (x : Slice) : Slice := { x with slots := x.slots.map fun m => ⟨m.ctl, 0, false, false⟩ }

/-! ### Edge steps of a slice (R107) -/

/-- Copy the routines that a program lists from the library store (R142). -/
def State.routinesOf (s : State) (p : Program) : List (Nat × List Byte) :=
  p.routines.filterMap fun n => (s.fw.library.find? (fun r => r.id == n)).map fun r => (n, r.code)

/-- The program that Onori has passed and that waits in the loadable bank (R470). -/
def Slice.loadedProg (x : Slice) : Option Program :=
  if x.loaded then (if x.bank then x.prog0 else x.prog1) else none

/-- The routines lie in the library cache of the slice store; how they lie there is not given: its bytes are free (R110, R142, log 34). -/
def State.putCache (s : State) (k : Nat) (p : Program) : State :=
  if p.routines.isEmpty then s else
    let d := s.freeBytes p.libBytes
    d.2.mod k fun x => { x with store := x.store.writeN p.libBase d.1 }

/-- Step 3 of R107: the loaded bank becomes active; the registers of its bracket initial list are written in both brackets,
and each that was patched in the ending frame is entered; the routines are those that ARM copied (R475). The ring is that of its image header, with the counts as they are
(R110, R149). -/
def State.switchBank (s : State) (k : Nat) : State :=
  let x := s.sl k
  match x.loadedProg with
  | none => s.mod k fun x => { x with switchReq := false }
  | some p =>
    let lost := p.brackets.filter fun b => x.patched.contains b.1 || x.sticky.any (·.1 == b.1)
    let s := lost.foldl (fun s b => s.log k 13 3 false (objData k b.1 (x.seq.frame.toNat % 2 ^ 32) b.2.toNat)) s
    let s := p.brackets.foldl (fun s b =>
      (s.cleanFrames k (bracketFrame false b.1) 1).cleanFrames k (bracketFrame true b.1) 1) s
    let s := s.cleanFrames k 3076 64
    s.mod k fun x =>
      let x := p.brackets.foldl (fun x b =>
        { x with brk0 := x.brk0.setIfInBounds b.1 b.2, brk1 := x.brk1.setIfInBounds b.1 b.2 }) x
      { x with
        bank := !x.bank, switchReq := false, loaded := false, libcache := x.nextCache, nextCache := []
        cring := { p.cring with wr := x.cring.wr, rd := x.cring.rd, lost := x.cring.lost } }

/-- A bank switch of a slice waits for a later edge (R443). -/
def State.switchLater (s : State) (k edge : Nat) : Bool :=
  s.cmds.any fun m => m.code == 0x06 && m.begun && m.mask.getLsbD k && decide (edge < m.edge)

/-- A frame that ends without reaching the cut armed in it disables the cut (R554). -/
def Slice.endCut (x : Slice) : Cut :=
  { x.cut with enable := x.cut.enable && (x.cut.next || x.cut.frame != x.seq.frame) }

/-- Steps 1 to 4 of R107. -/
def State.edgeSteps (s : State) (k edge : Nat) : State :=
  let s := (List.range 8).foldl (fun s i => s.closeSlot k i) s
  let s := s.mod k fun x => { x with bracket := !x.bracket }
  let s := (s.sl k).sticky.foldl (fun s p => (s.cleanInactive k p.1).mod k fun x => x.setParamIn p.1 p.2) s
  let s := if (s.sl k).switchReq && !s.switchLater k edge then s.switchBank k else s
  s.mod k fun x => { x with
    sticky := [], patched := [], pwrites := [], progNs := [], hostNs := []
    seq := { x.seq with frame := x.seq.frame + 1 }
    cut := x.endCut }

/-- Step 5 of R107: the sequencer starts at index 0 of the active bank. -/
def Slice.startFrame (x : Slice) : Slice :=
  { x with
    seq := { x.seq with
      pc := 0, routine := none, hbase := 0, tbase := 0, stack := [], group := none, pred := none, wait := none,
      tickWait := false, cutStop := false, halted := false, interlock := false, predStall := false, qfull := 0,
      cmpOpen := Vector.replicate 4 false, seen := [] }
    cut := if x.cut.next then { x.cut with frame := x.seq.frame, next := false } else x.cut
    timed := { x.timed with done := [], skid := [], noted := [] }
    overexp := false, held := false, startInc := false }

/-- The timed-stream unit has finished the frame's schedule (R361, R366). -/
def Slice.timedDone (x : Slice) : Bool :=
  x.timed.skid.isEmpty &&
    ((x.prog.map (·.streams)).getD []).all fun t => x.timed.done.any fun d => d.1 == t.id && decide (t.count ≤ d.2)

/-- The work of a slice's frame is complete (R361). -/
def Slice.frameDone (x : Slice) : Bool := x.seq.tickWait && x.flight.isEmpty && x.timedDone

/-! ### Overexposure (R361 to R363) -/

/-- Count an overexposure (R361, R406). -/
def State.countOverexp (s : State) (k : Nat) : State :=
  ({ s with tick := { s.tick with overexp := sat16 s.tick.overexp 1 } }.mod k fun x =>
    { x with overexps := sat16 x.overexps 1 }).irqSet 4

/-- The frame of an overexposed slice aborts (R362, R381). -/
def State.overAbort (s : State) (k edge : Nat) : State :=
  let q := (s.sl k).seq
  ((s.countOverexp k).log k 4 0x0501 true (tickData (q.frame.toNat % 2 ^ 32) 1 q.pc edge)).abortWork k 4 0x0501

/-- The edge of an overexposed slice is held (R363). -/
def State.overHold (s : State) (k edge : Nat) : State :=
  let q := (s.sl k).seq
  ((s.countOverexp k).log k 4 2 false (tickData (q.frame.toNat % 2 ^ 32) 2 q.pc edge)).mod k fun x =>
    { x with held := true, heldNs := edge, heldTicks := sat16 x.heldTicks 1 }

/-- A period passes in which a slice starts no frame (R362, R363). -/
def State.skipFrame (s : State) (k : Nat) : State := s.mod k fun x => { x with skipped := sat16 x.skipped 1 }

/-- An uncorrectable configuration frame of a slice is due (R498). -/
def State.scrubDue (s : State) (k : Nat) : Bool := s.scrub.due.any (·.1 == k)

/-- The slice faults for its configuration frame: it starts no new frame, and the fault governs over a stop (R498, R501). -/
def State.scrubFault (s : State) (k : Nat) : State :=
  ({ s with scrub := { s.scrub with due := s.scrub.due.filter (·.1 != k) } }).drainTo k 6 .faulted 0x0601

/-- The edge of a slice whose frame is complete: it starts its next frame, or leaves RUNNING where it was asked to stop or its
configuration is bad (R107, R445, R472, R498). -/
def State.frameEdge (s : State) (k edge : Nat) : State :=
  if s.scrubDue k then s.scrubFault k
  else
    let s := s.edgeSteps k edge
    match (s.sl k).drain with
    | some d => (s.drainTo k d.cause d.target 0).mod k fun x => { x with startInc := false }
    | none => s.mod k Slice.startFrame

/-- A migration stops the slice (R481). -/
def Slice.leaving (x : Slice) : Bool := match x.drain with | some d => d.cause == 4 | none => false

/-- A slice leaves RUNNING with its frame aborted: for its configuration frame, else as its drain says (R498, R501). -/
def State.leaveAborted (s : State) (k : Nat) (d : Drain) : State :=
  if s.scrubDue k then s.scrubFault k else s.drainTo k d.cause d.target 0

/-- The block edge at a slice whose aborted work has not stopped yet: it starts no frame, and leaves RUNNING where a configuration
frame or a migration asks for it. -/
def State.abortedEdge (s : State) (k : Nat) : State :=
  if s.scrubDue k then s.scrubFault k
  else if (s.sl k).leaving then s.drainTo k 4 .ready 0
  else s

/-- A RUNNING slice whose work is incomplete at a block edge, where neither an aborted frame nor a held edge accounts for it (R361,
R363). -/
def Slice.exposed (x : Slice) : Bool := !x.overexp && (!x.held || x.leaving) && !x.frameDone

/-- The overexposure of a slice at a block edge (R360 step 1, R361 to R363, R481). -/
def State.sliceOver (s : State) (k edge : Nat) : State :=
  match (s.sl k).drain with
  | some d =>
    -- CAUSE of a MIGRATE's abort is 8, the status of its stopped records (R481); R545 lists 1 to 5. DESIGN CHOICE, unsafe (log 42).
    if d.cause = 4 then (s.leaveAborted k d).abortWork k 8 0 else (s.overAbort k edge).leaveAborted k d
  | none =>
    if (s.setting 0x0106).testBit k then s.overHold k edge
    else if s.scrubDue k then (s.overAbort k edge).scrubFault k
    else (s.overAbort k edge).mod k fun x => { x with overNs := some s.now }

/-- After its overexposure, a slice whose units have all stopped starts its next frame at the same edge (R362). -/
def State.afterOver (s : State) (k edge : Nat) : State :=
  let x := s.sl k
  if x.state ≠ .running ∨ x.held then s
  else if x.flight.isEmpty then s.frameEdge k edge
  else s.mod k fun x => { x with overexp := true }

/-- The block edge at a RUNNING slice that it does not overexpose: the block period that it ends was skipped where no frame started in it
(R360 step 2, R362, R363). -/
def State.sliceEdge (s : State) (k edge : Nat) : State :=
  let x := s.sl k
  if x.overexp then (if x.flight.isEmpty then (s.skipFrame k).frameEdge k edge else (s.skipFrame k).abortedEdge k)
  else if x.held && !x.leaving then s.skipFrame k
  else s.frameEdge k edge

/-- A slice that faulted in the core cycle of an edge, or not, freely within the nanosecond: the fault is the cause of its abort, and its
overexposure is recorded too (R364). -/
def State.faultedOver (s : State) (k edge : Nat) : State :=
  let x := s.sl k
  if x.state = .draining ∧ x.faultNs = some s.now ∧ !(x.overexp || x.seq.tickWait) then
    if s.draw.1 % 2 = 1 then
      (s.draw.2.countOverexp k).log k 4 0x0501 true (tickData (x.seq.frame.toNat % 2 ^ 32) 1 x.seq.pc edge)
    else s.draw.2
  else s

/-! ### Starts at an edge (R444) -/

/-- A READY slice whose START names this edge, or an earlier one, starts (R444). -/
def State.startSlice (s : State) (k edge : Nat) : State :=
  let x := s.sl k
  match x.state, x.startAt with
  | .ready, some e =>
    if e ≤ edge then
      (s.mod k fun x =>
        let x := if x.startInc then { x with seq := { x.seq with frame := x.seq.frame + 1 } } else x
        { x.startFrame with startAt := none }).toState k .running
    else s
  | _, _ => s

/-! ### Migrations at an edge (R481) -/

/-- The migrations in progress, where firmware runs. -/
def State.migrations (s : State) : List (Cmd × Migration) :=
  if !s.fw.running then [] else s.cmds.filterMap fun m => if m.code == 0x0A && m.begun then m.migr.map fun g => (m, g) else none

/-- A migration goes on. -/
def State.setMigr (s : State) (m : Cmd) (g : Migration) : State := s.updCmd m fun x => { x with migr := some g }

/-- The epoch of the source is retired; DRAIN_NS runs from now (R480, R481, step 3). -/
def State.retireEpoch (s : State) (m : Cmd) (g : Migration) : State :=
  s.setMigr m { g with phase := 3, drainBy := s.now + (if m.f 20 4 = 0 then 1000000 else m.f 20 4) }

/-- Step 6: the destination runs as a START would start it, the source is READY and unarmed, and the final completion is posted.
Only an aborted source has results to drop, of a number that the steps of this model do not show: a free value (log 30). -/
def State.migrateStart (s : State) (m : Cmd) (g : Migration) (edge : Nat) : State :=
  let d : Nat × State := if (s.sl g.dst).startInc then (s.draw.1 % 2 ^ 32, s.draw.2) else (0, s)
  let s := d.2.mod g.dst fun x =>
    let x := if x.startInc then { x with seq := { x.seq with frame := x.seq.frame + 1 } } else x
    { x.startFrame with armed := true, skipped := sat16 x.skipped g.skips }
  let s := (s.toState g.dst .running).mod g.src fun x => { x with armed := false, fault := 0 }
  let s := if (s.sl g.src).state = .ready then s else s.toState g.src .ready
  s.endCmd m 0 0 0 (leBytes 4 ((g.oldEpoch + 1) % 256) ++ leBytes 4 d.1 ++ leBytes 8 edge)

/-- A block edge at a migration: E1, an edge of the interval in which the placement runs no frame, or E2. -/
def State.migrateEdge (s : State) (edge : Nat) (p : Cmd × Migration) : State :=
  let (m, g) := p
  let st := (s.sl g.src).state
  if g.phase = 6 ∧ g.drainBy ≤ edge then s.migrateStart m g edge
  else if g.phase = 1 ∧ st ≠ .running ∧ st ≠ .draining then s.retireEpoch m { g with skips := 1 }
  else s.setMigr m { g with phase := max 2 g.phase, skips := g.skips + 1 }

/-! ### Parking marks (R284) -/

/-- At a tick edge, the trays of contexts without a pin in the ending frame are marked for parking, except those kept. -/
def State.markTrays (s : State) : State :=
  { s with kv := { s.kv with ctxs := s.kv.ctxs.map fun c =>
      let c' := if c.usedFrame || c.keep then c else { c with layers := c.layers.map KvLayer.startPark }
      { c' with usedFrame := !c.pins.isEmpty, keep := false } } }

/-! ### Commands that an edge ends (R443, R444, R476) -/

/-- A SWITCH one of whose slices has left RUNNING, or whose loadable bank holds no verified program any more (log 24), is refused: no
slice of its mask switches (R476). -/
def State.refuseSwitches (s : State) : State :=
  (s.cmds.filter fun m => m.code == 0x06 && m.begun).foldl (fun s m =>
    match (slicesOf m.mask.toNat).find? fun k => (s.sl k).state != .running || (s.sl k).loadedProg.isNone with
    | none => s
    | some k =>
      let s := (slicesOf m.mask.toNat).foldl (fun s j =>
        s.mod j fun x => if x.state = .running then { x with switchReq := false } else x) s
      if s.fw.running then s.endCmd m 5 k (s.sl k).state.code [] else s) s

/-- The final completions of the STARTs and SWITCHes that an edge ends (R443, R444). -/
def State.endAtEdge (s : State) (edge : Nat) : State :=
  let s := s.endWhen 0x07 (fun s m => (slicesOf m.mask.toNat).all fun k => (s.sl k).startAt.isNone) fun _ _ =>
    ⟨0, 0, 0, leBytes 8 edge⟩
  s.endWhen 0x06 (fun s m => (slicesOf m.mask.toNat).all fun k => !(s.sl k).switchReq) fun _ m =>
    ⟨0, 0, 0, leBytes 4 m.mask.toNat ++ leBytes 4 0 ++ leBytes 8 edge⟩

/-! ### The block edge (R357 to R360) -/

/-- The smallest multiple of a period above a number. -/
def nextMultiple (period n : Nat) : Nat := (n / max 1 period + 1) * max 1 period

/-- The period in force after an edge, with its entry where it changes (R359). -/
def State.takePeriod (s : State) (edge : Nat) : State :=
  match s.tick.pending with
  | none => s
  | some p => { s with tick := { s.tick with period := p, pending := none } }.log 0x0105 4 7 false (tickData 0 7 0 edge)

/-- The slices at a block edge: those that run, then those that start (R360, R444). -/
def State.slicesEdge (s : State) (edge : Nat) : State :=
  let run := s.slicesIn (· == .running)
  let s := s.refuseSwitches
  let late := run.filter fun k => (s.sl k).exposed
  let s := late.foldl (fun s k => s.sliceOver k edge) (s.present.foldl (fun s k => s.faultedOver k edge) s)
  let s := run.foldl (fun s k => if late.contains k then s.afterOver k edge else s.sliceEdge k edge) s
  let s := s.present.foldl (fun s k => s.startSlice k edge) s
  let s := s.migrations.foldl (fun s p => s.migrateEdge edge p) s
  s.endAtEdge edge

/-- A block tick edge stamped `edge` (R360). -/
def State.blockEdge (s : State) (edge : Nat) : State :=
  let s := (s.slicesEdge edge).markTrays
  let s := { s with tick := { s.tick with last := BitVec.ofNat 64 edge, count := s.tick.count + 1 } }
  let s := if s.sheet.trace.getLsbD 2 then s.log 0x0105 4 0 false (tickData 0 0 0 edge) true else s
  let s := s.takePeriod edge
  { s with tick := { s.tick with next := nextMultiple s.tick.period edge } }

/-- An edge stamped `e` is ignored: it counts, and its entry is written (R352, R358, R380; log 35). -/
def State.glitch (s : State) (e : Nat) : State :=
  { s with tick := { s.tick with glitch := sat16 s.tick.glitch 1 } }.log 0x0105 4 4 false (tickData 0 4 0 e)

/-- The source of the block tick is TICK_IN (R356). -/
def State.tickExternal (s : State) : Bool := s.setting 0x0102 == 1

/-- A rising edge of TICK_IN: stamped 3 ns back; early ones are glitches; it ends a flywheel (R358). -/
def State.tickIn (s : State) : State :=
  if !s.tick.active ∨ !s.tickExternal then s else
    let e := s.now - 3
    if s.tick.count ≠ 0 ∧ e < s.tick.last.toNat + 1000 then s.glitch e
    else
      let s := if s.tick.flywheel then
          { s with tick := { s.tick with flywheel := false } }.log 0x0105 4 6 false (tickData 0 6 0 e)
        else s
      s.blockEdge e

/-- A missing external edge is generated (R358). -/
def State.flywheel (s : State) : State :=
  if !s.tick.active ∨ !s.tickExternal ∨ s.tick.count = 0 then s else
    let due := s.tick.last.toNat + s.tick.period + (if s.tick.flywheel then 0 else s.setting 0x0103)
    if s.now < due then s else
      let s := { s with tick := { s.tick with missed := sat16 s.tick.missed 1 } }
      let s := if s.tick.flywheel then s else
          { s with tick := { s.tick with flywheel := true } }.log 0x0105 4 5 false (tickData 0 5 0 due)
      s.blockEdge due

/-- The held edge of a slice whose work is now complete (R363); a migration stops its source at a later edge (R481). -/
def State.heldNow (s : State) (k : Nat) : State :=
  let x := s.sl k
  if x.state = .running ∧ x.held ∧ x.frameDone then
    let s := s.log k 4 3 false (tickData (x.seq.frame.toNat % 2 ^ 32) 3 x.seq.pc x.heldNs)
    if x.leaving then
      ((s.mod k fun x => { x with drain := none }).frameEdge k x.heldNs).mod k fun y =>
        if y.state = .running then { y with drain := x.drain } else y
    else (s.frameEdge k x.heldNs).endAtEdge x.heldNs
  else s

/-! ### The end of a drain (R468, R472, R554) -/

/-- The masks of a STOP_BATH that ends: stopped at a frame end, and by abort (R445). -/
def State.stopMasks (s : State) (m : Cmd) : W32 × W32 :=
  let ks := slicesOf m.mask.toNat
  (maskOf (ks.filter fun k => !(s.sl k).startInc), maskOf (ks.filter fun k => (s.sl k).startInc))

/-- A slice is in neither of the states in which its units may still work. -/
def State.settled (s : State) (k : Nat) : Bool := (s.sl k).state != .running && (s.sl k).state != .draining

/-- The STOP_BATHs and TAKE_OUTs that end when a slice has stopped (R445, R446). -/
def State.endStops (s : State) : State :=
  let s := s.endWhen 0x08 (fun s m => (slicesOf m.mask.toNat).all s.settled) fun s m =>
    let w := s.stopMasks m
    ⟨0, 0, 0, leBytes 4 w.1.toNat ++ leBytes 4 w.2.toNat⟩
  s.endWhen 0x09 (fun s m => m.target == 0 && s.settled (m.f 16 1)) fun s m =>
    let st := (s.sl (m.f 16 1)).state
    if st = .service then ⟨0, 0, 0, [BitVec.ofNat 8 st.code]⟩ else .no 5 (m.f 16 1) st.code

/-- The last unit of a draining slice has stopped: the slice moves to the state that its drain sets (R468). -/
def State.drainDone (s : State) (k : Nat) : State :=
  let x := s.sl k
  match x.state, x.drain with
  | .draining, some d =>
    if !x.flight.isEmpty ∨ x.seq.wait.isSome then s else
      let s := s.mod k fun x =>
        let x := if x.startInc then x.clearSlots else x
        { x with
          drain := none, fault := if d.target = .faulted then d.fault else x.fault, overexp := false
          armed := x.armed && d.cause != 4
          cut := if x.seq.cutStop then { x.cut with reached := true, enable := false } else if x.startInc then x.endCut else x.cut }
      let s := (s.toState k d.target).endStops
      s.migrations.foldl (fun s p => if p.2.src = k ∧ p.2.phase = 2 then s.retireEpoch p.1 p.2 else s) s
  | _, _ => s

/-! ### The commands -/

/-- BLOCK_TICK_EDGE: the internal generator takes an edge that the count has reached (R357, R360). -/
def execBlockTickEdge (s : State) : Host.Outcome State Fault Refusal :=
  act s (if s.tick.active && !s.tickExternal && decide (s.tick.next ≤ s.now) then s.blockEdge s.tick.next else s)

/-- TICK_IN_EDGE (R358). -/
def execTickInEdge (s : State) : Host.Outcome State Fault Refusal := act s s.tickIn

/-- FLYWHEEL_EDGE (R358). -/
def execFlywheelEdge (s : State) : Host.Outcome State Fault Refusal := act s s.flywheel

/-- HELD_EDGE (R363). -/
def execHeldEdge (k : SliceId) (s : State) : Host.Outcome State Fault Refusal := act s (s.heldNow k.val)

/-- TIMESYNC_EDGE captures the time base; a second edge within 1,000 ns is a glitch (R352). -/
def execTimesyncEdge (s : State) : Host.Outcome State Fault Refusal :=
  act s (if !s.tb.running then s
    else if (match s.tb.lastCap with | some c => decide (s.now < c + 1000) | none => false) then s.glitch s.now
    else { s with tb := { s.tb with
      capture := s.tb.now, seq := s.tb.seq + 1, lastCap := some s.now, capAdj := 0 } })

/-- SLEW_STEP: the nanosecond in which the count advances by 2, or by 0, for an offset being slewed; it is itself one of the TB_SLEW_DIV
nanoseconds of a step (R353). -/
def execSlewStep (s : State) : Host.Outcome State Fault Refusal :=
  act s (if s.tb.slewRemain = 0 ∨ s.now < s.tb.nextSlew then s
    else
      let d : Int := if 0 < s.tb.slewRemain then 1 else -1
      let now := if 0 < s.tb.slewRemain then s.tb.now + 2 else s.tb.now
      { s with tb := { s.tb with
        now := now, slewRemain := s.tb.slewRemain - d, capAdj := s.tb.capAdj + d,
        nextSlew := now.toNat + s.setting 0x0105 - 1 } })

/-- SLICE_DRAIN_DONE (R468). -/
def execSliceDrainDone (k : SliceId) (s : State) : Host.Outcome State Fault Refusal := act s (s.drainDone k.val)

end Sys2Proof.Machine
end

