-- ==== Sys2Proof/Machine/EmulSteps.lean ====
section
/-! DEFINITION. What the emulsion controller does by itself: patrol (R334), thermal states (R336 to R339, R516), sparing copies
(R341), training and initialisation (R344, R345). -/

namespace Sys2Proof.Machine

/-! ### Thermal states -/

/-- The lower bound of a thermal state in 0.25 °C (R336). -/
def thermBound : Nat → Int
  | 0 => -512 | 1 => 340 | 2 => 380 | _ => 420

/-- The measured state at a temperature, from the state before: warmer at once, cooler only 2 °C below the bound (R336). -/
def thermNext (old : Nat) (t : Int) : Nat :=
  let warm := ([3, 2, 1].find? fun k => decide (thermBound k ≤ t)).getD 0
  if old ≤ warm then warm
  else ([3, 2, 1].find? fun k => decide (k ≤ old ∧ thermBound k - 8 ≤ t)).getD 0

/-- The state in which a column runs: the warmer of the measured and the requested one (R337). -/
def Column.runs (c : Column) : Nat := max c.thermal (if c.early then 1 else 0)

/-- The hottest tier of a column: tier and temperature; the lowest tier of equals. -/
def Column.hottest (c : Column) : Nat × Int :=
  [1, 2, 3].foldl (fun (m : Nat × Int) i => let t := (c.temps[i]?).getD 0; if m.2 < t then (i, t) else m) (0, (c.temps[0]?).getD 0)

/-- The predicted temperature of the hottest tier, as a fraction: its slope over the last 1 ms carried on to the horizon in ms
(R516); none before 1 ms of samples. -/
def Column.predict (c : Column) (now horizon : Nat) : Option (Int × Nat) :=
  let h := c.hottest
  match c.hist.head? with
  | some x =>
    if now < x.1 + 990000 then none
    else some (h.2 * (now - x.1 : Nat) + (h.2 - (x.2[h.1]?).getD 0) * (horizon * 1000000 : Nat), now - x.1)
  | none => none

/-- Early raises to X2 (R337, R516): firmware's, while EMUL_REFRESH_PREDICT is 1; otherwise none is held. -/
def State.earlyRaise (s : State) (c : Nat) : Bool :=
  let x := s.col c
  if !s.fw.running then x.early
  else if s.setting 0x0402 ≠ 1 then false
  else match x.predict s.now (s.quad (c / 8)).horizon with
    | none => x.early
    | some (t, d) => if 340 * (d : Int) ≤ t then true else if t < 332 * (d : Int) then false else x.early

/-- One column's sample: its measured state, its early raise, its entry where the state it runs in changes; records that waited for a column
in HALT go on when it leaves (R336 to R339). -/
def State.columnSample (s : State) (temps : List (BitVec 10)) (c : Nat) : State :=
  let old := s.col c
  let t : Vector Int 4 := Vector.ofFn fun (i : Fin 4) => sensor temps (c * 4 + i.val)
  let s := s.modCol c fun x =>
    { x with temps := t, hist := (x.hist ++ [(s.now, t)]).filter fun y => decide (s.now ≤ y.1 + 1000000) }
  let hot := (s.col c).hottest
  let next := thermNext old.thermal hot.2
  let early := s.earlyRaise c
  let s := s.modCol c fun x => { x with
    thermal := next, early := early
    haltNs := if next = 3 then (if old.thermal = 3 then x.haltNs else some s.now) else none
    reportNs := if next = 3 ∧ old.thermal ≠ 3 then s.now else x.reportNs
    hotNs := if next = 2 then (if old.thermal = 2 then x.hotNs else some s.now) else none }
  let s := if (s.col c).runs = old.runs then s
    else (s.log 0x0102 8 2 false (objData c 0 (old.runs + (s.col c).runs * 4 + tempField hot.2 * 2 ^ 16) 0)).irqSet 3
  if old.thermal = 3 ∧ next ≠ 3 then s.present.foldl (fun s k => s.resendRecords k) s else s

/-- The columns present (R346). -/
def State.columnsPresent (s : State) : List Nat := s.present

/-- Every column is sampled; the limit of R517 notes from when columns are hot, or cool. -/
def State.emulSample (s : State) (temps : List (BitVec 10)) : State :=
  let was := !s.hotColumns.isEmpty
  let s := s.columnsPresent.foldl (fun s c => s.columnSample temps c) s
  let is := !s.hotColumns.isEmpty
  if is && !was then
    { s with power := { s.power with
        emulCoolNs := none, emulHotNs := if s.power.emulHotNs.isSome then some s.now else none } }
  else if was && !is then { s with power := { s.power with emulCoolNs := some s.now } }
  else s

/-- The report of a column that has been in HALT for 10 ms more (R338). -/
def State.haltReport (s : State) (c : Nat) : State :=
  let x := s.col c
  if x.haltNs.isSome ∧ x.reportNs + 10000000 ≤ s.now then
    (s.modCol c fun x => { x with reportNs := x.reportNs + 10000000 }).log 0x0102 8 3 false (objData c 0 0 0)
  else s

/-! ### Sparing (R341) -/

/-- Set the physical bank of a logical bank (R340). -/
def Column.setMap (c : Column) (k : SpareCopy) : Column :=
  { c with map := (k.tier, k.bank, k.new) :: c.map.filter fun p => !(p.1 == k.tier && p.2.1 == k.bank) }

/-- The address lies in a bank that is being copied. -/
def inBank (c : Nat) (k : SpareCopy) (pa : Nat) : Bool :=
  pa / 2 ^ 31 == c && (emulPlace (pa % 2 ^ 31)).1 == k.tier && (emulPlace (pa % 2 ^ 31)).2.1 == k.bank

/-- What the reads of a copy find in error, besides the granules that are poisoned: what is corrected is counted, what is uncorrectable is
written to the spare poisoned (R330, R331, R341). -/
def State.copyReads (s : State) (c : Nat) (k : SpareCopy) (errs : List SoftErr) : State :=
  let errs := errs.filter fun e => inBank c k e.addr.toNat
  let bad := ((errs.filter fun e => e.place == .emul && e.double).map (fun e => granuleOf e.addr.toNat) ++
    s.ectl.poisoned.filter (inBank c k)).eraseDups
  let s := (s.aliasGranules errs).softSingles 0 (errs.filter fun e => e.place == .emul)
  bad.foldl (fun s g => s.emulUe g false) s

/-- A copy's last line is done: the spare map is written, the spare serves, the column is LIVE (R341, steps 3 and 4). A column in
HALT pauses its copy; a map that cannot be written leaves the old bank in service (R495). -/
def State.spareDone (s : State) (c retries : Nat) (errs : List SoftErr) : State :=
  let x := s.col c
  match x.copy with
  | none => s
  | some k =>
    if x.state ≠ .sparing ∨ x.thermal = 3 then s else
      let s := s.copyReads c k errs
      let fails := writeFails retries
      let s := s.sectorWrite 898 retries
      let s := s.modCol c fun x =>
        let y := { x with state := .live, copy := none }
        if fails then y else
          { (y.setMap k).setBank k.tier k.bank (0, (x.bankCount k.tier k.bank).2) with spared := x.spared + 1 }
      let s := if fails then s else s.log 0x0102 8 5 false (objData c (emulSub k.tier k.bank) 0 0)
      let s := if s.fw.running then s.autoSpareAgain c k.tier else s
      s.endWhen 0x1E (fun _ m => m.f 16 1 == 1 && m.f 17 1 == c && m.f 18 1 == k.tier && m.f 19 1 == k.bank) fun _ _ =>
        if fails then .no 5 898 0 else ⟨0, 0, 0, [BitVec.ofNat 8 k.new]⟩

/-! ### Patrol (R334) -/

/-- A page's element frames or scale bytes lie in the granule at an address. -/
def pageInGranule (p : KvPool) (g : KvGroup) (i pa : Nat) : Bool :=
  (List.range p.streams).any fun st =>
    let e := p.elemPa g.column g.num st i
    let c := p.scalePa g.column g.num st i
    decide (e < pa + 64 ∧ pa < e + p.pe) || (p.ps != 0 && decide (c < pa + 64 ∧ pa < c + p.ps))

/-- Each context with a LIVE page in the granule is to be faded from the first token of its lowest such page (R334). -/
def State.patrolPages (s : State) (pa : Nat) : State :=
  s.kv.groups.foldl (fun s g =>
    match s.kv.pool g.pool with
    | none => s
    | some p =>
      if !p.emul ∨ g.column ≠ pa / 2 ^ 31 then s
      else match (List.range p.z).find? fun i => g.frames[i]? == some .live && pageInGranule p g i pa with
        | some i => s.addErrFade ⟨g.ctx, (g.index * p.z + i) * 16, none⟩
        | none => s) s

/-- The layer whose tray lies only in the park slot that holds a granule. -/
def State.parkedAt (s : State) (g : Nat) : Option (Nat × Nat) :=
  (s.kv.ctxs.flatMap fun c => (List.range c.layers.length).map fun l => (c.num, l)).find? fun l =>
    (match s.layer l.1 l.2 with
     | some x => (x.tray == .parked || x.tray == .restoring) && !x.tokens.isEmpty
     | none => false) && (s.slotGranules l.1 l.2).contains g

/-- A granule that the patrol finds uncorrectable: it is poisoned, and firmware acts by the region: pages fade, a parked tray is lost, a
granule of the table area is rewritten (R331, R332, R334). -/
def State.patrolUe (s : State) (g : Nat) : State :=
  let s := s.emulUe g true
  let off := g % 2 ^ 31
  if off < 0x6C000000 then s.patrolPages g
  else if off < 0x6F000000 then
    (match s.parkedAt g with
     | some l => s.loseTray l.1 l.2
     | none => s)
  else if s.fw.running then s.rewriteGranule g else s

/-- A column that the patrol reads (R334). -/
def State.patrolled (s : State) (col : Nat) : Bool := (s.col col).state == .live || (s.col col).state == .sparing

/-- The physical address of an error, where a LIVE column's patrol can find it. -/
def State.errorPa (s : State) (e : EmulErr) : Option Nat :=
  if s.patrolled e.col.val ∧ e.offset.toNat < columnBytes then
    some (e.col.val * 2 ^ 31 + e.offset.toNat)
  else none

/-- A patrol pass from the first line to the last (R334, R335): due once per period from INIT_DONE; a column in HALT holds it up. It finds
the granules that are poisoned already uncorrectable again (R332). -/
def State.patrol (s : State) (ces ues wrong : List EmulErr) : State :=
  let e := s.ectl
  if !e.initDone ∨ s.now < e.passNs ∨ s.columns.any (fun c => (s.col c).thermal == 3) then s else
    let s := (List.range 32).foldl (fun s c => s.modCol c fun x =>
      { x with banks := x.banks.map fun b => (b.1, b.2.1, 0, b.2.2.2) }) s
    let s := (ces.filterMap s.errorPa).foldl (fun s pa => s.emulCe pa true) s
    let s := (wrong.filterMap s.errorPa).foldl (fun s pa => s.emulAlias pa true) s
    let bad := ((ues.filterMap s.errorPa).map granuleOf ++ s.ectl.poisoned.filter fun g => s.patrolled (g / 2 ^ 31)).eraseDups
    let s := bad.foldl (fun s g => s.patrolUe g) s
    { s with ectl := { s.ectl with
        passes := s.ectl.passes + 1, passNs := s.now + s.setting 0x0401 * 1000000000 } }

/-! ### Training and initialisation -/

/-- One column after training: FAILED where a channel failed or the spare map retires it; a lost spare map is replaced by the
identity and no retirement (R340, R344). -/
def State.trainColumn (s : State) (failed : W32) (lanes : List (BitVec 4)) (mapOk : Bool) (c : Nat) : State :=
  let bad := failed.getLsbD c || (mapOk && s.ectl.retired.getLsbD c)
  s.modCol c fun x => { x with
    state := if bad then .failed else .live
    lanes := min 8 ((lanes[c]?).getD 0).toNat
    map := if mapOk then x.map else [], spared := if mapOk then x.spared else 0 }

/-- Training ends in every column; Tamosh then boots from ROM while initialisation runs (R344, R414). -/
def State.trained (s : State) (failed : W32) (lanes : List (BitVec 4)) (mapOk : Bool) : State :=
  if s.start.phase ≠ .training then s else
    let s := s.columnsPresent.foldl (fun s c => s.trainColumn failed lanes mapOk c) s
    { s with
      ectl := { s.ectl with trained := true, mapLost := !mapOk, retired := if mapOk then s.ectl.retired else 0 }
      start := { s.start with phase := .boot } }

/-- READY: firmware runs and the emulsion is initialised; firmware writes its entry, the block tick and the first cap window
start, and the model's Tref starts at Tm (R357, R414, R504, R512). -/
def State.reachReady (s : State) : State :=
  if s.start.phase ≠ .verify ∨ !s.fw.running ∨ !s.ectl.initDone then s else
    let s := { s with
      start := { s.start with phase := .ready, readyNs := s.now }
      power := { s.power with
        winStart := s.now, capW := s.setting 0x0601, windowMs := s.setting 0x0602, energy := 0, samples := 0
        nextCap := 0, nextWindow := 0
        quads := s.power.quads.map fun (q : Quad) => { q with tref := q.tm * (degree / 4), trefQ := q.tm, t1 := none } }
      tick := { s.tick with
        active := true, period := s.setting 0x0101
        next := if s.now % max 1 (s.setting 0x0101) = 0 then s.now else nextMultiple (s.setting 0x0101) s.now } }
    s.log 0x0100 11 1 false (objData s.fw.slot 0 s.fw.current.version.toNat 0)

/-- Every LIVE column holds zero with valid check bytes (R345). -/
def State.emulInit (s : State) : State :=
  if !s.ectl.trained || s.ectl.initDone then s else
    { s with emul := [], ectl := { s.ectl with initDone := true, poisoned := [], passNs := s.now } }.reachReady

/-! ### The commands -/

/-- SPARE_COPY_DONE (R341). -/
def execSpareCopyDone (col : Fin 32) (retries : Reads (BitVec 4)) (s : State) : Host.Outcome State Fault Refusal :=
  act s (s.spareDone col.val retries.val.toNat retries.errs)

/-- EMUL_PATROL_PASS (R334). -/
def execEmulPatrolPass (ces : List EmulErr) (ues : PatrolErrs) (s : State) : Host.Outcome State Fault Refusal :=
  act s (s.patrol ces ues.ues ues.wrong)

/-- EMUL_THERMAL_SAMPLE (R336). -/
def execEmulThermalSample (temps : List (BitVec 10)) (s : State) : Host.Outcome State Fault Refusal :=
  act s (s.emulSample temps)

/-- EMUL_HALT_REPORT (R338). -/
def execEmulHaltReport (col : Fin 32) (s : State) : Host.Outcome State Fault Refusal := act s (s.haltReport col.val)

/-- EMUL_TRAINING_DONE (R344). -/
def execEmulTrainingDone (failed : W32) (lanes : List (BitVec 4)) (mapOk : Bool) (s : State) :
    Host.Outcome State Fault Refusal :=
  act s (s.trained failed lanes mapOk)

/-- EMUL_INIT_DONE (R345). -/
def execEmulInitDone (s : State) : Host.Outcome State Fault Refusal := act s s.emulInit

end Sys2Proof.Machine
end

