-- ==== Sys2Proof/Machine/Secur.lean ====
section
/-! DEFINITION. The security unit's register commands: SEC_CFG (R535) and the unlock token (R537). -/

namespace Sys2Proof.Machine

/-- The first write of SEC_CFG.OWNER sets it; later ones are refused (R535). -/
def State.writeOwner (s : State) (owner : W12) : Option State :=
  if s.sec.ownerValid then none else some { s with sec := { s.sec with owner := owner, ownerValid := true } }

/-- The 32 bytes of the nonce now in SEC_UNLOCK_NONCE0 to 3 (R537, R538). -/
def State.nonceBytes (s : State) : List Byte :=
  (List.range 4).flatMap fun j => leBytes 8 (Config.nonce s.sec.nonce j).toNat

/-- The unique ID (R538). -/
def State.uidBytes (s : State) : List Byte := leBytes 8 s.chip.uid0.toNat ++ leBytes 8 s.chip.uid1.toNat

/-- The token bytes in SEC_UNLOCK_DATA0 to 11 (R537). -/
def State.tokenBytes (s : State) : List Byte := s.sec.data.toList.flatMap fun w => leBytes 8 w.toNat

/-- The token is valid for the nonce, this block and a scope; key 16 is the debug-unlock key in the boot ROM (R537, log 26). -/
def State.tokenValid (s : State) (scope : Byte) : Bool :=
  Config.signatureValid 16 (Config.digest (s.nonceBytes ++ s.uidBytes ++ [scope]) ++ s.tokenBytes)

/-- A SECURITY entry of source SECURITY (R539). -/
def State.logSec (s : State) (code obj v0 : Nat) : State := s.log 0x0108 15 code false (objData obj 0 v0 0)

/-- A write of SEC_UNLOCK_GO: the token is checked, and a new nonce is drawn (R537). -/
def State.unlockGo (s : State) (src : W12) (scope : Byte) : Option State :=
  if s.ownerRefuses src then none
  else if s.sec.lockedOut then some s
  else if s.tokenValid scope then
    some ({ s with sec := { s.sec with unlocked := true, scope := scope, nonce := s.sec.nonce + 1 } }.logSec 5 0 0)
  else
    let n := s.sec.fails + 1
    some ({ s with sec := { s.sec with fails := n, lockedOut := decide (8 ≤ n), nonce := s.sec.nonce + 1 } }.logSec 6 0 0)

/-- SEC_CFG_OWNER (R535). -/
def execSecCfgOwner (src : W12) (data : W64) (s : State) : Host.Outcome State Fault Refusal :=
  act s (s.cpWrite src 0xD008 (s.writeOwner (data.setWidth 12)))

/-- SEC_UNLOCK_GO (R537). -/
def execSecUnlockGo (src : W12) (scope : Byte) (s : State) : Host.Outcome State Fault Refusal :=
  act s (s.cpWrite src 0xD0C0 (s.unlockGo src scope))

end Sys2Proof.Machine
end

