-- ==== Sys2Proof/Machine/SettingOps.lean ====
section
/-! DEFINITION. Settings in force: what a change of one does (R359, R458, R506), the combination rules (R460), and what firmware
applies at its boot (R461, R489). -/

namespace Sys2Proof.Machine

/-- Settings that firmware holds; the others are hub registers (R489). -/
def firmwareHeld (id : Nat) : Bool := [0x0203, 0x0401, 0x0402, 0x0403, 0x0701, 0x0702, 0x0703, 0x0704].contains id

/-- Set the value of a setting in force. -/
def State.putSetting (s : State) (id : Nat) (v : W64) : State :=
  { s with settings := s.settings.map fun p => if p.1 = id then (id, v) else p }

/-- Set a setting in force, with what follows from it: a period from the next edge (R359), a cap and a window from the next window
(R506), a tick source from now. -/
def State.applySetting (s : State) (id : Nat) (v : W64) : State :=
  let s := s.putSetting id v
  let n := v.toNat
  if id = 0x0101 then (if s.tick.active then { s with tick := { s.tick with pending := some n } } else s)
  else if id = 0x0102 then
    (if n = 0 then { s with tick := { s.tick with flywheel := false, next := nextMultiple s.tick.period s.now } } else s)
  else if id = 0x0601 then { s with power := { s.power with nextCap := if n = s.power.capW then 0 else n } }
  else if id = 0x0602 then { s with power := { s.power with nextWindow := if n = s.power.windowMs then 0 else n } }
  else s

/-- The largest Z of the configured pools; every Z is a power of two (R279, R489). -/
def State.maxZ (s : State) : Nat := s.kv.pools.foldl (fun m p => max m p.z) 1

/-- The rules of R460 between settings, for one change: DETAIL_A and DETAIL_B of the one it breaks; `ch` is the sender's. -/
def State.comboBad (s : State) (id n : Nat) (ch : Option Nat) : Option (Nat × Nat) :=
  if id = 0x0301 ∧ n < s.setting 0x0302 then some (0x0302, 0)
  else if id = 0x0302 ∧ s.setting 0x0301 < n then some (0x0301, 0)
  else if id = 0x0203 then
    ((List.range 8).find? fun p => (s.kv.pool p).any fun q => n % q.z != 0).map fun p => (0x0203, p)
  else if id = 0x0702 then
    (match ch with | some c => if n.testBit c then none else some (0x0702, c) | none => none)
  else none

/-- The legal value nearest to a stored one that breaks R460 (R461); of two as near, the lower. DESIGN CHOICE, safe (log 28). -/
def State.nearestLegal (s : State) (id n : Nat) : Nat :=
  if id = 0x0301 then s.setting 0x0302
  else if id = 0x0302 then s.setting 0x0301
  else
    let z := s.maxZ
    let lo := n / z * z
    if lo = 0 then z else if n - lo ≤ lo + z - n then lo else lo + z

/-- Firmware applies one stored value at boot (R461). A stored value of 0x0302 that has not been applied yet does not count against
one of 0x0301. -/
def State.applyStored (s : State) (id : Nat) (v : W64) : State :=
  let skip := id == 0x0301 && (s.stored.any fun p => p.1 == 0x0302)
  match if skip then none else s.comboBad id v.toNat none with
  | none => s.applySetting id v
  | some _ =>
    let n := s.nearestLegal id v.toNat
    (s.applySetting id (BitVec.ofNat 64 n)).log 0x0100 11 2 false (objData id 0 v.toNat n)

/-- Apply the stored values of the settings that a test picks, in ascending ID order (R461). -/
def State.applyAll (s : State) (pick : Nat → Bool) : State :=
  ((settingTable s.chip.model).map (·.id)).foldl (fun s id =>
    if !pick id then s else
      match s.stored.find? (fun p => p.1 == id) with
      | some p => s.applyStored id p.2
      | none => s) s

/-- Give the settings that a test picks their defaults. -/
def State.applyDefaults (s : State) (pick : Nat → Bool) : State :=
  (settingTable s.chip.model).foldl (fun s i => if pick i.id then s.putSetting i.id (BitVec.ofInt 64 i.dflt) else s) s

/-- The ID under which a thermal parameter of a quadrant is stored: 0 LIMIT, 1 RTH, 2 TAU, 3 HORIZON (R514, log 28). -/
def thermId (q field : Nat) : Nat := 0x0680 + 4 * q + field

/-- Apply the stored thermal parameters (R514). -/
def State.applyTherm (s : State) : State :=
  let get (q f old : Nat) : Nat := ((s.stored.find? (fun p => p.1 == thermId q f)).map (·.2.toNat)).getD old
  { s with power := { s.power with quads := Vector.ofFn fun (q : Fin 4) =>
      let x := s.power.quads[q.val]
      { x with
        limit := get q.val 0 x.limit, rth := get q.val 1 x.rth, tau := get q.val 2 x.tau, horizon := get q.val 3 x.horizon } } }

/-- The default thermal parameters, with which a LIMITED firmware runs (R514). -/
def State.defaultTherm (s : State) : State :=
  { s with power := { s.power with quads := s.power.quads.map fun (x : Quad) =>
      { x with limit := 400, rth := 430, tau := 20000, horizon := 10 } } }

end Sys2Proof.Machine
end

