-- ==== Sys2Proof/Machine/Firmware.lean ====
section
/-! DEFINITION. Signed images (R528, R529), the boot of firmware from ROM (R414, R487, R529), Tamosh resets and what follows them
(R436, R487 to R492, R501). -/

namespace Sys2Proof.Machine

/-! ### Images (R528, R529) -/

/-- The signature block of an image: its last 256 bytes (R528). -/
def sigBlock (image : List Byte) : List Byte := image.drop (image.length - 256)

/-- The security version of an image (R528). -/
def imageSvn (image : List Byte) : Nat := fieldOf (sigBlock image) 12 2

/-- The first check of R529 that an image fails. -/
def State.imageCheck (s : State) (usage : Nat) (image : List Byte) : Option Nat :=
  let b := sigBlock image
  let f (off n : Nat) : Nat := fieldOf b off n
  let zero (off n : Nat) : Bool := (List.range' off n).all fun i => (b[i]?).getD 0 == 0
  let body := image.take (image.length - 256)
  [(1, f 0 4 == 0x53494731 && f 4 2 == 1 && f 6 1 == usage && zero 14 2 && zero 160 96 && decide (256 ≤ image.length)),
   (2, f 8 4 + 256 == image.length),
   (3, decide (f 7 1 < 4) && !s.chip.keyRevoked.getLsbD (f 7 1)),
   (4, (b.drop 16).take 48 == Config.digest body),
   (5, Config.signatureValid (f 7 1) (b.take 160)),
   (6, usage != 1 || decide (s.sec.minSvn ≤ f 12 2))].findSome? fun c => if c.2 then none else some c.1

/-- The AUTH_FAIL entry of an image that fails a check (R529, R546). -/
def State.logAuth (s : State) (image : List Byte) (check : Nat) : State := s.logSec 1 (fieldOf (sigBlock image) 7 1) check

/-- The check that a slot's image fails; the factory's image passes (log 29). -/
def State.slotCheck (s : State) (n : Nat) : Option Nat :=
  let x := s.fw.slotOf n
  if x.factory then none else s.imageCheck 1 x.image

/-- The ROM verifies a slot, then the other one (R529): the slot that boots, if any. -/
def State.romVerify (s : State) (pref : Nat) : Option Nat × State :=
  match s.slotCheck pref with
  | none => (some pref, { s with start := { s.start with slotFallback := false } })
  | some e =>
    let s := (s.logAuth (s.fw.slotOf pref).image e).logSec 2 pref 0
    let s := { s with start := { s.start with slotFallback := true } }
    match s.slotCheck (3 - pref) with
    | none => (some (3 - pref), s)
    | some e => (none, s.logAuth (s.fw.slotOf (3 - pref)).image e)

/-! ### Firmware begins to run (R487, R489, R491) -/

/-- A change of the boot record: one indivisible sector write (R485). -/
def State.putBoot (s : State) (b : BootRecord) : State :=
  ({ s with fw := { s.fw with boot := b } }).sectorWrite 896 0

/-- The firmware of a slot runs: its state by the boot record and the schema that it reads (R487, R489). -/
def State.runSlot (s : State) (slot : Nat) : State :=
  let b := s.fw.boot
  let st := if b.state = .committed then FwState.committed else if (s.fw.slotOf slot).reads b.schema then .trial else .limited
  let was := s.fw.state
  let s := { s with
    fw := { s.fw with running := true, state := st, slot := slot }
    start := { s.start with fwSlot := BitVec.ofNat 2 slot } }
  let s := if st = b.state then s else s.putBoot { b with state := st }
  let s := if st = .committed then { s with fw := { s.fw with dogUntil := none } }
    else if s.fw.dogUntil.isSome then s else { s with fw := { s.fw with dogUntil := some (s.now + b.watchdog * 1000000000) } }
  if st = was then s else s.log 0x0100 11 5 false (objData slot st.code 0 0)

/-- Neither slot verifies (R415, R529). -/
def State.stopBoot (s : State) : State :=
  { s with start := { s.start with phase := .stoppedBoot, fwSlot := 0 }, fw := { s.fw with running := false, slot := 0 } }

/-- ROM_BOOT_DONE at start-up: settings start at their defaults, then take their stored values unless firmware is LIMITED
(R461, R489); a lost spare map is reported (R340). -/
def State.romBoot (s : State) : State :=
  if s.start.phase ≠ .boot then s else
    let r := s.romVerify s.fw.boot.preferred
    match r.1 with
    | none => r.2.stopBoot
    | some slot =>
      let s := (r.2.runSlot slot).applyDefaults fun _ => true
      let s := if s.fw.state = .limited then s.defaultTherm else (s.applyAll fun _ => true).applyTherm
      let s := if s.ectl.mapLost then s.log 0x0102 8 8 false (objData 0 0 0 0) else s
      { s with start := { s.start with phase := .verify } }.reachReady

/-- Every command that the reset ended completes ABORTED_RESET (R436, R546). -/
def State.abortCommands (s : State) : State :=
  s.cmds.foldl (fun s m =>
    (s.log (0x0200 + m.chan) 10 3 false (objData m.chan m.code (m.f 4 4) 0)).endCmd m 17 0 0 []) s

/-- The final completion that a reset left owed (R453, R487, R491, R492). -/
def State.payOwed (s : State) (rolledBack : Bool) : State :=
  match s.fw.owed with
  | none => s
  | some m =>
    let s := { s with fw := { s.fw with owed := none } }
    let v := leBytes 4 s.fw.current.version.toNat
    let st := if rolledBack then 16 else if s.fw.state = .limited then 15 else 0
    let res := if st ≠ 0 then [] else if m.code = 0x18 then v ++ [BitVec.ofNat 8 s.fw.slot] else v
    s.postCpl m.chan (cplMsg (m.f 4 4) m.code st (if m.late then 1 else 0) 0 0 res)

/-- FW_BOOT: the firmware of the boot record's slot, or of the other one, starts after a Tamosh reset (R487 to R492). -/
def State.fwBoot (s : State) : State :=
  if s.fw.running ∨ s.start.phase ≠ .ready then s else
    let want := s.fw.boot.preferred
    let r := s.romVerify want
    match r.1 with
    | none => r.2.stopBoot
    | some slot =>
      let s := r.2
      let failed := slot != want
      let s := if failed then s.putBoot { s.fw.boot with preferred := slot, previous := want, state := .trial } else s
      let s := (s.runSlot slot).applyDefaults firmwareHeld
      let s := if s.fw.state = .limited then s.defaultTherm else s.applyAll firmwareHeld
      let back := s.fw.owedKind == 1
      let s := (s.abortCommands).payOwed (failed || back)
      let s := { s with fw := { s.fw with owedKind := 0 } }
      let s := if back then s.log 0x0100 11 4 false (objData slot 0 s.fw.current.version.toNat 0) else s
      s.irqSet 8

/-! ### Tamosh resets -/

/-- A migration that a Tamosh reset ends before its last step: the source becomes READY and armed with the next epoch (R468,
R501). A source that still runs stops at its edge first (log 30). -/
def State.resetMigration (s : State) (m : Cmd) : State :=
  match m.migr with
  | none => s
  | some g =>
    let s := s.mod g.src fun x => { x with epoch := (g.oldEpoch + 1) % 256 }
    if (s.sl g.src).state = .running ∨ (s.sl g.src).state = .draining then
      s.mod g.src fun x => { x with drain := x.drain.map fun d => { d with cause := 2 } }
    else if (s.sl g.src).state = .ready then s.mod g.src fun x => { x with armed := true }
    else (s.mod g.src fun x => { x with armed := true, fault := 0 }).toState g.src .ready

/-- The Tamosh domain resets (R418, R488): mailbox service and firmware's work pause, migrations end; `owed` posts its completion
after the boot; SPDM asks for a new start (R533). -/
def State.tamoshReset (s : State) (owed : Option Cmd) (kind : Nat) : State :=
  let s := (s.cmds.filter fun m => m.code == 0x0A && m.begun).foldl State.resetMigration s
  { s with
    fw := { s.fw with running := false, owed := owed, owedKind := kind }
    sec := { s.sec with resync := true } }

/-- The activation watchdog expires: the previous slot, COMMITTED, boots next (R492). -/
def State.dogBites (s : State) : State :=
  match s.fw.dogUntil with
  | none => s
  | some t =>
    if s.now < t then s else
      let b := s.fw.boot
      let s := s.putBoot { b with preferred := b.previous, previous := b.preferred, state := .committed }
      let s := s.tamoshReset s.fw.owed 1
      { s with fw := { s.fw with dogUntil := none } }

/-! ### The commands -/

/-- ROM_BOOT_DONE (R414, R529). -/
def execRomBootDone (s : State) : Host.Outcome State Fault Refusal := act s s.romBoot

/-- FW_BOOT (R487). -/
def execFwBoot (s : State) : Host.Outcome State Fault Refusal := act s s.fwBoot

/-- WATCHDOG_EXPIRY (R492). -/
def execWatchdogExpiry (s : State) : Host.Outcome State Fault Refusal := act s s.dogBites

end Sys2Proof.Machine
end

