-- ==== Sys2Proof/Machine/GatherScatter.lean ====
section
/-! DEFINITION. The meanings of the instructions of the gather/scatter unit, 0x80 to 0x84 (R204 to R213): each issues and, where
its unit is free, starts (R125, R542); what its units of progress compute is its own function of Machine/. -/

namespace Sys2Proof.Machine

/-- GATHER (R207): copies an indexed source into a destination. -/
def execGather (k : SliceId) (f : Fields) (s : State) : Host.Outcome State Fault Refusal :=
  act s (s.issueEngine k.val 0x80 f)

/-- SCATTER (R208): copies a source into an indexed destination. -/
def execScatter (k : SliceId) (f : Fields) (s : State) : Host.Outcome State Fault Refusal :=
  act s (s.issueEngine k.val 0x81 f)

/-- SCATTER_ADD (R209): adds a source into an indexed destination by combined atomic read-modify-writes. -/
def execScatterAdd (k : SliceId) (f : Fields) (s : State) : Host.Outcome State Fault Refusal :=
  act s (s.issueEngine k.val 0x82 f)

/-- SCATTER_MAX (R211): keeps the larger value at each indexed destination element. -/
def execScatterMax (k : SliceId) (f : Fields) (s : State) : Host.Outcome State Fault Refusal :=
  act s (s.issueEngine k.val 0x83 f)

/-- SCATTER_MIN (R211): keeps the smaller value at each indexed destination element. -/
def execScatterMin (k : SliceId) (f : Fields) (s : State) : Host.Outcome State Fault Refusal :=
  act s (s.issueEngine k.val 0x84 f)

end Sys2Proof.Machine
end

