-- ==== Sys2Proof/Machine/KvInstr.lean ====
section
/-! DEFINITION. The meanings of the instructions of the KV port, 0xB0 to 0xB2 (R289 to R297): each issues and, where
its unit is free, starts (R125, R542); what its units of progress compute is its own function of Machine/. -/

namespace Sys2Proof.Machine

/-- APPEND (R290): appends tokens to a layer's tray, fixing full trays into pages. -/
def execAppend (k : SliceId) (f : Fields) (s : State) : Host.Outcome State Fault Refusal :=
  act s (s.issueEngine k.val 0xB0 f)

/-- FIX (R294): fixes a FULL tray of a layer into a page. -/
def execFix (k : SliceId) (f : Fields) (s : State) : Host.Outcome State Fault Refusal :=
  act s (s.issueEngine k.val 0xB1 f)

/-- PAGEQ (R296): writes a snapshot of context or page records into the slice store. -/
def execPageq (k : SliceId) (f : Fields) (s : State) : Host.Outcome State Fault Refusal :=
  act s (s.issueEngine k.val 0xB2 f)

end Sys2Proof.Machine
end

