-- ==== Sys2Proof/Machine/Maint.lean ====
section
/-! DEFINITION. Slices that join: wake-ups (R518, R519), the entry check (R469); configuration scrubbing (R496 to R499). -/

namespace Sys2Proof.Machine

/-! ### Wake-ups -/

/-- The boot record's mask of retired slices, one sector write (R484, R485). -/
def State.setRetired (s : State) (k : Nat) (r : Bool) (retries : Nat) : State :=
  let m := if r then s.fw.boot.retired ||| (1#32 <<< k) else s.fw.boot.retired &&& ~~~(1#32 <<< k)
  ({ s with fw := { s.fw with boot := { s.fw.boot with retired := m } } }).sectorWrite 896 retries

/-- The supply of a slice comes on: its domain resets and it is COLD; one that REPAIR had retired is available again (R414, R418,
R471, R478, R484). -/
def State.wake (s : State) (k : Nat) : State :=
  let was := (s.sl k).retired
  let s := (s.mod k fun _ => { Slice.reset with state := .off }).toState k .cold
  if was then (s.setRetired k false 0).logAvail k else s

/-- Wake-ups that count against an admission now (R518). -/
def State.recentAdmits (s : State) : List Nat := s.power.admits.filter fun t => decide (s.now ≤ t + 4000)

/-- The power manager admits the oldest wake-up (R518). -/
def State.admitWakes (s : State) : State :=
  match s.power.wakes with
  | [] => s
  | k :: rest =>
    if s.power.clamp ∨ 2 ≤ s.recentAdmits.length then s else
      let s := { s with power := { s.power with
        wakes := rest, admits := s.recentAdmits ++ [s.now], admitted := sat16 s.power.admitted 1 } }
      s.wake k

/-! ### The entry check -/

/-- The SLICE_SERVICE and REPAIR commands that wait for a slice's entry check end (R446, R484). -/
def State.endChecks (s : State) (k : Nat) : State :=
  let s := s.endWhen 0x09 (fun _ m => (m.target == 2 || m.target == 4) && m.f 16 1 == k) fun s _ =>
    ⟨0, 0, 0, [BitVec.ofNat 8 (s.sl k).state.code]⟩
  s.endWhen 0x1E (fun _ m => m.f 16 1 == 4 && m.f 17 1 == k) fun _ _ => ⟨0, 0, 0, []⟩

/-- A FAULT entry of the scrubber or of the entry check (R541, R543). -/
def State.logFrame (s : State) (frame : Nat) : State := s.log 0x0107 1 0x0601 true (faultData 0xFFFF none 0 0xFF frame)

/-- The configuration memory of a COLD slice has been written with zero and read back; `bad` is a frame that failed (R469). -/
def State.entryCheck (s : State) (k : Nat) (bad : Option Nat) : State :=
  if !s.fw.running ∨ s.start.phase ≠ .ready ∨ !s.present.contains k ∨ (s.sl k).state ≠ .cold then s else
    let s := { s with scrub := { s.scrub with bad := s.scrub.bad.filter (·.1 != k), due := s.scrub.due.filter (·.1 != k) } }
    let s := s.mod k fun x => { x with
      imem := [], desc := [], brk0 := Vector.replicate 64 0, brk1 := Vector.replicate 64 0 }
    (match bad with
      | none => s.toState k .ready
      | some f => ((s.logFrame f).mod k fun x => { x with fault := 0x0601 }).toState k .faulted).endChecks k

/-! ### Scrubbing -/

/-- The frame of a slice lies wholly inside its loadable bank (R108, R496, R498). -/
def Slice.inLoadable (x : Slice) (f : Nat) : Bool := if x.bank then decide (f < 1024) else decide (1024 ≤ f ∧ f < 2048)

/-- The handles of a slice's armed and loaded programs (R498). -/
def Slice.usedHandles (x : Slice) : List Nat :=
  (if x.armed then (x.prog.map (·.handles)).getD [] else []) ++
    (if x.loaded then ((if x.bank then x.prog0 else x.prog1).map (·.handles)).getD [] else [])

/-- The frame lies wholly inside descriptors that no loaded or armed program uses. -/
def Slice.idleDesc (x : Slice) (f : Nat) : Bool :=
  decide (2048 ≤ f ∧ f < 3072) && !(x.usedHandles.contains ((f - 2048) * 2)) && !(x.usedHandles.contains ((f - 2048) * 2 + 1))

/-- A frame that the scrubber can read: of a slice that is not OFF or COLD (R497). -/
def State.scrubbed (s : State) (e : CfgErr) : Bool :=
  s.present.contains e.slice.val && (s.sl e.slice.val).state != .off && (s.sl e.slice.val).state != .cold &&
    decide (e.frame.toNat < 3140)

/-- An uncorrectable frame (R498). -/
def State.badFrame (s : State) (e : CfgErr) : State :=
  let k := e.slice.val
  let f := e.frame.toNat
  let x := s.sl k
  let idle := x.inLoadable f || x.idleDesc f
  let s := { s with scrub := { s.scrub with
    uncorr := s.scrub.uncorr + 1, lastSlice := k, lastFrame := f, lastFetch := false, lastValid := true, lastNs := s.tb.now
    bad := (k, f) :: s.scrub.bad.erase (k, f)
    due := if idle then s.scrub.due else (k, f) :: s.scrub.due.erase (k, f) } }
  let s := s.logFrame f
  if x.inLoadable f then s.mod k fun x => { x with loaded := false } else s

/-- A pass over every frame (R497, R498): one for each period, from the start of its period on. -/
def State.scrubPass (s : State) (single double : List CfgErr) (late : Bool) : State :=
  let start := s.scrub.startNs.getD s.now
  if s.start.phase ≠ .ready ∨ s.now < start then s else
    let n := (single.eraseDups.filter s.scrubbed).length
    let s := (double.eraseDups.filter s.scrubbed).foldl State.badFrame s
    { s with scrub := { s.scrub with
      passes := s.scrub.passes + 1, late := if late then s.scrub.late + 1 else s.scrub.late
      corrected := s.scrub.corrected + BitVec.ofNat 32 n, startNs := some (start + s.setting 0x0704 * 1000000) } }

/-! ### The commands -/

/-- SLICE_ENTRY_CHECK (R469). -/
def execSliceEntryCheck (k : SliceId) (bad : Option W12) (s : State) : Host.Outcome State Fault Refusal :=
  act s (s.entryCheck k.val (bad.map (·.toNat)))

/-- WAKE_ADMIT (R518). -/
def execWakeAdmit (s : State) : Host.Outcome State Fault Refusal := act s s.admitWakes

/-- CFG_SCRUB_PASS (R497). -/
def execCfgScrubPass (single double : List CfgErr) (late : Bool) (s : State) : Host.Outcome State Fault Refusal :=
  act s (s.scrubPass single double late)

end Sys2Proof.Machine
end

