-- ==== Sys2Proof/Machine/OnoriTypes.lean ====
section
/-! DEFINITION. What Onori looks at (R462): descriptors, the image (R110), the verification context; rejections (R464); and the
exact overlap decisions (R127, R163). -/

namespace Sys2Proof.Machine

/-- A rejection (R462): reject code, KIND, index, routine ID or 0xFFFF. -/
structure Reject where
  code    : Nat
  kind    : Nat
  index   : Nat
  routine : Nat
deriving DecidableEq, Repr

/-- The code of the first rule that fails: rules stand in the order of the reject codes (R463). -/
def firstCode (l : List (Nat × Bool)) : Option Nat := (l.find? (·.2)).map (·.1)

/-! ### Descriptors (R117, R118) -/

/-- A descriptor as Onori reads it: its handle and its 128 bytes. -/
structure VDesc where
  handle : Nat
  raw    : List Byte
deriving DecidableEq, Repr

namespace VDesc

/-- A field by offset and size. -/
def f (d : VDesc) (off n : Nat) : Nat := fieldOf d.raw off n
/-- FMTCTL. -/
def ctl (d : VDesc) : Nat := d.f 0x14 2
/-- The format, FP32 for a reserved ID. -/
def fmt (d : VDesc) : Fmt := (fmtOfId (bits d.ctl 4 0)).getD .fp32
/-- PLANAR layout. -/
def planar (d : VDesc) : Bool := bits d.ctl 5 5 == 1
/-- SPACE is VIRT. -/
def virt (d : VDesc) : Bool := bits d.ctl 15 14 == 0
/-- SPACE is SLICE_STORE. -/
def store (d : VDesc) : Bool := bits d.ctl 15 14 == 1
/-- NDIM. -/
def ndim (d : VDesc) : Nat := d.f 0x19 1 % 8
/-- The static extent of a dimension. -/
def ext (d : VDesc) (i : Nat) : Nat := if i < d.ndim then d.f (0x40 + 8 * i) 4 else 1
/-- The stride of a dimension. -/
def stride (d : VDesc) (i : Nat) : Int := (BitVec.ofNat 32 (d.f (0x44 + 8 * i) 4)).toInt
/-- The dimensions at their static extents. -/
def dims (d : VDesc) : List Dim := (List.range d.ndim).map fun i => ⟨d.ext i, d.stride i⟩
/-- The element count at the static extents (R119). -/
def count (d : VDesc) : Nat := (d.dims.map (·.extent)).foldl (· * ·) 1
/-- Bits of an element. -/
def width (d : VDesc) : Nat := fmtBits d.fmt
/-- An MX format. -/
def mx (d : VDesc) : Bool := fmtMx d.fmt
/-- BASE. -/
def base (d : VDesc) : Nat := d.f 0 8
/-- SCALE_BASE. -/
def sbase (d : VDesc) : Nat := d.f 8 8
/-- DOMAIN. -/
def domain (d : VDesc) : Nat := d.f 0x16 2 % 4096
/-- The base is bound at run time (R121). -/
def bindBase (d : VDesc) : Bool := bits (d.f 0x20 8) 6 6 == 1
/-- The extent of a dimension is bound at run time (R121). -/
def bindAt (d : VDesc) (i : Nat) : Bool := (d.f 0x20 8).testBit (7 * i + 13)
/-- An extent is bound at run time (R121). -/
def bindExt (d : VDesc) : Bool := (List.range 6).any d.bindAt
/-- IDX_EN. -/
def idx (d : VDesc) : Bool := bits (d.f 0x1C 2) 11 11 == 1
/-- IDX_HANDLE. -/
def idxHandle (d : VDesc) : Nat := bits (d.f 0x1C 2) 10 0
/-- IDX_DIM. -/
def idxDim (d : VDesc) : Nat := bits (d.f 0x1C 2) 14 12
/-- BOUND_EN. -/
def bound (d : VDesc) : Bool := d.f 0x1E 2 % 2 == 1
/-- LIMIT. -/
def limit (d : VDesc) : Nat := d.f 0x28 8
/-- TSCALE_SRC is IMMEDIATE with 1.0. -/
def unitScale (d : VDesc) : Bool := bits d.ctl 7 7 == 0 && d.f 0x10 4 == 0x3F800000
/-- Meter controls. -/
def meter (d : VDesc) : Option MeterCtl :=
  let m := d.f 0x1A 2
  if bits m 0 0 = 1 then some ⟨bits m 3 1, bits m 6 4, bits m 7 7 == 1, bits m 13 8, d.fmt⟩ else none
/-- The tensor at its static base and extents. -/
def tensor (d : VDesc) : Tensor :=
  ⟨d.handle, d.virt, d.domain, d.f 0x18 1, d.base, d.sbase, d.fmt, d.planar, bits d.ctl 6 6 == 1, d.f 0x10 4, d.dims, d.meter,
    none, none, false, 0⟩

end VDesc

/-- The layouts of a format (R46): PACKED, PLANAR. -/
def packedOk : Fmt → Bool
  | .mxE3m2 | .mxE2m3 | .mxE2m1 | .mask1 => false
  | _ => true

/-- The formats that have a PLANAR layout (R46). -/
def planarOk : Fmt → Bool
  | .mxE4m3 | .mxE5m2 | .mxE3m2 | .mxE2m3 | .mxE2m1 | .mxInt8 | .int8 | .uint8 | .mask1 => true
  | _ => false

/-- The formats native to the attention arrays (R46, R235). -/
def arrayFmt (f : Fmt) : Bool := f == .fp32 || f == .fp16 || f == .bf16 || fmtMx f

/-- The floating-point formats (R45). -/
def floatFmt (f : Fmt) : Bool := arrayFmt f

/-! ### Address windows (R127, R163) -/

/-- The least and the greatest linear element offset (R55). -/
def VDesc.span (d : VDesc) : Int × Int :=
  d.dims.foldl (fun s x =>
    let r : Int := x.stride * ((x.extent : Int) - 1)
    (s.1 + min 0 r, s.2 + max 0 r)) (0, 0)

/-- The addresses of a descriptor: from the first byte that it reaches to the byte after the last. -/
def VDesc.window (d : VDesc) : Int × Int :=
  if d.idx then (d.base, d.base + d.limit)
  else
    let s := d.span
    let b : Int := d.width
    if d.planar then (d.base + s.1 / 1024 * b * 128, d.base + s.2 / 1024 * b * 128 + (b - 1) * 128 + s.2 % 1024 / 8 + 1)
    else (d.base + s.1 * (b / 8), d.base + (s.2 + 1) * (b / 8))

/-- The addresses of its scale plane (R56). -/
def VDesc.scaleWindow (d : VDesc) : Option (Int × Int) :=
  if !d.mx then none
  else if d.idx then none
  else some (d.sbase + d.span.1 / 32, d.sbase + d.span.2 / 32 + 1)

/-- Every window of a descriptor. -/
def VDesc.windows (d : VDesc) : List (Int × Int) := d.window :: d.scaleWindow.toList

/-- Two windows overlap. -/
def meets (a b : Int × Int) : Bool := decide (a.1 < b.2 ∧ b.1 < a.2 ∧ a.1 < a.2 ∧ b.1 < b.2)

/-- Two descriptors lie in one memory. -/
def VDesc.sameMemory (a b : VDesc) : Bool := (a.store && b.store) || (a.virt && b.virt && a.domain == b.domain)

/-- Windows of two descriptors in one memory overlap. -/
def VDesc.meets (a b : VDesc) : Bool :=
  a.sameMemory b && a.windows.any fun x => b.windows.any fun y => Sys2Proof.Machine.meets x y

/-- Bytes that a descriptor covers as one run repeated over dimensions: the base, the dimensions (byte stride, extent), the run. -/
structure Runs where
  base : Int
  dims : List (Int × Nat)
  len  : Int
deriving DecidableEq, Repr

/-- The bytes of a descriptor at its static extents: elements, or whole MX blocks, and scale bytes where it is PACKED; its windows where
it is PLANAR (R53 to R56). -/
def VDesc.runs (d : VDesc) : List Runs :=
  let outer (n w : Int) : List (Int × Nat) := (d.dims.drop 1).map fun x => (x.stride / n * w, x.extent)
  if d.planar || d.idx then d.windows.map fun w => ⟨w.1, [], w.2 - w.1⟩
  else if d.mx then
    let w : Int := 4 * d.width
    [⟨d.base, (w, d.ext 0 / 32) :: outer 32 w, w⟩, ⟨d.sbase, (1, d.ext 0 / 32) :: outer 32 1, 1⟩]
  else [⟨d.base, d.dims.map fun x => (x.stride * ((d.width / 8 : Nat) : Int), x.extent), (d.width / 8 : Nat)⟩]

/-- Add a dimension (byte stride, least and greatest index) to a list with larger strides first; equal strides are one dimension. -/
def insertSpan (s : Nat) (a b : Int) : List (Nat × Int × Int) → List (Nat × Int × Int)
  | [] => [(s, a, b)]
  | (t, c, d) :: l =>
    if s = t then (t, c + a, d + b) :: l else if t < s then (s, a, b) :: (t, c, d) :: l else (t, c, d) :: insertSpan s a b l

/-- A dimension of signed stride as one of positive stride; `neg` takes its offsets away. -/
def spanOf (neg : Bool) (l : List (Nat × Int × Int)) (p : Int × Nat) : List (Nat × Int × Int) :=
  let top : Int := (p.2 : Int) - 1
  if p.1 = 0 then l
  else if (0 < p.1) != neg then insertSpan p.1.natAbs 0 top l else insertSpan p.1.natAbs (-top) 0 l

/-- Some indices give an offset from `lo` to `hi`. -/
def hitsRange : List (Nat × Int × Int) → Int → Int → Bool
  | [], lo, hi => decide (lo ≤ 0 ∧ 0 ≤ hi)
  | (s, a, b) :: rest, lo, hi =>
    let least := (rest.map fun p => (p.1 : Int) * p.2.1).foldl (· + ·) 0
    let most := (rest.map fun p => (p.1 : Int) * p.2.2).foldl (· + ·) 0
    let i0 := max a (-((most - lo) / s))
    let i1 := min b ((hi - least) / s)
    (List.range (i1 + 1 - i0).toNat).any fun n => hitsRange rest (lo - (i0 + n) * s) (hi - (i0 + n) * s)

/-- Two sets of bytes share one. -/
def Runs.meets (a b : Runs) : Bool :=
  hitsRange (b.dims.foldl (spanOf true) (a.dims.foldl (spanOf false) [])) (b.base - a.base - (a.len - 1)) (b.base - a.base + (b.len - 1))

/-- Two descriptors share a byte, at their static bases and extents (R180); what is bound Onori does not decide. -/
def VDesc.overlaps (a b : VDesc) : Bool :=
  !(a.bindBase || a.bindExt || b.bindBase || b.bindExt) && a.sameMemory b && a.runs.any fun x => b.runs.any x.meets

/-- What the differences of indices over dimensions (stride magnitude, extent) can add up to at most. -/
def reachOf (l : List (Nat × Nat)) : Nat := (l.map fun p => p.1 * (p.2 - 1)).foldl (· + ·) 0

/-- Some differences of indices, not all zero, add up to a number: the dimensions are searched one by one, over the differences
that the rest can still make up for. -/
def sharesOffset : List (Nat × Nat) → Int → Bool → Bool
  | [], t, moved => t == 0 && moved
  | (s, e) :: rest, t, moved =>
    let r : Int := reachOf rest
    let top : Int := (e : Int) - 1
    let lo := max (-top) (-((r - t) / s))
    let hi := min top ((t + r) / s)
    (List.range (hi + 1 - lo).toNat).any fun i =>
      sharesOffset rest (t - (lo + i) * s) (moved || lo + (i : Int) != 0)

/-- Insert a dimension, larger strides first. -/
def insertDim (p : Nat × Nat) : List (Nat × Nat) → List (Nat × Nat)
  | [] => [p]
  | q :: l => if q.1 ≤ p.1 then p :: q :: l else q :: insertDim p l

/-- Two iteration positions of a descriptor, at its static extents, have the same linear element offset (R163). -/
def VDesc.aliases (d : VDesc) : Bool :=
  let ds := (d.dims.filter fun x => decide (1 < x.extent)).map fun x => (x.stride.natAbs, x.extent)
  ds.any (fun p => p.1 == 0) || sharesOffset (ds.foldr insertDim []) 0 false

/-! ### The image and its context (R110, R462) -/

/-- What one run of Onori works on: the image, the slice that it is to run on, the slice whose descriptor table it meets (another
one only for MIGRATE, R479), and the block whose programs and library are its context; `empty` asks for an empty slice of a block
with nothing armed (R442). -/
structure Verify where
  s     : State
  k     : Nat
  tab   : Nat
  img   : List Byte
  empty : Bool

namespace Verify

/-- A header field. -/
def h (v : Verify) (off n : Nat) : Nat := fieldOf v.img off n
/-- The slice whose table and active program are context. -/
def x (v : Verify) : Slice := if v.empty then Slice.reset else v.s.sl v.tab
/-- LENGTH. -/
def length (v : Verify) : Nat := v.h 12 4
/-- The instructions of the image. -/
def code (v : Verify) : List Nat := (List.range v.length).map fun i => v.h (v.h 8 4 + 16 * i) 16
/-- The descriptor list. -/
def listed (v : Verify) : List VDesc := (List.range (v.h 36 2)).map fun i =>
  ⟨v.h (v.h 32 4 + 136 * i) 2 % 2048, (v.img.drop (v.h 32 4 + 136 * i + 8)).take 128⟩
/-- The routine list. -/
def routines (v : Verify) : List Nat := (List.range (v.h 38 2)).map fun i => v.h (v.h 40 4 + 2 * i) 2
/-- The alias list. -/
def aliases (v : Verify) : List (Nat × Nat) := (List.range (v.h 48 2)).map fun i =>
  (v.h (v.h 44 4 + 4 * i) 2, v.h (v.h 44 4 + 4 * i + 2) 2)
/-- The bracket initial list. -/
def brackets (v : Verify) : List (Nat × Nat) := (List.range (v.h 50 2)).map fun i =>
  (v.h (v.h 52 4 + 16 * i) 1, v.h (v.h 52 4 + 16 * i + 8) 8)
/-- The library cache: base and size. -/
def lib (v : Verify) : Nat × Nat := (v.h 64 4, v.h 68 4)
/-- The descriptor that the slice's table holds for a handle: one with dimensions (log 34). -/
def held (v : Verify) (h : Nat) : Option VDesc :=
  let d : VDesc := ⟨h, v.x.desc.readN (128 * h) 128⟩
  if d.ndim = 0 then none else some d
/-- The descriptor that a handle names, the image's before the table's (R111, R123). -/
def desc (v : Verify) (h : Nat) : Option VDesc :=
  match v.listed.reverse.find? (fun d => d.handle == h) with
  | some d => some d
  | none => if h < 2048 then v.held h else none
/-- The program that the slice runs or would start: what is active or armed (R111, R462). -/
def active (v : Verify) : Option Program := if v.x.armed then v.x.prog else none
/-- The armed programs of the other slices (R30, R368). -/
def others (v : Verify) : List (Nat × Program) :=
  if v.empty then [] else v.s.present.filterMap fun j =>
    if j = v.k ∨ j = v.tab ∨ !(v.s.sl j).armed then none else ((v.s.sl j).prog).map fun p => (j, p)
/-- The code of a routine of the library, as words. -/
def routine (v : Verify) (id : Nat) : Option (List Nat) :=
  (v.s.fw.library.find? (fun r => r.id == id)).map fun r =>
    (List.range (r.code.length / 16)).map fun i => fieldOf r.code (16 * i) 16

end Verify

end Sys2Proof.Machine
end

