-- ==== Sys2Proof/Machine/MailRegs.lean ====
section
/-! DEFINITION. The rings and the registers with their own commands: doorbells, pops, the start and the timeout of requests
(R425 to R427, R430, R433, R434), the contact sheet's registers (R382, R383), completion rings (R155), interrupts (R406). -/

namespace Sys2Proof.Machine

/-! ### Rings -/

/-- The 64 staged bytes of a channel (R425). -/
def Chan.staged (x : Chan) : List Byte := x.stage.toList.flatMap fun w => leBytes 8 w.toNat

/-- A doorbell: the staged request is pushed; refused while the ring holds 64; without effect before PHASE is READY
(R415, R425). -/
def State.doorbell (s : State) (c : Nat) : Option State :=
  if s.start.phase ≠ .ready then some s
  else if 64 ≤ (s.chan c).reqs.length then none
  else some (s.modChan c fun x => { x with reqs := x.reqs ++ [x.staged], reqWr := x.reqWr + 1 })

/-- A pop: the completion at CPL_RD goes, and one that waits is posted (R426, R427). -/
def State.popCpl (s : State) (c : Nat) : State :=
  if (s.chan c).cpls.isEmpty then s
  else (s.modChan c fun x => { x with cpls := x.cpls.drop 1, cplRd := x.cplRd + 1 }).drainHeld c 1

/-- The command codes that R438 marks admin. -/
def adminCode (c : Nat) : Bool :=
  [0x03, 0x09, 0x0B, 0x0D, 0x15, 0x16, 0x17, 0x18, 0x19, 0x1A, 0x1E, 0x1F].contains c

/-- A request that fails the checks common to all commands: BAD_COMMAND, RIGHTS, the header's BAD_FIELD (R430, R434, R562). -/
def State.headerBad (s : State) (c : Nat) (m : List Byte) : Option Ends :=
  let code := fieldOf m 0 2
  checks [(decide (code = 0 ∨ 0x1F < code), .no 1 0 0),
    (adminCode code && !(s.setting 0x0702).testBit c, .no 3 0 0),
    ((m[2]?).getD 0 != 0, .bad 2), ((m[3]?).getD 0 != 0, .bad 3),
    (decide (60000 < fieldOf m 8 4), .bad 8),
    ((m[12]?).getD 0 != 0, .bad 12), ((m[13]?).getD 0 != 0, .bad 13), ((m[14]?).getD 0 != 0, .bad 14),
    ((m[15]?).getD 0 != 0, .bad 15)]

/-- A command that begins on a channel; its timeout runs from now (R430, R433). -/
def State.newCmd (s : State) (c : Nat) (m : List Byte) : Cmd :=
  let ms := if fieldOf m 8 4 = 0 then s.setting 0x0701 else fieldOf m 8 4
  ⟨c, m, s.now, s.now + ms * 1000000, false, false, [], 0, 0, 0, 0, 0, none⟩

/-- COMMAND_TIMEOUT: a command that can change nothing more ends TIMEOUT; a continuing one posts TIMEOUT and goes on
(R433, R546). -/
def State.cmdTimeout (s : State) (c : Nat) : State :=
  match (s.chan c).running with
  | none => s
  | some m =>
    if !s.fw.running ∨ s.now < m.deadline then s else
      let s := s.log (0x0200 + c) 10 2 false (objData c m.code (m.f 4 4) 0)
      if continuing m.code m.msg then
        let s := { s with fw := { s.fw with conts := s.fw.conts ++ [{ m with late := true }] } }.modChan c fun x =>
          { x with running := none }
        s.postCpl c (cplMsg (m.f 4 4) m.code 10 0 0 0 [])
      else s.endCmd m 10 0 0 []

/-! ### The contact sheet's registers (R382, R383) -/

/-- A write of CS_RD (R383). -/
def State.writeCsRd (s : State) (rd : W32) : State :=
  let c := s.sheet
  { s with sheet := { c with
      rd := if c.capacity < (c.wr - rd).toNat then c.wr - BitVec.ofNat 32 c.capacity else rd } }

/-- Copy the unconsumed entries to a spill ring that is being enabled: as many as it holds (R382). -/
def State.spillAll (s : State) : State :=
  let c := s.sheet
  let held := c.ring.drop (c.ring.length - c.occ)
  let first := c.wr.toNat + 2 ^ 32 - held.length
  { s with ext := ((held.take (2 ^ c.log2.toNat)).zipIdx).foldl (fun m e =>
      m.writeN (c.base.toNat * 4096 + (first + e.2) % 2 ^ c.log2.toNat * 32) e.1) s.ext }

/-- A write of CS_SPILL (R382, R383). -/
def State.writeCsSpill (s : State) (d : W64) : Option State :=
  let c := s.sheet
  let en := d.getLsbD 0
  let lg : BitVec 5 := (d >>> 1).setWidth 5
  let base : BitVec 40 := (d >>> 12).setWidth 40
  if c.spillOn && (base != c.base || lg != c.log2) then none
  else if en && (decide (lg.toNat < 12 ∨ 25 < lg.toNat) || decide (base.toNat * 4096 % 2 ^ (lg.toNat + 5) ≠ 0)) then none
  else
    let s' := { s with sheet := { c with
      spillOn := en, log2 := lg, base := base, spillErr := if en then false else c.spillErr } }
    some (if en && !c.spillOn then s'.spillAll else s')

/-! ### The commands -/

/-- MB_DOORBELL (R425). -/
def execMbDoorbell (src : W12) (ch : Channel) (s : State) : Host.Outcome State Fault Refusal :=
  act s (s.cpWrite src (0x1040 + ch.val * 0x100) (s.doorbell ch.val))

/-- MB_CPL_POP (R427). -/
def execMbCplPop (src : W12) (ch : Channel) (s : State) : Host.Outcome State Fault Refusal :=
  act s (s.cpWrite src (0x1050 + ch.val * 0x100) (some (s.popCpl ch.val)))

/-- COMMAND_TIMEOUT (R433). -/
def execCommandTimeout (ch : Channel) (s : State) : Host.Outcome State Fault Refusal := act s (s.cmdTimeout ch.val)

/-- CS_SPILL (R382). -/
def execCsSpill (src : W12) (data : W64) (s : State) : Host.Outcome State Fault Refusal :=
  act s (s.cpWrite src 0xC018 (s.writeCsSpill data))

/-- CS_RD (R383). -/
def execCsRd (src : W12) (data : W64) (s : State) : Host.Outcome State Fault Refusal :=
  act s (s.cpWrite src 0xC008 (some (s.writeCsRd (data.setWidth 32))))

/-- CRING_PTR_RD (R155): the register lies in the slice's area. -/
def execCringPtrRd (src : W12) (k : SliceId) (rd : W16) (s : State) : Host.Outcome State Fault Refusal :=
  act s (s.cpWrite src (0x8000 + k.val * 0x100 + 0x18)
    (some (if k.val < s.chip.model.slices then s.mod k.val fun x => { x with cring := { x.cring with rd := rd } } else s)))

/-- IRQ_STATUS_CLEAR (R406). -/
def execIrqStatusClear (src : W12) (mask : BitVec 9) (s : State) : Host.Outcome State Fault Refusal :=
  act s (s.cpWrite src 0x3018 (some { s with irq := { s.irq with status := s.irq.status &&& ~~~mask } }))

end Sys2Proof.Machine
end

