-- ==== Sys2Proof/Machine/Semas.lean ====
section
/-! DEFINITION. The host's semaphore commands (R549, R550). -/

namespace Sys2Proof.Machine

/-- TRY_ACQUIRE: a node takes a semaphore that is free and has no waiter (R549, R550). -/
def State.semTry (s : State) (n : Nat) (src : W12) : State :=
  let m := s.sem n
  if m.held ∨ !m.waiters.isEmpty then s
  else s.modSem n fun m =>
    { m with held := true, kind := 2, owner := src, abandoned := false, acqAband := m.abandoned, acquires := m.acquires + 1 }

/-- RELEASE by a node: refused unless it is the owner (R549). -/
def State.semHostRelease (s : State) (n : Nat) (src : W12) : Option State :=
  let m := s.sem n
  if m.held ∧ m.kind = 2 ∧ m.owner = src then some (s.semRelease n false) else none

/-- FORCE_RELEASE (R549, R550). -/
def State.semForce (s : State) (n : Nat) (src : W12) : Option State :=
  if s.ownerRefuses src then none
  else some (if (s.sem n).held then s.semRelease n true else s)

/-- A write of SEM_CMD (R549, R552); operation 0 is ignored. -/
def State.semCmd (s : State) (op n : Nat) (src : W12) : Option State :=
  match op with
  | 1 => some (s.semTry n src)
  | 2 => s.semHostRelease n src
  | 3 => s.semForce n src
  | _ => some s

/-- SEM_TRY_ACQUIRE (R549). -/
def execSemTryAcquire (src : W12) (sem : Byte) (s : State) : Host.Outcome State Fault Refusal :=
  act s (s.cpWrite src 0xA800 (some (s.semTry sem.toNat src)))

/-- SEM_RELEASE (R549). -/
def execSemRelease (src : W12) (sem : Byte) (s : State) : Host.Outcome State Fault Refusal :=
  act s (s.cpWrite src 0xA800 (s.semHostRelease sem.toNat src))

/-- SEM_FORCE_RELEASE (R550). -/
def execSemForceRelease (src : W12) (sem : Byte) (s : State) : Host.Outcome State Fault Refusal :=
  act s (s.cpWrite src 0xA800 (s.semForce sem.toNat src))

end Sys2Proof.Machine
end

