-- ==== Sys2Proof/Machine/Sports.lean ====
section
/-! DEFINITION. The SPORTs' credited channels and aperture accesses (R389, R391 to R393). -/

namespace Sys2Proof.Machine

/-- The port outputs are released and their clocks run (R387, R412). -/
def State.portsRun (s : State) : Bool := s.start.done.length == 4

/-- SPORT `p` is present and its host port is ready (R391). -/
def State.sportUp (s : State) (p : Nat) : Bool := decide (p < s.chip.model.sports) && s.ports.spUp.getLsbD p

/-- 16 inbound credits for each of VC1 and VC3 (R391). -/
def Sport.open (x : Sport) : Sport := { x with in1 := 16, in3 := 16 }

/-- SPn_UP is sampled high (R391). -/
def State.raiseSport (s : State) (p : Nat) : State :=
  if s.sportUp p ∨ s.chip.model.sports ≤ p then s else
    let s := { s with ports := { s.ports with spUp := s.ports.spUp ||| (1#16 <<< p) } }
    if s.portsRun then s.modSport p Sport.open else s

/-- SPn_UP falls: both sides lose their credits (R391). -/
def State.lowerSport (s : State) (p : Nat) : State :=
  if !s.sportUp p then s else
    { s with ports := { s.ports with spUp := s.ports.spUp &&& ~~~(1#16 <<< p) } }.modSport p fun x =>
      { x with out1 := 0, out3 := 0, in1 := 0, in3 := 0 }

/-- The outbound credits of a virtual channel. -/
def Sport.credits (x : Sport) (vc : Nat) : Nat := if vc = 1 then x.out1 else x.out3

/-- Change the outbound credits of a virtual channel. -/
def Sport.setCredits (x : Sport) (vc n : Nat) : Sport := if vc = 1 then { x with out1 := n } else { x with out3 := n }

/-- Send the oldest response that waits on a virtual channel, where a credit allows it (R391, R393). -/
def Sport.send (x : Sport) (vc : Nat) : Sport :=
  match x.wait.find? (fun b => b.vc == vc) with
  | some b => if x.credits vc = 0 then x else { (x.setCredits vc (x.credits vc - 1)) with wait := x.wait.erase b, last := some b }
  | none => x

/-- Answer a request on its virtual channel, behind those that wait (R393). -/
def Sport.answer (x : Sport) (vc op : Nat) (tag : Nat) (data : List Byte) : Sport :=
  { x with wait := x.wait ++ [(⟨vc, 0, BitVec.ofNat 64 (op + tag * 16), data⟩ : Beat)] }.send vc

/-- The host returns a credit; one beyond 255 is ignored and counted (R391). -/
def State.creditBack (s : State) (p vc : Nat) : State :=
  if !s.sportUp p ∨ (vc ≠ 1 ∧ vc ≠ 3) then s
  else if 255 ≤ (s.sport p).credits vc then { s with ports := { s.ports with credOvf := sat16 s.ports.credOvf 1 } }
  else s.modSport p fun x => (x.setCredits vc (x.credits vc + 1)).send vc

/-- Why an aperture operation is answered with ERROR (R392, R393, R471). -/
def State.apertureBad (s : State) (h : W64) : Bool :=
  let f (lo n : Nat) : Nat := h.toNat / 2 ^ lo % 2 ^ n
  let k := f 16 5
  !s.ports.aperture.getLsbD k || !s.present.contains k || (s.sl k).state == .off || (s.sl k).state == .cold ||
    decide (25165824 ≤ f 24 17 * 256) || (f 0 4 != 1 && f 0 4 != 2) || f 21 3 != 0 || f 41 23 != 0

/-- An aperture operation: its answer, and for a WRITE the slice store (R393). -/
def State.aperture (s : State) (p vc : Nat) (h : W64) (data : List Byte) : State :=
  let f (lo n : Nat) : Nat := h.toNat / 2 ^ lo % 2 ^ n
  let k := f 16 5
  let a := f 24 17 * 256
  if s.apertureBad h then s.modSport p fun x => x.answer vc 5 (f 4 12) []
  else if f 0 4 = 1 then
    (s.mod k fun x => { x with store := x.store.writeN a ((data ++ List.replicate 256 0).take 256) }).modSport p fun x =>
      x.answer vc 4 (f 4 12) []
  else s.modSport p fun x => x.answer vc 3 (f 4 12) ((s.sl k).store.readN a 256)

/-- A credited beat of the host: dropped, counted and entered where the host holds no credit; else served, its credit going back
as it leaves the buffer (R391, R393). The kind of that entry is not given (log 33). -/
def State.credited (s : State) (p : Nat) (b : SpBeat) : State :=
  let x := s.sport p
  let vc := b.vc.toNat
  if p ≥ s.chip.model.sports ∨ !s.portsRun ∨ (vc ≠ 1 ∧ vc ≠ 3) then s
  else if (if vc = 1 then x.in1 else x.in3) = 0 then
    let d := { s with ports := { s.ports with credOvf := sat16 s.ports.credOvf 1 } }.draw
    d.2.log (0x0300 + p) (d.1 % 256) (d.1 / 256 % 65536) false []
  else s.aperture p vc b.hdr b.data

/-- An inbound beat on VC2 is dropped and counted (R389). -/
def State.dropVc2 (s : State) (p : Nat) : State :=
  if p < s.chip.model.sports then { s with ports := { s.ports with dropped := sat16 s.ports.dropped 1 } } else s

/-! ### The commands -/

/-- APERTURE_WRITE (R393). -/
def execApertureWrite (p : Fin 16) (b : SpBeat) (s : State) : Host.Outcome State Fault Refusal := act s (s.credited p.val b)

/-- APERTURE_READ (R393). -/
def execApertureRead (p : Fin 16) (b : SpBeat) (s : State) : Host.Outcome State Fault Refusal := act s (s.credited p.val b)

/-- SPORT_UP (R391). -/
def execSportUp (p : Fin 16) (s : State) : Host.Outcome State Fault Refusal := act s (s.raiseSport p.val)

/-- SPORT_DOWN (R391). -/
def execSportDown (p : Fin 16) (s : State) : Host.Outcome State Fault Refusal := act s (s.lowerSport p.val)

/-- SPORT_CREDIT_RETURN (R391). -/
def execSportCreditReturn (p : Fin 16) (vc : Fin 4) (s : State) : Host.Outcome State Fault Refusal :=
  act s (s.creditBack p.val vc.val)

/-- INBOUND_VC2_BEAT (R389). -/
def execInboundVc2Beat (p : Fin 16) (s : State) : Host.Outcome State Fault Refusal := act s (s.dropVc2 p.val)

end Sys2Proof.Machine
end

