-- ==== Sys2Proof/Machine/StartSteps.lean ====
section
/-! DEFINITION. Reset, start-up and enumeration (R407 to R418), and test access (R419). -/

namespace Sys2Proof.Machine

/-! ### Reset (R418) -/

/-- A slice after RESET_N: OFF where it is retired in manufacture or by REPAIR, else COLD (R470, R484). -/
def State.resetSlice (s : State) (k : Nat) : Slice :=
  let r := s.fw.boot.retired.getLsbD k
  { Slice.reset with state := if r || s.chip.mfgRetired.getLsbD k then .off else .cold, retired := r }

/-- The block while RESET_N is low: the settings store, the spare map, fuses, external memory and the queue of commands keep their
contents, everything else is at reset (R418). -/
def State.afterReset (s : State) : State := { State.reset with
  chip := s.chip
  pins := { s.pins with resetLow := true, wir := 0, testStopped := false }
  settings := settingDefaults s.chip.model
  stored := s.stored
  fw := { Firmware.reset with slotA := s.fw.slotA, slotB := s.fw.slotB, boot := s.fw.boot, state := s.fw.boot.state }
  ss := { s.ss with retries := 0, ceReads := 0, sel := 0 }
  sec := { Sec.reset with minSvn := s.sec.minSvn, nonce := s.sec.nonce + 1 }
  ectl := { EmulCtl.reset with
    cols := s.ectl.cols.map fun (c : Column) => { Column.reset with map := c.map, spared := c.spared }
    retired := s.ectl.retired }
  slices := Vector.ofFn fun (k : Fin 32) => s.resetSlice k.val
  ext := s.ext
  free := s.free
  pending := s.pending }

/-- The start-up order: order, source, whether the settings entry was read and not used, whether the straps were refused
(R411). -/
def State.chooseOrder (s : State) : Byte × BitVec 2 × Bool × Bool :=
  let entry : Option Byte := (s.stored.find? (fun p => p.1 == 0x0801)).map fun p => p.2.setWidth 8
  let good := match entry with | some o => s.chip.strapSrc && orderLegal o | none => false
  if good then (entry.getD 0, 1, false, false)
  else if orderLegal s.chip.strapOrder then (s.chip.strapOrder, 0, s.chip.strapSrc, false)
  else (0xE4, 2, s.chip.strapSrc, true)

/-- The steps of an order before LOCK: LOCK is step 0 (R410, R412). -/
def stepsBeforeLock (o : Byte) : List Nat := (orderSteps o).takeWhile (· != 0)

/-- RESET_N is released: the order is chosen, and the steps before the end of LOCK are performed (R411, R412, R414). -/
def State.release (s : State) : State :=
  if !s.pins.resetLow then s else
    let c := s.chooseOrder
    { s with
      pins := { s.pins with resetLow := false }
      start := { s.start with
        order := c.1, orderSrc := c.2.1, settingsRefused := c.2.2.1, strapsRefused := c.2.2.2,
        done := stepsBeforeLock c.1, warnSeen := s.pins.supplyWarn } }

/-! ### Start-up steps (R412 to R414) -/

/-- LOCK is in progress. -/
def State.locking (s : State) : Bool := s.start.phase == .steps && !s.start.done.contains 0

/-- The SPORTs whose host ports are ready get their credits once the port outputs are released (R391). -/
def State.openPorts (s : State) : State := (List.range 16).foldl (fun s p => if s.sportUp p then s.modSport p Sport.open else s) s

/-- Both PLLs lock within 200 µs: the time base starts at 0 and the remaining steps follow (R350, R412, R413). -/
def State.lock (s : State) (us : W16) : State :=
  if !s.locking || decide (200 < us.toNat) then s else
    { s with
      tb := { s.tb with now := 0, running := true }
      start := { s.start with lockUs := us, done := orderSteps s.start.order } }.openPorts

/-- LOCK does not end in time (R413). -/
def State.lockTimeout (s : State) : State :=
  if !s.locking then s else { s with start := { s.start with phase := .stoppedLock, lockUs := 0xFFFF } }

/-- The stores are zeroed and training starts (R414, R347). -/
def State.zeroingDone (s : State) : State :=
  if s.start.phase ≠ .steps ∨ s.start.done.length ≠ 4 then s else
    let s := s.columnsPresent.foldl (fun s c => s.modCol c fun x => { x with state := .training }) s
    { s with start := { s.start with phase := .training } }

/-! ### Enumeration (R407, R408) -/

/-- BLOCK_ID (R40). -/
def Chip.blockId (c : Chip) : Nat := 0xDE0B + 0x5652 * 2 ^ 16 + c.stepping.toNat * 2 ^ 32 + c.model.code * 2 ^ 40

/-- A broadcast ENUM_ASSIGN; `enumIn`: ENUM_IN has been asserted for at least 1 µs without a break (R408). -/
def State.enumAssign (s : State) (src addr : W12) (enumIn : Bool) : State :=
  if s.node.valid || !enumIn || addr == 0 || addr == 0xFFF then s
  else { s with node := ⟨addr, true, true⟩ }.respond 7 src 0 s.chip.blockId

/-! ### Test access (R419) -/

/-- The instruction that loads: in a block that is not unlocked only WS_BYPASS (0) and IJTAG_ACCESS (6) do; 7 is none. -/
def State.wirLoads (s : State) (wir : Nat) : Nat := if wir = 6 ∨ (s.sec.unlocked ∧ wir < 6) then wir else 0

/-- Load a wrapper instruction; WS_EXTEST, WS_INTEST, WS_CLAMP and WS_SAFE (2 to 5) stop functional operation. -/
def State.loadWir (s : State) (wir : Nat) : State :=
  let w := s.wirLoads wir
  { s with pins := { s.pins with wir := w, testStopped := s.pins.testStopped || decide (2 ≤ w ∧ w ≤ 5) } }

/-- Start an instrument of the 1687 network, in the order of R419's list; memory test (0) and firmware recovery load (5) stop
functional operation. A block that is not unlocked opens neither. -/
def State.instrument (s : State) (i : Nat) : State :=
  if s.pins.wir = 6 ∧ s.sec.unlocked ∧ (i = 0 ∨ i = 5) then { s with pins := { s.pins with testStopped := true } } else s

/-! ### The commands -/

/-- ENUM_ASSIGN (R408). -/
def execEnumAssign (src : W12) (data : W64) (enumIn : Bool) (s : State) : Host.Outcome State Fault Refusal :=
  act s (s.enumAssign src (data.setWidth 12) enumIn)

/-- RESET_ASSERT (R418): at any time. -/
def execResetAssert (s : State) : Host.Outcome State Fault Refusal := .next s.afterReset

/-- RESET_RELEASE (R411). -/
def execResetRelease (s : State) : Host.Outcome State Fault Refusal := .next s.release

/-- PLL_LOCK (R412). -/
def execPllLock (lockUs : W16) (s : State) : Host.Outcome State Fault Refusal := act s (s.lock lockUs)

/-- PLL_LOCK_TIMEOUT (R413). -/
def execPllLockTimeout (s : State) : Host.Outcome State Fault Refusal := act s s.lockTimeout

/-- ZEROING_DONE (R414). -/
def execZeroingDone (s : State) : Host.Outcome State Fault Refusal := act s s.zeroingDone

/-- TEST_INSTRUCTION_LOAD (R419): test access works whatever functional operation does. -/
def execTestInstructionLoad (wir : BitVec 3) (s : State) : Host.Outcome State Fault Refusal := .next (s.loadWir wir.toNat)

/-- IJTAG_INSTRUMENT_ACCESS (R419). -/
def execIjtagInstrumentAccess (inst : BitVec 3) (s : State) : Host.Outcome State Fault Refusal :=
  .next (s.instrument inst.toNat)

/-- WRSTN_ASSERT: the wrapper is in WS_BYPASS (R419). -/
def execWrstnAssert (s : State) : Host.Outcome State Fault Refusal := .next { s with pins := { s.pins with wir := 0 } }

end Sys2Proof.Machine
end

