-- ==== Sys2Proof/Machine/Xlate.lean ====
section
/-! DEFINITION. Translation and domain commands: walks (R221, R222), invalidations (R223), domain entries (R534). -/

namespace Sys2Proof.Machine

/-- A hub walk of a page completes: its leaf is cached in the hub TLB (R221, R222). It waits for a column in HALT (R338); `errs` are the
granules that it reads in error, and an entry that it cannot read is an error of its memory (R330, R331). -/
def State.walkDone (s : State) (domain va : Nat) (errs : List SoftErr) : State :=
  match s.xl.hub.domains.find? fun d => d.id == domain && d.valid with
  | none => s
  | some d =>
    let t := s.aliasGranules errs
    let run := t.waitingRun { t.mkRun 0 0 false false with micro := [] }
    let x := findLeaf { run with env := { run.env with poison := t.badGranules errs, tables := badTables errs } } domain va d
    let walked := x.2.hub.walks - s.xl.hub.walks
    let t := { t.softSingles 0 (errs.filter fun e => e.place == .emul) with xl := { t.xl with
        hub := x.2.hub, walks := BitVec.ofNat 48 (satAdd (2 ^ 48 - 1) s.xl.walks.toNat walked) } }
    match x.1 with
    | .stop 0 _ _ => s
    | .stop 9 _ e => t.entryError e
    | _ => t

/-- A write of TLB_INVAL queues one invalidation, unless 16 are pending (R223). -/
def State.queueInval (s : State) (i : Inval) : Option State :=
  if 16 ≤ s.xl.invals.length then none
  else some { s with xl := { s.xl with invals := s.xl.invals ++ [i], issued := s.xl.issued + 1 } }

/-- A write of TLB_INVAL (R223, R227). -/
def State.writeInval (s : State) (domain pages : Nat) (whole all : Bool) : Option State :=
  s.queueInval (if all then .all else if whole then .whole domain else .range domain (s.xl.invalVa.toNat * 4096) pages)

/-- The oldest invalidation completes, once every access translated through its entries has completed (R223). -/
def State.invalDone (s : State) : State :=
  match s.xl.invals with
  | [] => s
  | i :: rest =>
    if s.inFlight i then s else { s with xl := { s.xl with invals := rest, done := s.xl.done + 1 } }.invalidate i

/-! ### Domains (R534) -/

/-- DOM_CTL as a number (R538). -/
def Domain.ctl (d : Domain) : BitVec 5 :=
  BitVec.ofNat 5 ((if d.valid then 1 else 0) + d.target * 2 + (if d.writeEn then 8 else 0) + (if d.atomicEn then 16 else 0))

/-- The entry that DOM_ROOT and DOM_CTL stage (R538). -/
def State.staged (s : State) : Domain :=
  let c := s.xl.domCtl
  ⟨s.xl.domSel.toNat, c.getLsbD 0, s.xl.domRoot.toNat * 2 ^ 20, c.toNat / 2 % 4, c.getLsbD 3, c.getLsbD 4⟩

/-- A write of DOM_SEL stages the current entry; domain 0 shows zero (R534). -/
def State.selectDomain (s : State) (id : W12) : State :=
  let d := s.domainEntry id.toNat
  { s with xl := { s.xl with
      domSel := id,
      domRoot := if id = 0 then 0 else BitVec.ofNat 32 (d.root / 2 ^ 20),
      domCtl := if id = 0 then 0 else d.ctl } }

/-- A write of DOM_COMMIT is refused (R534). -/
def State.commitRefused (s : State) (src : W12) : Bool :=
  let new := s.staged
  let old := s.domainEntry new.id
  s.xl.domSel == 0 || s.xl.commit.isSome || s.ownerRefuses src ||
    ((new.root != old.root || new.target != old.target) && s.kv.ctxs.any fun c => c.domain == new.id)

/-- A commit copies the staged fields into the entry (R534). -/
def State.commitDomain (s : State) (src : W12) : Option State :=
  if s.commitRefused src then none
  else
    let d := s.staged
    let hub := { s.xl.hub with domains := d :: s.xl.hub.domains.filter fun x => x.id != d.id }
    some ({ s with xl := { s.xl with hub := hub, domIssued := s.xl.domIssued + 1, commit := some d.id } }.log 0x0108 15 4 false
      (objData d.id 0 0 0))

/-- The invalidation of a commit completes, once every access translated in the domain has completed (R223, R534). -/
def State.commitDone (s : State) : State :=
  match s.xl.commit with
  | none => s
  | some id =>
    if s.inFlight (.whole id) then s
    else { s with xl := { s.xl with commit := none, domDone := s.xl.domDone + 1 } }.invalidate (.whole id)

/-! ### The commands -/

/-- TRANSLATION_WALK_DONE (R221). -/
def execTranslationWalkDone (domain : W12) (va : Reads (BitVec 56)) (s : State) : Host.Outcome State Fault Refusal :=
  act s (s.walkDone domain.toNat va.val.toNat va.errs)

/-- TLB_INVAL_RANGE (R223). -/
def execTlbInvalRange (src domain : W12) (pages : W32) (s : State) : Host.Outcome State Fault Refusal :=
  act s (s.cpWrite src 0x6010 (s.writeInval domain.toNat pages.toNat false false))

/-- TLB_INVAL_WHOLE (R223). -/
def execTlbInvalWhole (src domain : W12) (s : State) : Host.Outcome State Fault Refusal :=
  act s (s.cpWrite src 0x6010 (s.writeInval domain.toNat 0 true false))

/-- TLB_INVAL_ALL (R223). -/
def execTlbInvalAll (src : W12) (s : State) : Host.Outcome State Fault Refusal :=
  act s (s.cpWrite src 0x6010 (s.writeInval 0 0 false true))

/-- TLB_INVAL_DONE (R223). -/
def execTlbInvalDone (s : State) : Host.Outcome State Fault Refusal := act s s.invalDone

/-- DOM_SEL (R534). -/
def execDomSel (src : W12) (data : W64) (s : State) : Host.Outcome State Fault Refusal :=
  act s (s.cpWrite src 0xD018 (some (s.selectDomain (data.setWidth 12))))

/-- DOM_COMMIT (R534). -/
def execDomCommit (src : W12) (s : State) : Host.Outcome State Fault Refusal :=
  act s (s.cpWrite src 0xD030 (s.commitDomain src))

/-- DOM_COMMIT_DONE (R534). -/
def execDomCommitDone (s : State) : Host.Outcome State Fault Refusal := act s s.commitDone

end Sys2Proof.Machine
end

