-- ==== Sys2Proof/Machine/Regs.lean ====
section
/-! DEFINITION. The register window (R11 to R13): what a read of each register returns and clears, and what a write does. -/

namespace Sys2Proof.Machine

/-! ### Packing -/

/-- A field of `w` bits at bit `lo`. -/
def fld (lo w v : Nat) : Nat := v % 2 ^ w * 2 ^ lo

/-- A one-bit field. -/
def flag (lo : Nat) (b : Bool) : Nat := if b then 2 ^ lo else 0

/-- A sum of fields. -/
def pack (l : List Nat) : Nat := l.foldl (· + ·) 0

/-! ### Identity and features (R39 to R43) -/

/-- BLOCK_GEOM (R40). -/
def Chip.geom (c : Chip) : Nat :=
  pack [c.model.quads, fld 8 8 c.model.slices, fld 16 8 8, fld 24 8 128, fld 32 8 c.model.quads, fld 40 8 c.model.sports,
    fld 48 8 c.model.mports, fld 56 8 2]

/-- PRIV_MAP (R40). -/
def Chip.privMap (c : Chip) : Nat := (List.range c.model.quads).foldl (fun n q => n + 2 ^ (8 * q)) 0

/-- FEATURES0 (R41): ATTN_BWD and GRAD_ARRAY are absent in V32. -/
def Chip.features (c : Chip) : Nat := 0x7FFC + (if c.model = .v32 then 0 else 3)

/-- SIZES0 to SIZES4 (R42). -/
def Chip.sizes (c : Chip) : Nat → Nat
  | 0 => pack [2048, fld 16 8 32, fld 24 8 16, fld 32 16 256, fld 48 8 12]
  | 1 => pack [24576, fld 32 8 32, fld 40 8 64, fld 48 8 48]
  | 2 => pack [16, fld 8 8 16, fld 16 8 8, fld 24 8 8, fld 32 8 4, fld 40 8 8, fld 48 8 4, fld 56 4 8, fld 60 4 4]
  | 3 => pack [64, fld 8 4 2, fld 16 13 4096, fld 32 16 256, fld 48 8 16, fld 56 8 8]
  | _ => pack [32768, fld 32 16 (1024 * c.model.quads), fld 48 8 56, fld 56 8 52]

/-- LAT_CLASS (R42). -/
def Chip.latClass (c : Chip) : Nat :=
  pack [4, fld 8 8 8, fld 16 8 12, fld 24 8 (if c.model = .v8 then 0 else 18), fld 32 8 (if c.model = .v32 then 24 else 0)]

/-- The registers at 0x0000 to 0x0FFF (R39). -/
def State.readIdent (s : State) (off : Nat) : Nat :=
  let c := s.chip
  if 0x800 ≤ off then distReg c.model ((off - 0x800) / 64) (off % 64 / 8)
  else match off with
  | 0x00 => c.blockId
  | 0x08 => c.geom
  | 0x10 => 2 ^ c.model.slices - 1
  | 0x18 => s.avail.toNat
  | 0x20 => c.privMap
  | 0x28 => c.features
  | 0x30 => 0x3FFF
  | 0x38 => c.sizes 0
  | 0x40 => c.sizes 1
  | 0x48 => c.sizes 2
  | 0x50 => c.sizes 3
  | 0x58 => c.sizes 4
  | 0x60 => pack [4, fld 8 16 448, fld 24 16 1024]
  | 0x68 => pack [0x1F, fld 5 3 7, fld 8 8 64, fld 16 16 256, fld 32 16 1024, fld 48 8 16]
  | 0x70 => pack [1500, fld 16 16 1100, fld 32 16 700, fld 48 16 1000]
  | 0x78 => pack [c.model.peakW, fld 12 12 c.model.capMinW, fld 24 12 c.model.peakW, fld 36 12 500, fld 48 12 750]
  | 0x80 => c.latClass
  | _ => 0

/-! ### Mailboxes (R428) -/

/-- A command of the channel has posted TIMEOUT and owes its final completion. -/
def State.continues (s : State) (c : Nat) : Bool := s.fw.conts.any fun m => m.chan == c

/-- The registers of channel `c` at an offset of its area (R428). -/
def State.readMbox (s : State) (c off : Nat) : Nat :=
  let x := s.chan c
  if off < 0x40 then ((x.stage[off / 8]?).getD 0).toNat
  else if 0x80 ≤ off ∧ off < 0xC0 then fieldOf (x.cpls.headD []) (off - 0x80) 8
  else match off with
  | 0x48 => pack [x.reqWr.toNat, fld 16 16 x.reqRd.toNat, fld 32 16 x.cplWr.toNat, fld 48 16 x.cplRd.toNat]
  | 0x58 =>
    pack [flag 0 (x.running.isSome || s.continues c), flag 1 (s.continues c), fld 8 8 (x.held.filter isNotice).length,
      fld 16 16 x.lost.toNat]
  | _ => 0

/-! ### Time, start-up and ports, power (R355, R417, R524) -/

/-- The registers at 0x2000 (R355). -/
def State.readTime (s : State) : Nat → Nat
  | 0x00 => s.now
  | 0x08 => s.tb.capture.toNat
  | 0x10 => pack [s.tb.seq.toNat, flag 16 s.tb.synced, flag 17 (s.tb.slewRemain != 0), fld 32 32 s.tb.lastOffset.toNat]
  | 0x18 => pack [flag 0 s.tickExternal, flag 1 s.tick.flywheel, flag 2 s.tick.active, fld 8 32 s.tick.period]
  | 0x20 => s.tick.last.toNat
  | 0x28 => s.tick.count.toNat
  | 0x30 => pack [s.tick.glitch.toNat, fld 16 16 s.tick.missed.toNat, fld 32 16 s.tick.overexp.toNat, fld 48 16 s.tick.slips.toNat]
  | _ => 0

/-- The registers at 0x3000 to 0x307F (R417). -/
def State.readStart (s : State) : Nat → Nat
  | 0x00 =>
    pack [s.start.phase.code, fld 4 8 s.start.order.toNat, fld 12 2 s.start.orderSrc.toNat, flag 14 s.start.settingsRefused,
      flag 15 s.start.strapsRefused, fld 16 2 s.start.fwSlot.toNat, flag 18 s.start.slotFallback, flag 19 s.start.warnSeen,
      fld 32 16 s.start.lockUs.toNat]
  | 0x08 => pack [s.node.addr.toNat, flag 12 s.node.valid]
  | 0x10 => pack [s.chip.strapOrder.toNat, flag 8 s.chip.strapSrc]
  | 0x18 => s.irq.status.toNat
  | 0x20 => s.irq.route.toNat
  | 0x28 => pack [s.ports.spUp.toNat, fld 16 8 s.ports.mpUp.toNat, flag 24 s.ports.dvfs.req]
  | 0x30 =>
    pack [s.ports.credOvf.toNat, fld 16 16 s.ports.dropped.toNat, fld 32 16 s.ports.mpErr.toNat, fld 48 16 s.ports.mpStray.toNat]
  | 0x38 => s.ports.aperture.toNat
  | 0x40 => pack [s.setting 0x0502, flag 5 (s.setting 0x0501 == 1)]
  | _ => 0

/-- PWR_Qq (R524). -/
def State.readPwrQ (s : State) (q : Nat) : Nat :=
  if s.chip.model.quads ≤ q then 0
  else pack [fld 0 16 (s.power.quadMean q / 100000), fld 16 10 (tempField (s.quad q).tm), fld 26 10 (tempField (s.quad q).pred),
    flag 36 (s.power.qhalt.getLsbD q)]

/-- The registers at 0x3080 to 0x3FFF (R524). -/
def State.readPower (s : State) (off : Nat) : Nat :=
  let p := s.power
  if 0xC0 ≤ off ∧ off < 0xE0 then s.readPwrQ ((off - 0xC0) / 8)
  else if 0x100 ≤ off ∧ off < 0x120 then
    let q := (off - 0x100) / 8
    if s.chip.model.quads ≤ q then 0 else pack [tempField (s.quad q).trefQ, fld 10 10 (s.quad q).limit]
  else match off with
  | 0x80 =>
    pack [p.op, fld 3 3 p.target, fld 6 3 p.floor, flag 9 p.clamp, flag 10 p.capLimited, flag 11 p.thermLimited,
      fld 12 4 p.qhalt.toNat, fld 16 12 p.voltMv]
  | 0x88 => pack [fld 0 12 p.capW, fld 12 12 p.nextCap, fld 24 10 p.windowMs, fld 34 10 p.nextWindow]
  | 0x90 => p.winStart
  | 0x98 => pack [fld 0 32 (p.energy / 1000000), fld 32 32 p.samples]
  | 0xA0 => pack [fld 0 16 p.lastAvg, fld 16 12 p.lastCap, flag 28 p.lastOver]
  | 0xA8 => pack [p.overruns.toNat, fld 16 16 p.clamps.toNat, fld 32 16 p.thermSteps.toNat, fld 48 16 p.qhalts.toNat]
  | 0xB0 => p.overNs.toNat
  | 0xB8 => pack [fld 0 6 p.wakes.length, fld 16 16 p.admitted.toNat]
  | 0xE0 => pack [fld 0 16 (p.mean (·.hub) / 100000), fld 16 16 (p.mean (·.emul) / 100000), fld 32 10 (tempField p.hubTemp)]
  | _ => 0

/-! ### The KV page manager (R303) -/

/-- The registers at 0x4000 (R303). -/
def State.readKv (s : State) (off : Nat) : Nat :=
  let trays := s.kv.ctxs.foldl (fun n c => n + (c.layers.filter fun l => l.tray.inHub).length) 0
  if 0x40 ≤ off ∧ off < 0x140 then
    let n := (off - 0x40) / 32
    let c := (s.kv.stats[n]?).getD ⟨0, 0, 0, 0⟩
    match off % 32 with
    | 0 => pack [fld 0 32 (((s.kv.pool n).map s.freeLevel).getD 0), fld 32 16 c.empty.toNat, fld 48 16 c.displaced.toNat]
    | 8 => pack [c.low.toNat, fld 16 48 c.firstNs.toNat]
    | _ => 0
  else match off with
  | 0x00 =>
    pack [fld 0 16 s.kv.ctxs.length, fld 16 16 trays, fld 32 3 s.kv.fades.length,
      fld 35 16 (s.kv.waiters.filter fun w => w.kind == .group).length]
  | 0x08 => pack [s.kv.quadPtr.toNat, fld 32 32 s.kv.contests.toNat]
  | 0x18 => pack [fld 0 32 s.parkSlots.1, fld 32 32 s.parkSlots.2]
  | _ => 0

/-! ### The emulsion (R346) -/

/-- The columns in LIVE or SPARING. -/
def State.colsLive (s : State) : List Nat := s.columns

/-- The present columns that run in a thermal state (R336, R337). -/
def State.colsIn (s : State) (t : Nat) : Nat := (s.present.filter fun c => (s.col c).runs == t).length

/-- The hottest tier of all columns, the lowest column of equals: column, tier, temperature. -/
def State.hottestCol (s : State) : Nat × Nat × Int :=
  s.present.foldl (fun (m : Nat × Nat × Int) c => if m.2.2 < (s.col c).hottest.2 then (c, (s.col c).hottest) else m)
    (0, (s.col 0).hottest)

/-- EMUL_COLc_A (R346). -/
def State.readColA (s : State) (c : Nat) : Nat :=
  let x := s.col c
  pack [x.state.code, fld 3 2 x.runs, flag 5 x.early, fld 6 10 (tempField x.hottest.2), fld 16 2 x.hottest.1,
    pack ((List.range 4).map fun t => fld (18 + 2 * t) 2 (x.sparesLeft t).length)]

/-- EMUL_COLc_B (R346). -/
def State.readColB (s : State) (c : Nat) : Nat :=
  let x := s.col c
  pack [x.ce.toNat, fld 16 16 x.ue.toNat, fld 32 4 x.spared, fld 36 4 x.lanes]

/-- The registers at 0x5000 (R346). -/
def State.readEmul (s : State) (off : Nat) : Nat :=
  let e := s.ectl
  if 0x100 ≤ off ∧ off < 0x300 then
    let c := (off - 0x100) / 16
    if !s.present.contains c then 0 else if off % 16 = 0 then s.readColA c else s.readColB c
  else match off with
  | 0x00 => pack [flag 0 e.trained, flag 1 e.initDone, fld 2 6 s.colsLive.length, fld 8 3 s.copies, flag 11 e.mapLost]
  | 0x08 => if e.initDone then 1792 * s.colsLive.length else 0
  | 0x10 => (maskOf s.colsLive).toNat
  | 0x18 => pack [e.ce.toNat, fld 32 32 e.ue.toNat]
  | 0x20 => e.firstUe.toNat
  | 0x28 => e.lastErr.toNat
  | 0x30 => pack [e.passes.toNat, fld 32 21 (if e.initDone then Config.patrolLine e.passes.toNat s.now % 1835008 else 0)]
  | 0x38 =>
    let h := s.hottestCol
    pack [tempField h.2.2, fld 10 5 h.1, fld 15 2 h.2.1, fld 17 6 (s.colsIn 1), fld 23 6 (s.colsIn 2), fld 29 6 (s.colsIn 3)]
  | _ => 0

/-! ### Translation, reel (R227, R327) -/

/-- The registers at 0x6000 (R227). -/
def State.readTrans (s : State) : Nat → Nat
  | 0x00 => fld 8 5 s.xl.invals.length
  | 0x08 => fld 12 44 s.xl.invalVa.toNat
  | 0x18 => pack [s.xl.issued.toNat, fld 32 32 s.xl.done.toNat]
  | 0x20 => s.xl.faults.toNat
  | 0x28 => s.xl.walks.toNat
  | 0x30 => s.xl.lastVa.toNat
  | 0x38 => s.xl.lastInfo.toNat
  | _ => 0

/-- REEL_RNDr_A (R327). -/
def Round.readA (r : Round) : Nat :=
  pack [flag 0 r.opened, flag 1 r.fwdOnly, flag 2 r.injected, fld 3 2 r.mode, fld 5 9 r.n, fld 14 8 r.pos, fld 22 5 r.slice,
    fld 32 32 r.round]

/-- REEL_RNDr_B (R327). -/
def Round.readB (r : Round) : Nat :=
  let n (p : Nat → Bool) : Nat := (r.steps.filter fun k => (match k.outcome with | some o => p o | none => false)).length
  pack [fld 0 16 (n (· == 0)), fld 16 16 (n (· == 1)), fld 32 16 (n (2 ≤ ·))]

/-- An outbound direction has no credit now. -/
def ReelPort.stalled (p : ReelPort) : Bool := p.up && p.credits == 0

/-- The registers at 0x7000 (R327). -/
def State.readReel (s : State) (off : Nat) : Nat :=
  let e := s.reel
  if 0x80 ≤ off ∧ off < 0xC0 then
    let r := s.round ((off - 0x80) / 16)
    if off % 16 = 0 then r.readA else r.readB
  else match off with
  | 0x00 =>
    pack [flag 0 e.portA.up, flag 1 e.portB.up, fld 2 3 (e.rounds.toList.filter (·.opened)).length, flag 5 e.portA.stalled,
      flag 6 e.portB.stalled, flag 7 (e.blocks.any fun b => match b.state with | .waiting _ _ => true | _ => false)]
  | 0x08 => e.portA.tx.toNat
  | 0x10 => e.portA.rx.toNat
  | 0x18 => e.portB.tx.toNat
  | 0x20 => e.portB.rx.toNat
  | 0x28 => pack [e.hdrCrc.toNat, fld 16 16 e.corrupt.toNat, fld 32 16 e.stale.toNat, fld 48 16 e.missed.toNat]
  | 0x30 => pack [e.skipped.toNat, fld 32 32 e.forwarded.toNat]
  | 0x38 => pack [e.portA.down.toNat, fld 16 16 e.portB.down.toNat]
  | 0x40 => e.firstNs.toNat
  | _ => 0

/-! ### Slices (R75, R154, R365, R466, R470, R559) -/

/-- SLICE_STATE (R470). -/
def State.readSliceState (s : State) (k : Nat) : Nat :=
  let x := s.sl k
  pack [x.state.code, flag 3 x.armed, flag 4 x.loaded, flag 5 x.switchReq, flag 6 x.retired, flag 7 (s.chip.mfgRetired.getLsbD k),
    fld 8 3 x.cause, fld 16 8 x.epoch, fld 24 16 x.fault]

/-- SEQ_STATUS (R154). -/
def Slice.seqStatus (x : Slice) : Nat :=
  let q := x.seq
  pack [fld 0 14 q.pc, flag 14 x.bank, flag 15 q.routine.isSome, fld 16 12 (q.routine.getD 0), fld 28 3 q.stack.length,
    flag 31 q.group.isSome, fld 32 6 q.qfull.toNat, flag 38 q.interlock, flag 39 (q.predStall || q.pred.isSome),
    flag 40 q.wait.isSome, flag 41 q.tickWait, flag 42 q.cutStop]

/-- MTRn (R75). -/
def MeterReg.read (m : MeterReg) : Nat :=
  pack [m.amax.toNat, flag 32 m.seen, flag 33 m.nonfin, flag 34 m.clamped, flag 35 m.published, fld 36 9 m.propK.toNat]

/-- The performance and fetch counters (R559). -/
def Perf.read (p : Perf) : Nat → Nat
  | 0x30 => p.cycles.toNat
  | 0x38 => p.issued.toNat
  | 0x40 => p.fetched.toNat
  | 0x48 => p.discarded.toNat
  | 0x50 => p.stallQfull.toNat + p.stallInterlock.toNat * 2 ^ 32
  | 0x58 => p.stallPred.toNat + p.stallWait.toNat * 2 ^ 32
  | 0x60 => p.vecBusy.toNat + p.moveBusy.toNat * 2 ^ 32
  | 0x68 => p.gsBusy.toNat + p.attnBusy.toNat * 2 ^ 32
  | 0x70 => p.bankWait.toNat + p.tlbMiss.toNat * 2 ^ 32
  | 0x78 => p.tickwait.toNat + p.storeCe.toNat * 2 ^ 32 + p.callsTaken.toNat * 2 ^ 48
  | _ => 0

/-- The registers of slice `k` (R466). -/
def State.readSlice (s : State) (k off : Nat) : Nat :=
  let x := s.sl k
  if !s.present.contains k then 0
  else if 0xC0 ≤ off then (((x.mtr[(off - 0xC0) / 8]?).getD ⟨0, false, false, false, false, 0⟩)).read
  else match off with
  | 0x00 => s.readSliceState k
  | 0x08 => x.seqStatus
  | 0x10 => x.seq.frame.toNat
  | 0x18 => pack [x.cring.wr.toNat, fld 16 16 x.cring.rd.toNat, fld 32 16 x.cring.lost.toNat]
  | 0x20 =>
    pack [flag 0 ((s.setting 0x0106).testBit k), flag 1 x.held, fld 16 16 x.overexps.toNat, fld 32 16 x.heldTicks.toNat,
      fld 48 16 x.skipped.toNat]
  | 0x28 => pack [x.timed.tolerated.toNat, fld 16 16 x.timed.dropped.toNat, flag 32 x.timed.slipFault]
  | o => x.perf.read o

/-! ### Semaphores, scrubbing, contact sheet, security, cuts (R383, R500, R538, R552, R555) -/

/-- SEMn (R552). -/
def Sem.readReg (m : Sem) : Nat :=
  pack [flag 0 m.held, fld 1 2 m.kind.toNat, fld 3 12 m.owner.toNat, flag 15 m.abandoned, flag 16 m.acqAband,
    fld 17 5 m.waiters.length, fld 32 32 m.acquires.toNat]

/-- The registers at 0xA000 (R552). -/
def State.readSem (s : State) (off : Nat) : Nat :=
  if off < 0x800 then (s.sem (off / 8)).readReg
  else if off = 0x808 then pack [s.semu.cycles.toNat, fld 16 16 s.semu.aband.toNat, fld 32 16 s.semu.timeouts.toNat]
  else 0

/-- The sector of the highest write count; the lowest of equals. -/
def Store.wearMax (x : Store) : Nat × Nat :=
  (List.range 1024).foldl (fun (m : Nat × Nat) i => if m.2 < x.count i then (i, x.count i) else m) (0, 0)

/-- The settings store as its registers show it: the reset values before READY, then the persistent counts (R500). When firmware
reads the table before READY is not given. DESIGN CHOICE, safe (log 28). -/
def State.shownStore (s : State) : Store :=
  if s.start.phase = .ready then s.ss
  else { s.ss with replFree := 16, exhausted := false, retired := 0, wear := [], replaced := [] }

/-- The registers at 0xB000 (R500). -/
def State.readScrub (s : State) : Nat → Nat
  | 0x00 => pack [s.scrub.passes.toNat, fld 32 16 s.scrub.late.toNat]
  | 0x08 => pack [s.scrub.corrected.toNat, fld 32 32 s.scrub.uncorr.toNat]
  | 0x10 => pack [fld 0 5 s.scrub.lastSlice, fld 5 12 s.scrub.lastFrame, flag 17 s.scrub.lastFetch, flag 18 s.scrub.lastValid]
  | 0x18 => s.scrub.lastNs.toNat
  | 0x20 =>
    let x := s.shownStore
    pack [fld 0 5 x.replFree, flag 5 x.exhausted, fld 6 10 x.retired, fld 16 16 x.retries.toNat, fld 32 16 x.ceReads.toNat]
  | 0x28 => pack [fld 0 32 s.shownStore.wearMax.2, fld 32 10 s.shownStore.wearMax.1]
  | 0x30 => s.ss.sel.toNat
  | 0x38 =>
    let x := s.shownStore
    let n := x.sel.toNat
    pack [fld 0 32 (x.count n), flag 32 (x.replaced.any (·.1 == n)),
      fld 33 10 (((x.replaced.find? (·.1 == n)).map (·.2)).getD 0)]
  | _ => 0

/-- The registers at 0xC000 (R383). -/
def State.readSheet (s : State) : Nat → Nat
  | 0x00 => s.sheet.wr.toNat
  | 0x08 => s.sheet.rd.toNat
  | 0x10 =>
    pack [flag 0 s.sheet.spillOn, flag 1 s.sheet.spillErr, flag 2 (decide (s.sheet.capacity ≤ s.sheet.occ + 1024)),
      fld 32 32 s.sheet.capacity]
  | 0x18 => pack [flag 0 s.sheet.spillOn, fld 1 5 s.sheet.log2.toNat, fld 12 40 s.sheet.base.toNat]
  | 0x20 => pack [s.sheet.lost.toNat, fld 16 48 s.sheet.firstNs.toNat]
  | 0x28 => s.sheet.trace.toNat
  | _ => 0

/-- The registers at 0xD000 (R538). -/
def State.readSec (s : State) (off : Nat) : Nat :=
  let c := s.sec
  if 0x40 ≤ off ∧ off < 0x60 then (Config.nonce c.nonce ((off - 0x40) / 8)).toNat
  else match off with
  | 0x00 => pack [fld 0 7 c.minSvn, flag 7 c.unlocked, fld 8 4 c.fails, flag 12 c.lockedOut]
  | 0x08 => pack [c.owner.toNat, flag 12 c.ownerValid]
  | 0x10 => pack [c.violCount.toNat, fld 32 12 c.lastDomain.toNat]
  | 0x18 => s.xl.domSel.toNat
  | 0x20 => fld 20 32 s.xl.domRoot.toNat
  | 0x28 => s.xl.domCtl.toNat
  | 0x38 => pack [s.xl.domIssued.toNat, fld 32 32 s.xl.domDone.toNat]
  | 0xC8 => s.chip.uid0.toNat
  | 0xD0 => s.chip.uid1.toNat
  | _ => 0

/-- CUTs (R555). -/
def State.readCut (s : State) (off : Nat) : Nat :=
  let c := (s.sl (off / 8)).cut
  if 0x100 ≤ off ∨ !s.present.contains (off / 8) then 0
  else pack [fld 0 14 c.index, flag 14 c.enable, flag 15 c.routine.isSome, fld 16 12 (c.routine.getD 0), flag 28 c.reached,
    fld 32 32 (c.frame.toNat % 2 ^ 32)]

/-! ### Reads -/

/-- What a read of an offset returns; reserved offsets read 0 (R12, R13). -/
def State.readReg (s : State) (off : Nat) : Nat :=
  let o := off % 4096
  match off / 4096 with
  | 0 => s.readIdent o
  | 1 => s.readMbox (o / 256) (o % 256)
  | 2 => s.readTime o
  | 3 => if o < 0x80 then s.readStart o else s.readPower o
  | 4 => s.readKv o
  | 5 => s.readEmul o
  | 6 => s.readTrans o
  | 7 => s.readReel o
  | 8 => s.readSlice (o / 256) (o % 256)
  | 9 => s.readSlice (16 + o / 256) (o % 256)
  | 10 => s.readSem o
  | 11 => s.readScrub o
  | 12 => s.readSheet o
  | 13 => s.readSec o
  | 14 => s.readCut o
  | _ => 0

/-- A read of a slice's area clears its RC fields (R154, R365). -/
def Slice.clearRc (x : Slice) : Nat → Slice
  | 0x18 => { x with cring := { x.cring with lost := 0 } }
  | 0x20 => { x with overexps := 0, heldTicks := 0, skipped := 0 }
  | 0x28 => { x with timed := { x.timed with tolerated := 0, dropped := 0 } }
  | _ => x

/-- The RC fields of the registers that have one place each, cleared by a read (R12). -/
def State.clearFixed (s : State) : Nat → State
  | 0x2030 => { s with tick := { s.tick with glitch := 0, missed := 0, overexp := 0, slips := 0 } }
  | 0x3030 => { s with ports := { s.ports with credOvf := 0, dropped := 0, mpErr := 0, mpStray := 0 } }
  | 0x30A8 => { s with power := { s.power with overruns := 0, clamps := 0, thermSteps := 0, qhalts := 0, overNs := 0 } }
  | 0x30B0 => { s with power := { s.power with overNs := 0 } }
  | 0x30B8 => { s with power := { s.power with admitted := 0 } }
  | 0x4008 => { s with kv := { s.kv with contests := 0 } }
  | 0x5018 => { s with ectl := { s.ectl with ce := 0, ue := 0, firstUe := 0 } }
  | 0x5020 => { s with ectl := { s.ectl with firstUe := 0 } }
  | 0x6020 => { s with xl := { s.xl with faults := 0 } }
  | 0x6028 => { s with xl := { s.xl with walks := 0 } }
  | 0x7028 => { s with reel := { s.reel with hdrCrc := 0, corrupt := 0, stale := 0, missed := 0 } }
  | 0x7030 => { s with reel := { s.reel with skipped := 0, forwarded := 0 } }
  | 0x7038 => { s with reel := { s.reel with
      portA := { s.reel.portA with down := 0 }, portB := { s.reel.portB with down := 0 }, firstNs := 0 } }
  | 0x7040 => { s with reel := { s.reel with firstNs := 0 } }
  | 0xA808 => { s with semu := { s.semu with cycles := 0, aband := 0, timeouts := 0 } }
  | 0xB020 => { s with ss := { s.ss with retries := 0, ceReads := 0 } }
  | 0xC020 => { s with sheet := { s.sheet with lost := 0, firstNs := 0 } }
  | 0xD010 => { s with sec := { s.sec with violCount := 0 } }
  | _ => s

/-- What a read of an offset clears (R12): the FIRST_NS fields go with their counts. -/
def State.clearReg (s : State) (off : Nat) : State :=
  let o := off % 4096
  match off / 4096 with
  | 1 => if o % 256 = 0x58 then s.modChan (o / 256) fun x => { x with lost := 0 } else s
  | 4 =>
    if 0x40 ≤ o ∧ o < 0x140 ∧ o % 32 = 0 then s.modStat ((o - 0x40) / 32) fun c => { c with empty := 0, displaced := 0 }
    else if 0x40 ≤ o ∧ o < 0x140 ∧ o % 32 = 8 then s.modStat ((o - 0x40) / 32) fun c => { c with low := 0, firstNs := 0 }
    else s.clearFixed off
  | 5 =>
    if 0x100 ≤ o ∧ o < 0x300 ∧ o % 16 = 8 then s.modCol ((o - 0x100) / 16) fun c => { c with ce := 0, ue := 0 }
    else s.clearFixed off
  | 8 => s.mod (o / 256) fun x => x.clearRc (o % 256)
  | 9 => s.mod (16 + o / 256) fun x => x.clearRc (o % 256)
  | _ => s.clearFixed off

/-! ### Writes -/

/-- A write of a channel's area (R428). -/
def State.writeMbox (s : State) (c off : Nat) (d : W64) : Option State :=
  if off < 0x40 then some (s.modChan c fun x => { x with stage := x.stage.setIfInBounds (off / 8) d })
  else if off = 0x40 ∧ d.getLsbD 0 then s.doorbell c
  else if off = 0x50 ∧ d.getLsbD 0 then some (s.popCpl c)
  else some s

/-- A write of the security area (R534, R535, R537, R538). -/
def State.writeSec (s : State) (src : W12) (off : Nat) (d : W64) : Option State :=
  if 0x60 ≤ off ∧ off < 0xC0 then
    (if s.ownerRefuses src then none
     else some { s with sec := { s.sec with data := s.sec.data.setIfInBounds ((off - 0x60) / 8) d } })
  else match off with
  | 0x08 => s.writeOwner (d.setWidth 12)
  | 0x18 => some (s.selectDomain (d.setWidth 12))
  | 0x20 => some { s with xl := { s.xl with domRoot := (d >>> 20).setWidth 32 } }
  | 0x28 => some { s with xl := { s.xl with domCtl := d.setWidth 5 } }
  | 0x30 => if d.getLsbD 0 then s.commitDomain src else some s
  | 0xC0 => s.unlockGo src (d.setWidth 8)
  | _ => some s

/-- A write of KV_HINT; actions 2 and 3 are ignored (R303). -/
def State.writeKvHint (s : State) (d : W64) : State :=
  match d.toNat / 2 ^ 15 % 4 with
  | 0 => s.writeHint (d.toNat % 2 ^ 15) true false
  | 1 => s.writeHint (d.toNat % 2 ^ 15) false true
  | _ => s

/-- A write of the registers that have one place each. -/
def State.writeFixed (s : State) (src : W12) (off : Nat) (d : W64) : Option State :=
  match off with
  | 0x3018 => some { s with irq := { s.irq with status := s.irq.status &&& ~~~(d.setWidth 9) } }
  | 0x3020 => some { s with irq := { s.irq with route := d.setWidth 27 } }
  | 0x3038 => some { s with ports := { s.ports with aperture := d.setWidth 32 } }
  | 0x4010 => some (s.writeKvHint d)
  | 0x6008 => some { s with xl := { s.xl with invalVa := (d >>> 12).setWidth 44 } }
  | 0x6010 => s.writeInval (d.toNat % 2 ^ 12) (d.toNat / 2 ^ 16 % 2 ^ 32) (d.getLsbD 12) (d.getLsbD 13)
  | 0xA800 => s.semCmd (d.toNat / 256 % 4) (d.toNat % 256) src
  | 0xB030 => some { s with ss := { s.ss with sel := d.setWidth 10 } }
  | 0xC008 => some (s.writeCsRd (d.setWidth 32))
  | 0xC018 => s.writeCsSpill d
  | 0xC028 => some { s with sheet := { s.sheet with trace := d.setWidth 3 } }
  | _ => some s

/-- A write of a slice's area: CRING_PTR.RD alone is writable (R154, R466). -/
def State.writeSlice (s : State) (k off : Nat) (d : W64) : State :=
  if off = 0x18 ∧ s.present.contains k then s.mod k fun x => { x with cring := { x.cring with rd := (d >>> 16).setWidth 16 } }
  else s

/-- What a write of an offset does, or none where a register rule refuses it (R12, R13, R401). -/
def State.writeReg (s : State) (src : W12) (off : Nat) (d : W64) : Option State :=
  let o := off % 4096
  match off / 4096 with
  | 1 => s.writeMbox (o / 256) (o % 256) d
  | 8 => some (s.writeSlice (o / 256) (o % 256) d)
  | 9 => some (s.writeSlice (16 + o / 256) (o % 256) d)
  | 13 => s.writeSec src o d
  | _ => s.writeFixed src off d

/-- An access of another width, or an unaligned one (R11, R401). -/
def accBad (a : RegAcc) : Bool := a.size != 3 || decide (a.offset.toNat % 8 ≠ 0)

/-! ### The commands -/

/-- REGISTER_READ_CLEAR (R12). -/
def execRegisterReadClear (a : RegAcc) (s : State) : Host.Outcome State Fault Refusal :=
  act s (if !s.node.valid then s
    else if accBad a then s.respond 5 a.src a.offset.toNat 0
    else (s.clearReg a.offset.toNat).respond 3 a.src a.offset.toNat (s.readReg a.offset.toNat))

/-- REGISTER_WRITE (R12). -/
def execRegisterWrite (a : RegAcc) (data : W64) (s : State) : Host.Outcome State Fault Refusal :=
  act s (s.cpWrite a.src a.offset.toNat (if accBad a then none else s.writeReg a.src a.offset.toNat data))

end Sys2Proof.Machine
end

