-- ==== Sys2Proof/Machine/OnoriDesc.lean ====
section
/-! DEFINITION. Onori's first two items (R463): the header, its lists and masks (R110, R41), and the descriptors (R53 to R60, R70,
R111, R117 to R123, R204, R205, R215, R480). -/

namespace Sys2Proof.Machine

/-- Some two elements of a list are related. -/
def anyPair {α : Type} (p : α → α → Bool) : List α → Bool
  | [] => false
  | a :: l => l.any (p a) || anyPair p l

/-! ### The header (R110) -/

/-- Where the header, the code and the lists of the image lie: offset and size. -/
def Verify.parts (v : Verify) : List (Nat × Nat) :=
  [(0, 128), (v.h 8 4, 16 * v.length), (v.h 32 4, 136 * v.h 36 2), (v.h 40 4, 2 * v.h 38 2), (v.h 44 4, 4 * v.h 48 2),
    (v.h 52 4, 16 * v.h 50 2), (v.h 56 4, v.h 60 4)].filter fun p => p.2 != 0

/-- Fixed values, counts and ranges of the header are broken. -/
def Verify.badFields (v : Verify) : Bool :=
  decide (v.img.length < 128) || v.h 0 4 != 0x56504731 || v.h 4 2 != 1 || v.h 6 2 != 0 || v.h 83 1 != 0 || v.h 86 2 != 0 ||
    (v.img.drop 96).take 32 != List.replicate 32 0 || v.h 8 4 % 16 != 0 ||
    decide (v.length < 1 ∨ 16384 < v.length ∨ v.h 26 2 < 700 ∨ 1500 < v.h 26 2 ∨ 2048 < v.h 36 2 ∨ 4096 < v.h 38 2 ∨
      2048 < v.h 48 2 ∨ 64 < v.h 50 2)

/-- The library cache and the completion ring of the header are broken (R110, R150). -/
def Verify.badRegions (v : Verify) : Bool :=
  let base := v.h 72 8
  let n := v.h 80 2
  let virt := v.h 82 1
  v.lib.1 % 128 != 0 || v.lib.2 % 128 != 0 || decide (2 ^ 20 < v.lib.2) || base % 128 != 0 ||
    !([16, 32, 64, 128, 256, 512, 1024].contains n) || decide (1 < virt) || v.h 84 2 / 4096 != 0 ||
    (virt == 1 && v.h 84 2 % 4096 == 0) || (virt == 0 && decide (25165824 < base + 128 * n))

/-- The lists overlap, leave the image, or hold what no entry may (R110). -/
def Verify.badLists (v : Verify) : Bool :=
  anyPair (fun a b => decide (a.1 < b.1 + b.2 ∧ b.1 < a.1 + a.2)) v.parts ||
    v.parts.any (fun p => decide (v.img.length < p.1 + p.2)) ||
    (List.range (v.h 36 2)).any (fun i => decide (2048 ≤ v.h (v.h 32 4 + 136 * i) 8)) ||
    v.routines.any (fun r => decide (4096 ≤ r)) ||
    v.aliases.any (fun a => decide (2048 ≤ a.1)) ||
    (List.range (v.h 50 2)).any (fun i => v.h (v.h 52 4 + 16 * i + 1) 7 != 0) ||
    v.brackets.any (fun b => decide (64 ≤ b.1)) || anyPair (fun a b => a.1 == b.1) v.brackets

/-- The CRC of the image, its own field taken as 0 (R110). -/
def Verify.badCrc (v : Verify) : Bool :=
  crc32 (v.img.take 92 ++ List.replicate 4 0 ++ v.img.drop 96) != v.h 92 4

/-- Item 1: the header and its lists, the CRC, the masks (R41, R110). -/
def Verify.header (v : Verify) : Option Reject :=
  (firstCode [
    (0x01, v.badFields || v.badRegions || v.badLists),
    (0x02, v.badCrc),
    (0x03, v.h 16 8 &&& (2 ^ 64 - 1 - v.s.chip.features) != 0 || decide (0x4000 ≤ v.h 24 2))]).map
    fun c => ⟨c, 0, 0, 0xFFFF⟩

/-! ### Descriptors -/

/-- Reserved or out-of-range fields (R117 to R119, R215, R480). -/
def VDesc.badFields (d : VDesc) : Bool :=
  let top := if d.virt then 2 ^ 56 else 2 ^ 25
  d.f 0x34 12 != 0 || d.f 0x70 16 != 0 || d.f 0x16 2 / 4096 != 0 || decide (8 ≤ d.f 0x19 1) || d.f 0x1A 2 / 2 ^ 14 != 0 ||
    d.f 0x1C 2 / 2 ^ 15 != 0 || d.f 0x1E 2 / 4 != 0 || d.f 0x20 8 / 2 ^ 49 != 0 || decide (2 ≤ bits d.ctl 15 14) ||
    decide (top ≤ d.base) || decide (top ≤ d.sbase) || decide (d.ndim < 1 ∨ 6 < d.ndim) ||
    (List.range 6).any (fun i => decide (d.ndim ≤ i) && d.f (0x40 + 8 * i) 8 != 0) ||
    d.dims.any (fun x => x.extent == 0) || decide (2 ^ 40 ≤ d.count) || (!d.mx && d.sbase != 0) ||
    decide (6 ≤ d.idxDim) || (d.idx && decide (d.ndim ≤ d.idxDim)) || d.f 0x18 1 != 0 || (d.virt && d.domain == 0)

/-- Layout rules (R53, R54, R57, R120). -/
def VDesc.badLayout (d : VDesc) : Bool :=
  let outer (n : Int) : Bool := (d.dims.drop 1).any fun x => x.stride % n != 0
  let inner (n : Nat) : Bool := d.stride 0 != 1 || d.ext 0 % n != 0
  (if d.planar then !planarOk d.fmt else !packedOk d.fmt) || (d.mx && (inner 32 || outer 32)) ||
    (if d.planar then d.base % 128 != 0 || inner 8 || outer 8 else d.base % max 1 (d.width / 8) != 0)

/-- The tensor scale (R59, R60). -/
def VDesc.badScale (d : VDesc) : Bool :=
  let t := d.f 0x10 4
  d.fmt != .mask1 && bits d.ctl 7 7 == 0 && decide (t < 0x00800000 ∨ 0x7E800000 < t)

/-- Bounds (R122). -/
def VDesc.badBound (d : VDesc) : Bool := (d.idx && !d.bound) || (d.bound && d.limit == 0)

/-- The index tensor (R204, R205): what it is, and its element count where no extent that it follows is bound. -/
def Verify.badIndex (v : Verify) (d : VDesc) : Bool :=
  d.idx &&
    ((d.idxDim == 0 && (d.mx || d.planar)) ||
      (match v.desc d.idxHandle with
        | none => false
        | some i =>
          !i.store || !([Fmt.int32, .int16, .int8, .uint8].contains i.fmt) || i.planar || !i.unitScale || i.idx ||
            (!((List.range 6).any fun k => decide (d.idxDim ≤ k) && d.bindAt k) && !i.bindExt &&
              i.count != ((d.dims.drop d.idxDim).map (·.extent)).foldl (· * ·) 1)))

/-- A descriptor's bytes as a load places them: with the slice's epoch (R480). -/
def Verify.placed (v : Verify) (d : VDesc) : List Byte := d.raw.set 0x18 (BitVec.ofNat 8 v.x.epoch)

/-- Handles (R111, R123): the index tensor is itself or undefined; the handle belongs to the active program with other
contents. -/
def Verify.badHandle (v : Verify) (d : VDesc) : Bool :=
  (d.idx && (d.idxHandle == d.handle || (v.desc d.idxHandle).isNone)) ||
    (match v.active with
      | some p => p.handles.contains d.handle && v.x.desc.readN (128 * d.handle) 128 != v.placed d
      | none => false)

/-- Two descriptors name one meter slot with different controls (R70). -/
def meterClash (a b : VDesc) : Bool :=
  match a.meter, b.meter with
  | some m, some n => m.slot == n.slot && m != n
  | _, _ => false

/-- The descriptors of the slice's table among handles, but for those that the image gives anew (R123). -/
def Verify.unlisted (v : Verify) (hs : List Nat) : List VDesc :=
  (hs.filter fun h => !v.listed.any fun d => d.handle == h).filterMap v.held

/-- The descriptors of the slice that a listed one must agree with in its meter: those before it, those of the table that the program
uses, and the active program's (R70). -/
def Verify.badMeter (v : Verify) (used : List Nat) (i : Nat) (d : VDesc) : Bool :=
  (v.listed.take i ++ v.unlisted (used ++ (v.active.map (·.handles)).getD [])).any (meterClash d)

/-- A descriptor of the table that the program uses disagrees in its meter with another such or with one of the active program (R70). -/
def Verify.tableMeter (v : Verify) (used : List Nat) : Option Nat :=
  ((v.unlisted used).find? fun d => (v.unlisted (used ++ (v.active.map (·.handles)).getD [])).any (meterClash d)).map (·.handle)

/-- Item 2 at one descriptor of the list: the rules in the order of their codes. `used` are the handles that the program names. -/
def Verify.descCode (v : Verify) (used : List Nat) (i : Nat) (d : VDesc) : Option Nat :=
  firstCode [
    (0x03, (fmtOfId (bits d.ctl 4 0)).isNone), (0x05, d.badFields), (0x06, d.badLayout), (0x07, d.badScale),
    (0x08, d.badBound), (0x09, v.badIndex d), (0x0A, v.badHandle d), (0x13, v.badMeter used i d)]

/-- Item 2: the descriptors, in list order, then those of the table that the program uses. -/
def Verify.descs (v : Verify) (used : List Nat) : Option Reject :=
  (v.listed.zipIdx.findSome? fun p => (v.descCode used p.2 p.1).map fun c => (⟨c, 2, p.1.handle, 0xFFFF⟩ : Reject)).or
    ((v.tableMeter used).map fun h => ⟨0x13, 2, h, 0xFFFF⟩)

end Sys2Proof.Machine
end

