-- ==== Sys2Proof/Machine/OnoriFields.lean ====
section
/-! DEFINITION. What the encodings of instructions allow, as Onori checks it (R113 to R116, R156 to R166, R181, R191 to R193, R245 to
R265, R289, R309): opcodes, FUNC, reserved bits, operand slots, formats. -/

namespace Sys2Proof.Machine

/-- Where an instruction stands as it is called: its routine, its index there, and the bases (R141). -/
structure Place where
  routine : Option Nat
  index   : Nat
  hbase   : Nat
  tbase   : Nat
deriving DecidableEq, Repr

/-- The open STRIP group as Onori follows it: SHAPE, DOUBLE, the units of its members, the tiles they write. -/
structure VGroup where
  shape  : Nat
  double : Bool
  units  : List Nat
  wrote  : List Nat
deriving DecidableEq, Repr

/-- What Onori follows through a frame: the format last written to each tile register, the open group (R109, R161). -/
structure Track where
  tiles : List (Nat × Fmt)
  group : Option VGroup
deriving DecidableEq, Repr

/-- An instruction met on the way: where, its word, and what holds before it. -/
structure Visit where
  place : Place
  word  : Nat
  track : Track
deriving DecidableEq, Repr

/-- An operand field as Onori reads it (R114): absolute numbers. -/
inductive VOp where
  | none | bad
  | tile (n : Nat)
  | desc (h : Nat)
deriving DecidableEq, Repr

namespace Visit

/-- The opcode. -/
def op (i : Visit) : Nat := bits i.word 127 120
/-- IMM. -/
def imm (i : Visit) : Nat := bits i.word 55 0
/-- FUNC. -/
def func (i : Visit) : Nat := bits i.word 119 112
/-- A bit of FUNC. -/
def fbit (i : Visit) (n : Nat) : Bool := i.func.testBit n
/-- The fields of an engine instruction (R113). -/
def fields (i : Visit) : Fields :=
  ⟨BitVec.ofNat 8 i.func, BitVec.ofNat 12 (bits i.word 111 100), BitVec.ofNat 12 (bits i.word 99 88),
    BitVec.ofNat 12 (bits i.word 87 76), BitVec.ofNat 12 (bits i.word 75 64), BitVec.ofNat 2 (bits i.word 63 62),
    i.word.testBit 61, i.word.testBit 60, BitVec.ofNat 56 i.imm⟩
/-- An operand value in the place where the instruction stands. -/
def vop (i : Visit) (w : Nat) : VOp :=
  if w < 2048 then .desc (i.place.hbase + w) else if w < 2080 then .tile (i.place.tbase + (w - 2048))
  else if w = 0xFFF then .none else .bad
/-- DST. -/
def dst (i : Visit) : VOp := i.vop (bits i.word 111 100)
/-- SRCA. -/
def a (i : Visit) : VOp := i.vop (bits i.word 99 88)
/-- SRCB. -/
def b (i : Visit) : VOp := i.vop (bits i.word 87 76)
/-- SRCC. -/
def c (i : Visit) : VOp := i.vop (bits i.word 75 64)
/-- PRED of an instruction of classes 0x20 to 0x8F. -/
def pred (i : Visit) : VOp := if 0x20 ≤ i.op ∧ i.op < 0x90 then i.vop (bits i.imm 50 39) else .none
/-- The compute or tile format, where its ID is not reserved (R161, R192). -/
def cf? (i : Visit) : Option Fmt := fmtOfId (bits i.imm 55 51)
/-- The compute or tile format. -/
def cf (i : Visit) : Fmt := immFmt i.imm
/-- SCAL of an element-wise instruction (R164). -/
def scal (i : Visit) : Nat := if i.op < 0x60 then bits i.imm 36 35 else 0

end Visit

/-- The handle next to an operand. -/
def VOp.next (o : VOp) (n : Nat) : VOp :=
  match o with
  | .desc h => .desc (h + n)
  | _ => .none

/-- The handle that an operand names. -/
def VOp.handles : VOp → List Nat
  | .desc h => [h]
  | _ => []

/-- The tile that an operand names. -/
def VOp.tiles : VOp → List Nat
  | .tile n => [n]
  | _ => []

/-- An operand is a tile. -/
def VOp.isTile (o : VOp) : Bool := !o.tiles.isEmpty

/-! ### Opcodes and FUNC (R115, R116, R156, R166, R181, R193, R245, R289, R309) -/

/-- An opcode that is not reserved. -/
def opcodeOk (op : Nat) : Bool :=
  decide (op < 0x08 ∨ (0x10 ≤ op ∧ op < 0x1B) ∨ (0x20 ≤ op ∧ op < 0x3F) ∨ (0x40 ≤ op ∧ op < 0x43) ∨ (0x48 ≤ op ∧ op < 0x4F) ∨
    (0x60 ≤ op ∧ op < 0x68) ∨ (0x70 ≤ op ∧ op < 0x74) ∨ (0x80 ≤ op ∧ op < 0x85) ∨ (0x90 ≤ op ∧ op < 0x94) ∨
    (0xA0 ≤ op ∧ op < 0xA3) ∨ (0xB0 ≤ op ∧ op < 0xB3))

/-- The bits of FUNC that an opcode defines. -/
def funcMask (op : Nat) : Nat :=
  if [0x20, 0x21, 0x22, 0x23, 0x24, 0x26, 0x27, 0x28, 0x29, 0x2A, 0x3A, 0x4D, 0x72, 0x83, 0x84, 0x91, 0x92].contains op then 1
  else if op = 0x40 ∨ op = 0x67 then 15
  else if [0x63, 0x64, 0x65, 0x66, 0xB2].contains op then 3
  else if op = 0x73 then 7
  else if op = 0x90 then 0xFD
  else if op = 0x93 then 0x1E
  else if op = 0xA0 then 0x1F
  else 0

/-- An integer compute format. -/
def intCf (f : Fmt) : Bool := fmtInt f

/-- FUNC holds a value that its instruction does not define, or does not define with its compute format (R169, R170, R172, R173,
R186, R187, R189, R211, R296, R309). -/
def Visit.badFunc (i : Visit) (dstFmt : Fmt) : Bool :=
  let op := i.op
  let fp := !intCf i.cf
  decide (0x20 ≤ op) &&
    (i.func &&& (255 - funcMask op) != 0 ||
      ([0x20, 0x21, 0x22, 0x23, 0x24, 0x29, 0x2A].contains op && i.fbit 0 && fp) ||
      ([0x26, 0x27, 0x28, 0x64, 0x65].contains op && i.fbit 0 && !fp) ||
      (op == 0x40 && decide (8 < i.func)) ||
      (op == 0x4D && i.fbit 0 && i.cf == .uint8) ||
      ((op == 0x66 || op == 0x67) && i.func % 4 == 3) ||
      (op == 0x67 && i.fbit 3 && !fp) ||
      ((op == 0x83 || op == 0x84) && i.fbit 0 && dstFmt == .int32) ||
      (op == 0xA0 && (i.func % 4 == 0 || i.func % 4 == 3)) ||
      (op == 0xB2 && decide (1 < i.func)))

/-! ### Reserved bits and immediates (R113, R116, R156, R157, R160, R164, R181, R191, R247, R257, R259, R265, R289, R309) -/

/-- The reserved bits of an instruction word, as ranges. -/
def reservedBits (op : Nat) : List (Nat × Nat) :=
  match op with
  | 0x00 | 0x02 | 0x04 | 0x07 => [(119, 0)]
  | 0x01 => [(87, 0)]
  | 0x03 => [(107, 0)]
  | 0x05 => [(65, 0)]
  | 0x06 => [(111, 0)]
  | 0x10 | 0x11 | 0x1A => [(116, 32)]
  | 0x12 => [(113, 0)]
  | 0x13 => [(116, 114), (107, 0)]
  | 0x14 => [(110, 32)]
  | 0x15 => [(107, 0)]
  | 0x16 | 0x19 => [(110, 0)]
  | 0x17 => [(113, 48)]
  | 0x18 => [(107, 32)]
  | _ =>
    (59, 56) ::
      (if op < 0x60 then [(34, 32)] else if op < 0x70 then [] else if op < 0x90 then [(35, 32)]
      else if op = 0x90 ∨ op = 0x93 then [(7, 0)] else if op = 0x91 then [(55, 0)] else if op = 0x92 then [(30, 0)]
      else if op = 0xA0 then [(44, 0)] else if op = 0xA1 then [(14, 0)] else if op = 0xA2 then [(50, 0)]
      else [(49, 46), (33, 0)])

/-- The scalar forms of an opcode (R166): 0 none, 1 "b", 2 "bc", 3 BCAST's. -/
def scalForm (op : Nat) : Nat :=
  if op = 0x23 ∨ op = 0x24 ∨ op = 0x28 then 2
  else if op = 0x2F then 3
  else if [0x20, 0x21, 0x22, 0x25, 0x26, 0x27, 0x2B, 0x2C, 0x2D, 0x40, 0x42, 0x48, 0x49, 0x4A, 0x4C, 0x4D].contains op then 1
  else 0

/-- Bits that an immediate scalar of a compute format uses (R164). -/
def scalBits (f : Fmt) : Nat := fmtBits f

/-- The scalar fields of an element-wise instruction are broken (R164, R173). -/
def Visit.badScal (i : Visit) : Bool :=
  let w := i.imm % 2 ^ 32
  let form := scalForm i.op
  match i.scal with
  | 0 => form == 3 || (if i.op = 0x41 then decide (2 ^ 10 ≤ w) else i.op != 0x4E && w != 0)
  | 1 => form == 0 || decide (2 ^ scalBits i.cf ≤ w)
  | 2 => form == 0 || decide (64 ≤ w)
  | _ => form != 2 || bits w 7 6 != 0 || decide (2 ^ 14 ≤ w)

/-- Dimensions that RDIMS may count (R181, R185). -/
def Visit.redNdim (i : Visit) (nd : Nat) : Nat := if redPairs i.op i.fields then nd - 1 else nd

/-- IMM fields of a reduction are broken (R181, R187). `nd` is NDIM of the source. -/
def Visit.badRed (i : Visit) (nd : Nat) : Bool :=
  let rd := bits i.imm 37 35
  let mask := i.op == 0x66
  let cmpw := i.imm.testBit 34
  rd == 0 || rd == 7 || decide (i.redNdim nd < rd) || (!mask && bits i.imm 34 32 != 0) ||
    (!(mask && i.func % 4 == 2) && i.imm % 2 ^ 32 != 0) || (mask && cmpw && rd != nd)

/-- Reserved bits or immediate rules are broken (R113, R164). `nd` is NDIM of SRCA. -/
def Visit.badImm (i : Visit) (nd : Nat) : Bool :=
  let op := i.op
  let imm := i.imm
  (reservedBits op).any (fun r => bits i.word r.1 r.2 != 0) ||
    (decide (0x20 ≤ op) && bits i.word 63 62 == 3) ||
    (op == 0x05 && decide (2 ≤ bits i.word 119 118)) ||
    ((op == 0x14 || op == 0x15) && decide (6 ≤ bits i.word 114 112)) ||
    (decide (0x20 ≤ op ∧ op < 0x60) && i.badScal) ||
    (isReduce op && i.badRed nd) ||
    (decide (0x70 ≤ op ∧ op < 0x90) && ((op != 0x82 && imm.testBit 36) || (op != 0x72 && imm % 2 ^ 32 != 0))) ||
    ((op == 0x90 || op == 0x93) && (bits imm 55 54 == 3 || decide (6 ≤ bits imm 53 51) || decide (58 < bits imm 28 23))) ||
    (op == 0x92 && (decide (8 < bits imm 40 37) || (!i.fbit 0 && bits imm 40 37 != 0))) ||
    (op == 0x93 && bits imm 10 8 != 0) ||
    (op == 0xA0 && decide (59 < bits imm 55 50)) ||
    (decide (0xB0 ≤ op) && (if op = 0xB2 ∧ i.func = 1 then bits imm 45 34 == 0 else bits imm 45 34 != 0))

/-! ### Operand slots (R114, R162, R166, R181, R193, R195, R245, R257, R259, R265, R290, R294, R296, R309) -/

/-- What an instruction asks of a slot. -/
inductive Need where
  | req | opt | no
deriving DecidableEq, Repr

/-- A slot that a condition requires, and forbids otherwise. -/
def Need.iff (b : Bool) : Need := if b then .req else .no

/-- What an instruction asks of DST, SRCA, SRCB and SRCC. -/
def Visit.needs (i : Visit) : List Need :=
  let op := i.op
  let sb := i.scal == 0
  if op < 0x20 then [.no, .no, .no, .no]
  else if op < 0x60 then
    (if op = 0x2F ∨ op = 0x4E then [.req, .no, .no, .no]
    else if scalForm op = 0 then [.req, .req, .no, .no]
    else [.req, .req, .iff sb,
      if scalForm op = 2 then .iff (i.scal != 3) else .iff (op == 0x2C || op == 0x2D || op == 0x42)])
  else if op < 0x70 then
    [.req, .req, .iff (op == 0x62), .iff (op == 0x63 || ((op == 0x64 || op == 0x65) && i.fbit 1))]
  else if op < 0x90 then [.req, .iff (op != 0x72), .no, .iff (op == 0x73)]
  else match op with
  | 0x90 => [.req, .req, .req, .iff (i.fbit 6)]
  | 0x91 => [.req, .req, .req, if i.fbit 0 then .opt else .req]
  | 0x92 => [.req, .req, .req, .no]
  | 0x93 => [.req, .req, .req, .req]
  | 0xA0 => [.req, .req, .opt, .iff (i.fbit 4)]
  | 0xB0 => [.req, .req, .opt, .opt]
  | 0xB1 | 0xB2 => [.req, .no, .no, .no]
  | _ => [.no, .no, .no, .no]

/-- A slot does not hold what is asked. -/
def slotBad (n : Need) (o : VOp) : Bool :=
  match o with
  | .bad => true
  | .none => n == .req
  | _ => n == .no

/-- The four slots. -/
def Visit.slots (i : Visit) : List VOp := [i.dst, i.a, i.b, i.c]

/-- Operands that an instruction names beside its slots (R245, R250, R265, R309). -/
def Visit.extras (i : Visit) : List VOp :=
  let side : List VOp := if i.imm.testBit 11 then [i.vop (bits i.imm 22 12)] else []
  match i.op with
  | 0x03 => [i.vop (bits i.word 119 109)]
  | 0x90 => (if i.fbit 0 then [] else [i.b.next 1]) ++ side
  | 0x93 => [i.b.next 1, i.a.next 1, i.dst.next 1, i.dst.next 2] ++ side
  | 0xA0 => if i.b = .none then [] else [i.dst.next 1]
  | _ => []

/-- Every operand that an instruction names. -/
def Visit.operands (i : Visit) : List VOp :=
  (if i.op < 0x20 then [] else i.slots ++ [i.pred]) ++ i.extras

/-- The handles that an instruction names. -/
def Visit.handles (i : Visit) : List Nat := i.operands.flatMap VOp.handles

/-- The tile registers that an instruction names; in a DOUBLE group also the other halves (R134). -/
def Visit.tiles (i : Visit) : List Nat :=
  let t := i.operands.flatMap VOp.tiles
  match i.track.group with
  | some g => if g.double then t ++ t.map (· + 16) else t
  | none => t

/-- The tile registers that an instruction writes, with their formats. -/
def Visit.tileWrites (i : Visit) : List (Nat × Fmt) :=
  if i.op < 0x20 ∨ 0x90 ≤ i.op then [] else
    let f := tileFormats i.op i.fields
    i.dst.tiles.map (fun n => (n, f.1)) ++ (if writesC i.op then i.c.tiles.map (fun n => (n, f.2)) else [])

/-- The formats that tile registers have after an instruction: what it writes, in a DOUBLE group of more than one strip also in the odd
strips' halves (R134); `strips` is the most that SHAPE can have. -/
def Visit.tileEffect (i : Visit) (strips : Nat) : List (Nat × Fmt) :=
  let w := i.tileWrites
  match i.track.group with
  | some g => if g.double && decide (1 < strips) then w ++ w.map fun x => (x.1 + 16, x.2) else w
  | none => w

/-- The tile registers that an instruction reads as data, with the format that it reads them in; CLASS reads bit patterns
(R161). -/
def Visit.tileReads (i : Visit) : List (Nat × Option Fmt) :=
  if i.op < 0x20 ∨ 0x90 ≤ i.op then [] else
    let f := if i.op = 0x41 then none else some i.cf
    (i.a.tiles ++ i.b.tiles ++ (if writesC i.op || i.op == 0x42 then [] else i.c.tiles)).map fun n => (n, f)

/-- The operands that an instruction takes as masks (R165, R167). -/
def Visit.masks (i : Visit) : List VOp := i.pred :: (if i.op = 0x42 then [i.c] else [])

/-- The handles that an instruction writes (R126, R167, R265, R309). -/
def Visit.writes (i : Visit) : List Nat :=
  if i.op < 0x20 then [] else
    i.dst.handles ++ (if writesC i.op then i.c.handles else []) ++
      (if i.op = 0x93 then (i.dst.next 1).handles ++ (i.dst.next 2).handles
      else if i.op = 0xA0 then (if i.b = .none then [] else (i.dst.next 1).handles) else [])

/-- The KV views that an instruction names (R276, R290, R294). -/
def Visit.kvViews (i : Visit) : List VOp :=
  match i.op with
  | 0x90 => if i.imm.testBit 10 then i.b :: (if i.fbit 0 then [] else [i.b.next 1]) else []
  | 0xB0 => [i.dst, i.c]
  | 0xB1 => [i.dst]
  | _ => []

/-- The compute or tile formats that an opcode allows (R161, R166, R181, R184, R187, R192). -/
def allowedCf (op : Nat) : List Fmt :=
  let fp : List Fmt := [.fp32, .fp16]
  let int : List Fmt := [.int32, .int16, .int8, .uint8]
  if [0x20, 0x21, 0x22, 0x23, 0x24, 0x26, 0x27, 0x28, 0x29, 0x2A, 0x2F, 0x40].contains op then fp ++ int
  else if op = 0x2C ∨ op = 0x2D ∨ op = 0x63 then [.fp32]
  else if op = 0x42 then fp ++ int ++ [.mask1]
  else if 0x48 ≤ op ∧ op ≤ 0x4B then int ++ [.mask1]
  else if op = 0x4C ∨ op = 0x4D then int
  else if op = 0x4E then [.int32]
  else if op < 0x60 then fp
  else if op = 0x66 then [.mask1]
  else if op < 0x70 then .fp32 :: int
  else fp ++ int ++ [.mask1]

end Sys2Proof.Machine
end

