-- ==== Sys2Proof/Machine/OnoriInstr.lean ====
section
/-! DEFINITION. Onori's rules for one instruction where it stands (R463, items 3 and 4): operands, formats, predicates, shapes,
destinations, STRIP groups, tiles, control, attention, KV views, the reel. -/

namespace Sys2Proof.Machine

/-- The descriptor of an operand; an empty one where there is none. -/
def Verify.d (v : Verify) (o : VOp) : VDesc :=
  match o with
  | .desc h => (v.desc h).getD ⟨h, []⟩
  | _ => ⟨0, []⟩

/-- The operand as the checks at issue see it, at its static extents. -/
def Verify.opd (v : Verify) (o : VOp) : Operand :=
  match o with
  | .desc _ => .tensor (v.d o).tensor
  | .tile n => .tile n
  | _ => .none

/-- The element count of an operand, where it is not bound (R121, R133). -/
def Verify.count? (v : Verify) (o : VOp) : Option Nat :=
  match o with
  | .desc _ => if (v.d o).bindExt then none else some (v.d o).count
  | .tile _ => some 4096
  | _ => none

/-- A list of conditions on the descriptors of operands: one is broken. -/
def Verify.anyDesc (v : Verify) (l : List VOp) (p : VDesc → Bool) : Bool :=
  l.any fun o => !o.handles.isEmpty && p (v.d o)

/-! ### Operands, formats, predicates (R114, R161, R162, R165, R192, R195, R198, R207 to R211, R235) -/

/-- Slots and spaces (R114, R162, R195, R207 to R209). -/
def Verify.badOperand (v : Verify) (i : Visit) : Bool :=
  let op := i.op
  decide (0x20 ≤ op) &&
    ((i.needs.zip i.slots).any (fun p => slotBad p.1 p.2) || i.pred == .bad ||
      (decide (op < 0x70) && v.anyDesc (i.slots ++ [i.pred]) (fun d => !d.store)) ||
      (decide (0x90 ≤ op) && i.slots.any VOp.isTile) ||
      (decide (0x70 ≤ op ∧ op < 0x90) &&
        (let on : List VOp := if op = 0x80 then [i.a] else if op < 0x80 then [] else [i.dst]
         let off : List VOp := if op = 0x80 then [i.dst, i.b, i.c] else if op < 0x80 then i.slots else [i.a, i.b, i.c]
         on.any (fun o => !(v.d o).idx) || v.anyDesc (i.pred :: off) fun d => d.idx)) ||
      (op == 0xB2 && !(v.d i.dst).store))

/-- A tile register is read in another format than the one last written to it (R161, R192). -/
def Visit.badTileRead (i : Visit) : Bool :=
  i.tileReads.any fun r =>
    match r.2, i.track.tiles.find? (fun t => t.1 == r.1) with
    | some f, some t => t.2 != f
    | _, _ => false

/-- The destination of a read-modify-write (R209, R211). -/
def VDesc.rmwOk (d : VDesc) : Bool := !d.planar && (d.fmt == .fp32 || d.fmt == .int32) && d.unitScale

/-- Formats of operands (R161, R187, R192, R198, R209, R235, R246, R257, R265, R296). -/
def Verify.badFormat (v : Verify) (i : Visit) : Bool :=
  let op := i.op
  let notF (l : List VOp) (p : Fmt → Bool) : Bool := v.anyDesc l fun d => !p d.fmt
  let fp32 (f : Fmt) : Bool := f == .fp32
  if op < 0x20 then false
  else if op < 0x70 then
    !((i.cf?.map fun f => (allowedCf op).contains f).getD false) || i.badTileRead ||
      (op == 0x66 && notF [i.a] (· == .mask1))
  else if op < 0x90 then
    let hasTile := (i.slots.any VOp.isTile)
    !((i.cf?.map fun f => (allowedCf op).contains f).getD false) || (!hasTile && bits i.imm 55 51 != 0) || i.badTileRead ||
      (op == 0x73 && (!(v.d i.a).planar || decide (i.func % 8 < 1 ∨ (v.d i.a).width ≤ i.func % 8) ||
        notF [i.dst, i.c] (fun f => f == .fp32 || f == .fp16) ||
        ((i.dst.isTile || i.c.isTile) && i.cf != .fp32 && i.cf != .fp16))) ||
      (decide (0x82 ≤ op) && !(v.d i.dst).rmwOk)
  else match op with
  | 0x90 => notF ([i.a, i.b] ++ (if i.fbit 0 then [] else [i.b.next 1])) arrayFmt || notF [i.dst, i.c] floatFmt
  | 0x91 => notF [i.a, i.b] fp32 || notF [i.dst, i.c] (if i.fbit 0 then floatFmt else fp32)
  | 0x92 => notF [i.a, i.b] arrayFmt || notF [i.dst] floatFmt
  | 0x93 => notF [i.a, i.a.next 1, i.b, i.b.next 1] arrayFmt || notF [i.dst, i.c] fp32 || notF [i.dst.next 1, i.dst.next 2] floatFmt
  | 0xB2 => notF [i.dst] (· == .uint8) || (v.d i.dst).planar
  | _ => false

/-- Predicates and the mask of SELECT: a MASK1 descriptor with the element count, or a tile last written with masks, which outside a group
stands for 4,096 elements (R133, R165, R167). `n` is the count where it is known. -/
def Verify.badMask (v : Verify) (i : Visit) (n : Option Nat) (o : VOp) : Bool :=
  match o with
  | .desc _ =>
    (v.d o).fmt != .mask1 || (match n, v.count? o with | some a, some b => a != b | _, _ => false)
  | .tile t =>
    (match i.track.tiles.find? (fun x => x.1 == t) with | some x => x.2 != .mask1 | none => false) ||
      (i.track.group.isNone && n.any fun a => a != 4096)
  | _ => false

/-! ### Shapes (R163, R182, R185, R186, R194, R201, R205, R257, R290, R296) -/

/-- The count that an instruction's operands share, where Onori knows it: that of SHAPE, of a reduction's sources, or of the first other
operand that nothing binds (R130, R163, R182, R194). -/
def Verify.shared (v : Verify) (i : Visit) : Option Nat :=
  match i.track.group with
  | some g => v.count? (.desc g.shape)
  | none => (if isReduce i.op then [i.a, i.b] else [i.dst, i.a, i.b, i.c]).findSome? v.count?

/-- The static operands of an instruction. -/
def Verify.statics (v : Verify) (i : Visit) : Operands :=
  ⟨v.opd i.dst, v.opd i.a, v.opd i.b, v.opd i.c, v.opd i.pred, none, none, []⟩

/-- An operand's count differs from the one asked: a tile register outside a group stands for 4,096 elements, and one that takes a
reduction's outputs holds at most so many (R130, R133, R163, R182, R194). -/
def Verify.countBad (v : Verify) (i : Visit) (o : VOp) (want : Nat) (outs : Bool) : Bool :=
  match o with
  | .tile _ => if outs then decide (4096 < want) else i.track.group.isNone && want != 4096
  | _ => (match v.count? o with | some n => n != want | none => false)

/-- Element counts of classes 0x20 to 0x8F. -/
def Verify.badCounts (v : Verify) (i : Visit) : Bool :=
  match v.shared i with
  | none => false
  | some n =>
    (wantCounts i.op i.fields (v.statics i) n).any fun w =>
      let o := match w.1 with | 0 => i.dst | 1 => i.a | 2 => i.b | 3 => i.c | _ => .none
      let outs := isReduce i.op && i.op != 0x67 && (w.1 == 0 || w.1 == 3)
      if outs ∧ (v.d i.a).bindExt then false else v.countBad i o w.2.2 outs

/-- A reduction's source breaks PAIRS, or its positions can pass 2^31 - 1 with IDX (R185, R186). -/
def Verify.badReduce (v : Verify) (i : Visit) : Bool :=
  let d := v.d i.a
  let n := match i.track.group with
    | some g => (v.d (.desc g.shape)).count
    | none => 4096
  let len := redLength (v.opd i.a) false (redDims i.fields) n
  isReduce i.op &&
    ((redPairs i.op i.fields && (i.a.isTile || decide (d.ndim < 2) || d.ext 0 != 2 || d.stride 0 != 1)) ||
      ((i.op == 0x64 || i.op == 0x65) && i.fbit 1 && decide (2 ^ 31 ≤ len)))

/-- MOVET's two operands: the destination holds the source with DIM0 and DIM1 exchanged (R201). -/
def transposes (s d : VDesc) : Bool :=
  decide (2 ≤ s.ndim) && s.ndim == d.ndim && s.stride 0 == 1 && d.stride 0 == 1 && d.ext 0 == s.ext 1 && d.ext 1 == s.ext 0 &&
    (d.dims.drop 2).map (·.extent) == (s.dims.drop 2).map (·.extent) &&
    decide (1 ≤ s.ext 0 ∧ s.ext 0 ≤ 128 ∧ 1 ≤ s.ext 1 ∧ s.ext 1 ≤ 128)

/-- MOVET breaks R201. -/
def Verify.badMovet (v : Verify) (i : Visit) : Bool :=
  i.op == 0x71 &&
    (i.dst.isTile || (i.a.isTile && i.track.group.isNone) || (!i.a.isTile && !transposes (v.d i.a) (v.d i.dst)))

/-- Shapes of MERGE, APPEND and PAGEQ (R257, R290, R296). -/
def Verify.badOther (v : Verify) (i : Visit) : Bool :=
  let d (o : VOp) : VDesc := v.d o
  match i.op with
  | 0x91 =>
    let p := (d i.a).ext 2
    let rows := (d i.a).ext 1
    decide (3 < (d i.a).ndim ∨ 3 < (d i.b).ndim ∨ 2 < (d i.dst).ndim ∨ p < 1 ∨ 1024 < p) || (d i.b).ext 0 != 3 ||
      (d i.b).ext 1 != rows || (d i.b).ext 2 != p || (d i.dst).ext 0 != (d i.a).ext 0 || (d i.dst).ext 1 != rows ||
      (i.c != .none && (decide (2 < (d i.c).ndim) || (d i.c).ext 0 != 3 || (d i.c).ext 1 != rows))
  | 0xB0 =>
    let bad (s w : VDesc) : Bool := decide (3 < s.ndim) || s.ext 0 != w.ext 0 || s.ext 1 != w.ext 1
    bad (d i.a) (d i.dst) || (!(d i.a).bindAt 2 && decide (65536 < (d i.a).ext 2)) ||
      (i.b != .none && (decide (3 < (d i.b).ndim) || (d i.b).ext 2 != (d i.a).ext 2 || (i.c != .none && bad (d i.b) (d i.c))))
  | 0xB2 =>
    let n := if i.func = 0 then 64 else 16 * bits i.imm 45 34
    (match v.count? i.dst with | some c => c != n | none => false)
  | _ => false

/-- Item SHAPE of R464. -/
def Verify.badShape (v : Verify) (i : Visit) : Bool :=
  if i.op < 0x20 then false
  else if i.op < 0x90 then (i.op != 0x71 && v.badCounts i) || v.badReduce i || v.badMovet i
  else v.badOther i

/-! ### Destinations (R163, R180, R195, R205) -/

/-- A destination aliases itself, or the outputs of TWOSUM or TWOPROD overlap (R163, R180, R195). -/
def Verify.badDest (v : Verify) (i : Visit) : Bool :=
  let op := i.op
  let own : List VOp :=
    if 0x20 ≤ op ∧ op < 0x60 ∨ 0x70 ≤ op ∧ op < 0x81 then i.dst :: (if writesC op then [i.c] else []) else []
  v.anyDesc own VDesc.aliases ||
    ((op == 0x2C || op == 0x2D) &&
      (match i.dst, i.c with
        | .tile a, .tile b => a == b
        | .desc _, .desc _ => (v.d i.dst).overlaps (v.d i.c)
        | _, _ => false))

/-- An instruction writes the handle of an index tensor that it uses (R205). -/
def Verify.writesIndex (v : Verify) (i : Visit) : Bool :=
  v.anyDesc i.operands fun d => d.idx && i.writes.contains d.idxHandle

/-! ### STRIP groups and tile registers (R129, R130, R133, R134, R203) -/

/-- MOVET inside a group: SHAPE's tiles fill its strips, and the destination holds them exchanged (R203). -/
def Verify.badFused (v : Verify) (g : VGroup) (i : Visit) : Bool :=
  let s := v.d (.desc g.shape)
  i.op == 0x71 && (!transposes s (v.d i.dst) || 4096 % max 1 (s.ext 0 * s.ext 1) != 0)

/-- A group is broken at an instruction. -/
def Verify.badGroup (v : Verify) (i : Visit) : Bool :=
  let op := i.op
  let used := v.h 88 4
  i.tiles.any (fun t => decide (32 ≤ t) || !used.testBit t) ||
    (match i.track.group with
      | none => op == 0x04
      | some g =>
        if op = 0x04 then g.units.isEmpty
        else if op < 0x20 ∨ 0x90 ≤ op then true
        else
          decide (16 ≤ g.units.length ∨ queueDepth (unitOf op) ≤ g.units.count (unitOf op)) ||
            (i.tileReads.map (·.1) ++ i.masks.flatMap VOp.tiles).any (fun t => !g.wrote.contains t) ||
            (g.double && (i.operands.flatMap VOp.tiles).any fun t => decide (16 ≤ t)) || v.badFused g i)

/-- A tile register is read before it is written in the frame (R109, R133). -/
def Visit.readsUndefined (i : Visit) : Bool :=
  (i.tileReads.map (·.1) ++ i.masks.flatMap VOp.tiles).any fun t => !(i.track.tiles.any fun x => x.1 == t)

/-! ### Control (R106, R140 to R142, R144, R320, R321) -/

/-- TICKWAIT missing or misplaced (R106). -/
def Verify.badTickwait (v : Verify) (i : Visit) : Bool :=
  let last := i.place.routine.isNone && i.place.index + 1 == v.length
  (i.op == 0x07) != last

/-- WAIT, TAKE and RELEASE fields (R144, R320, R321). -/
def Visit.badWait (i : Visit) : Bool :=
  match i.op with
  | 0x05 =>
    let en := i.word.testBit 70
    (i.word.testBit 71 && !en) || (en && bits i.word 69 68 == bits i.word 67 66)
  | 0xA1 => i.imm.testBit 47 && !i.imm.testBit 50
  | 0xA2 => !i.word.testBit 61
  | _ => false

/-- What a routine names, relative to its bases: each handle and tile register (R141). -/
def namesOf (ws : List Nat) : List Nat × List Nat :=
  let vs : List Visit := ws.map fun w => ⟨⟨none, 0, 0, 0⟩, w, ⟨[], none⟩⟩
  (vs.flatMap Visit.handles, vs.flatMap Visit.tiles)

/-- A CALL's routine reaches beyond the table or the tile registers; a RET stands outside a routine (R140, R141). -/
def Verify.badCall (v : Verify) (i : Visit) : Bool :=
  match i.op with
  | 0x01 =>
    match v.routine (bits i.word 119 108) with
    | none => false
    | some ws =>
      let n := namesOf ws
      n.1.any (fun h => decide (2048 ≤ bits i.word 107 97 + h)) || n.2.any fun t => decide (32 ≤ bits i.word 96 92 + t)
  | 0x02 => i.place.routine.isNone
  | _ => false

/-- A CALL of a routine that is not listed, or that the library does not hold (R142). -/
def Verify.badRoutine (v : Verify) (i : Visit) : Bool :=
  i.op == 0x01 && (!v.routines.contains (bits i.word 119 108) || (v.routine (bits i.word 119 108)).isNone)

/-! ### Attention (R232, R234, R245, R247, R250, R252, R254, R258, R259, R265) -/

/-- The widths of scores and values: by HD, or for WIDE by the static extents (R247, R249). -/
def Verify.widths (v : Verify) (i : Visit) : Nat × Nat :=
  if bits i.imm 53 51 = 5 then ((v.d i.a).ext 0, (v.d i.dst).ext (if i.imm.testBit 9 then 2 else 0))
  else headWidths (bits i.imm 53 51) 0

/-- Bytes of elements with their scales. -/
def VDesc.bytes (d : VDesc) (n : Nat) : Nat := ceilDiv (n * d.width) 8 + (if d.mx then n / 32 else 0)

/-- The limits of the stationary buffer and of the accumulators (R232). -/
def Verify.badTile (v : Verify) (i : Visit) : Bool :=
  let w := v.widths i
  let q := v.d i.a
  let rows := (bits i.imm 50 45 + 1) / (bits i.imm 44 39 + 1) * min ((bits i.imm 38 35 + 1) * 16) (q.ext 2)
  decide (256 < rows ∨ 262144 < q.bytes (rows * w.1) ∨ 65536 < rows * w.2)

/-- An attention instruction stages blocks of VIRT data (R234). -/
def Verify.stages (v : Verify) (i : Visit) : Bool :=
  (i.op == 0x90 || i.op == 0x93) && v.anyDesc (i.b :: (if i.op = 0x90 ∧ i.fbit 0 then [] else [i.b.next 1])) fun d => d.virt

/-- Two block buffers do not fit the staging area (R234). -/
def Verify.badBuffers (v : Verify) (i : Visit) : Bool :=
  let w := v.widths i
  let kb := min ((bits i.imm 34 29 + 1) * 16) ((v.d i.b).ext 2)
  let shared := i.op == 0x90 && i.fbit 0
  v.stages i && decide (2 ^ 21 < 2 * ((v.d i.b).bytes (kb * w.1) + (if shared then 0 else (v.d (i.b.next 1)).bytes (kb * w.2))))

/-- The side table (R250). -/
def Verify.badSide (v : Verify) (i : Visit) : Bool :=
  let on := i.imm.testBit 11
  let d := v.d (i.vop (bits i.imm 22 12))
  let nb := (v.d i.a).ext 3
  let need := max (if i.fbit 4 then 64 else 0) (max (64 + nb) (if i.op == 0x90 && i.imm.testBit 8 then 1088 + nb else 0))
  on && (d.fmt != .int32 || d.planar || !d.store || d.ndim != 1 || decide (d.ext 0 < need ∨ 1024 < nb))

/-- A batch dimension stands on all of some operands or on none, with one extent (R245). -/
def sameBatch (l : List VDesc) : Bool :=
  l.all (fun d => d.ndim == 3) || (l.all (fun d => d.ndim == 4) && (l.map fun d => d.ext 3).eraseDups.length ≤ 1)

/-- The shapes of ATTN (R245, R251, R252, R254): a KV view has no batch dimension, which only a batched ATTN has on its other operands
(R258, R276). -/
def Verify.badAttnShape (v : Verify) (i : Visit) : Bool :=
  let w := v.widths i
  let q := v.d i.a
  let k := v.d i.b
  let o := v.d i.dst
  let heads := bits i.imm 50 45 + 1
  let kvh := bits i.imm 44 39 + 1
  let outT := i.imm.testBit 9
  let vals : List VDesc := if i.fbit 0 then [] else [v.d (i.b.next 1)]
  let stats : List VDesc := if i.fbit 6 then [v.d i.c] else []
  let kv := if i.imm.testBit 10 && i.imm.testBit 8 then [] else k :: vals
  !sameBatch (q :: o :: stats ++ kv) || ([q, k, o] ++ vals ++ stats).any (fun d => d.stride 0 != 1) ||
    q.ext 0 != w.1 || k.ext 0 != w.1 || vals.any (fun d => d.ext 0 != w.2 || d.ext 1 != kvh || d.ext 2 != k.ext 2) ||
    (i.fbit 0 && decide (w.1 < w.2)) || q.ext 1 != heads || k.ext 1 != kvh || o.ext 1 != heads ||
    o.ext (if outT then 2 else 0) != w.2 || o.ext (if outT then 0 else 2) != q.ext 2 ||
    stats.any (fun d => d.ext 0 != 3 || d.ext 1 != heads || d.ext 2 != q.ext 2) ||
    (outT && decide (128 < w.2 ∨ 128 < min ((bits i.imm 38 35 + 1) * 16) (q.ext 2)))

/-- ATTN breaks a rule of R254, R258 or those before it. -/
def Verify.badAttn (v : Verify) (i : Visit) : Bool :=
  let imm := i.imm
  let k := v.d i.b
  let wide := bits imm 53 51 == 5
  let batched := imm.testBit 8
  let feat (n : Nat) : Bool := v.s.chip.features.testBit n
  v.badTile i || v.badBuffers i || v.badSide i || v.badAttnShape i || (wide && !i.fbit 0) || (i.fbit 0 && !feat 11) ||
    (batched && (!feat 10 || !imm.testBit 10 || !imm.testBit 11 || (v.d i.a).ext 2 != 1)) ||
    (i.fbit 4 && (!i.fbit 3 || !imm.testBit 11)) || (i.fbit 7 && (!i.fbit 6 || (v.d i.dst).fmt != .fp32)) ||
    (i.fbit 5 && (!k.planar || !k.mx || k.fmt == .mxInt8)) ||
    (bits imm 50 45 + 1) % (bits imm 44 39 + 1) != 0

/-- The shapes and rules of ATTN_BWD (R265). -/
def Verify.badBwd (v : Verify) (i : Visit) : Bool :=
  let imm := i.imm
  let w := headWidths (bits imm 53 51) 0
  let heads := bits imm 50 45 + 1
  let kvh := bits imm 44 39 + 1
  let q := v.d i.a
  let k := v.d i.b
  let is (d : VDesc) (a b c : Nat) : Bool := d.ext 0 == a && d.ext 1 == b && d.ext 2 == c && d.stride 0 == 1
  let l : List (VDesc × Nat × Nat × Nat) :=
    [(q, w.1, heads, q.ext 2), (v.d (i.a.next 1), w.2, heads, q.ext 2), (k, w.1, kvh, k.ext 2),
      (v.d (i.b.next 1), w.2, kvh, k.ext 2), (v.d i.c, 2, heads, q.ext 2), (v.d i.dst, w.1, heads, q.ext 2),
      (v.d (i.dst.next 1), w.1, kvh, k.ext 2), (v.d (i.dst.next 2), w.2, kvh, k.ext 2)]
  !v.s.chip.features.testBit 0 || bits imm 53 51 == 5 || !sameBatch (l.map (·.1)) ||
    l.any (fun p => !is p.1 p.2.1 p.2.2.1 p.2.2.2) || heads % kvh != 0 || (i.fbit 4 && (!i.fbit 3 || !imm.testBit 11)) ||
    v.badSide i || v.badBuffers i

/-- EXPAND (R259). -/
def Verify.badExpand (v : Verify) (i : Visit) : Bool :=
  let imm := i.imm
  let rank := (bits imm 55 51 + 1) * 32
  let heads := bits imm 50 45 + 1
  let out := (bits imm 44 41 + 1) * 32
  let rope := bits imm 40 37 * 16
  let chunk := bits imm 36 31 + 1
  let x := v.d i.a
  let w := v.d i.b
  let o := v.d i.dst
  decide (262144 < w.bytes (chunk * out * rank) ∨ heads < chunk ∨ x.ext 0 < rank + rope ∨ 2 < x.ndim ∨ 3 < w.ndim ∨ 3 < o.ndim) || w.ext 0 != rank || w.ext 1 != out ||
    w.ext 2 != heads || o.ext 0 != out + rope || o.ext 1 != heads || o.ext 2 != x.ext 1 ||
    (x.mx && x.stride 0 != 1) || (w.mx && w.stride 0 != 1)

/-- Item ATTENTION of R464; `outside` says that a region of the program reaches into the staging area. -/
def Verify.badAttention (v : Verify) (i : Visit) (outside : Bool) : Bool :=
  (match i.op with
    | 0x90 => v.badAttn i
    | 0x92 => v.badExpand i
    | 0x93 => v.badBwd i
    | _ => false) || (v.stages i && outside)

/-! ### KV views and the reel (R276, R311) -/

/-- The dimensions of a KV view, as far as no binding hides them (R276). -/
def VDesc.viewDims (d : VDesc) : Bool :=
  d.ndim == 3 && d.stride 0 == 1 && (d.bindAt 0 || d.stride 1 == (d.ext 0 : Int)) &&
    (d.bindAt 0 || d.bindAt 1 || d.stride 2 == (d.ext 0 * d.ext 1 : Int))

/-- A KV view breaks a condition that shows (R276). -/
def Verify.badView (v : Verify) (i : Visit) : Bool :=
  v.anyDesc i.kvViews fun d => !d.virt || d.base != 0 || d.sbase != 0 || !d.viewDims

/-- The windows of the landing slots of a descriptor (R311). -/
def VDesc.slots (d : VDesc) (n stride : Nat) : List (Int × Int) :=
  (List.range n).flatMap fun (j : Nat) => d.windows.map fun w => (w.1 + (j * stride : Nat), w.2 + (j * stride : Nat))

/-- Landing slots overlap: those of one descriptor, or of two in one memory whose bases nothing binds (R311). -/
def slotsMeet (n stride : Nat) : List VDesc → Bool
  | [] => false
  | d :: ds =>
    anyPair meets (d.slots n stride) ||
      ds.any (fun e => !d.bindBase && !e.bindBase && d.sameMemory e &&
        (d.slots n stride).any fun x => (e.slots n stride).any (meets x)) || slotsMeet n stride ds

/-- ROLL: blocks and landings are views of one shape, the globals table, and slots that do not overlap where the image gives
SLOT_STRIDE (R309, R311; log 34). -/
def Verify.badReel (v : Verify) (i : Visit) : Bool :=
  let a := v.d i.a
  let land : List VDesc := v.d i.dst :: (if i.b = .none then [] else [v.d (i.dst.next 1)])
  let own : List VDesc := a :: (if i.b = .none then [] else [v.d i.b])
  let n := bits i.imm 47 45 + 1
  let g := v.d i.c
  let overlap : Bool :=
    match v.brackets.find? (fun b => b.1 == bits i.imm 55 50 + 4) with
    | some b => slotsMeet n (b.2 % 2 ^ 40) land
    | none => false
  i.op == 0xA0 &&
    ((own ++ land).any (fun d => !d.viewDims || d.fmt != a.fmt || d.planar != a.planar ||
        [0, 1].any fun k => !d.bindAt k && !a.bindAt k && d.ext k != a.ext k) ||
      (i.fbit 4 && (!i.fbit 3 || g.fmt != .int32 || g.planar || !g.store)) || overlap)

/-! ### One instruction (R463, R464) -/

/-- The first rule that an instruction breaks, in the order of the reject codes. -/
def Verify.instrCode (v : Verify) (outside : Bool) (i : Visit) : Option Nat :=
  let n := v.shared i
  let np := n.map fun n => if isReduce i.op then redPositions i.op i.fields n else n
  if !opcodeOk i.op then some 0x0B
  else firstCode [
    (0x09, v.writesIndex i),
    (0x0A, i.handles.any fun h => (v.desc h).isNone),
    (0x0B, i.badFunc (v.d i.dst).fmt),
    (0x0C, i.badImm (if i.a.isTile then 1 else (v.d i.a).ndim)),
    (0x0D, v.badOperand i),
    (0x0E, v.badFormat i),
    (0x0F, i.masks.any fun o => v.badMask i np o),
    (0x10, v.badShape i),
    (0x11, v.badDest i),
    (0x14, v.badGroup i),
    (0x15, i.readsUndefined),
    (0x16, v.badTickwait i),
    (0x17, i.badWait),
    (0x18, v.badCall i),
    (0x19, v.badRoutine i),
    (0x1A, v.badAttention i outside),
    (0x1B, i.op == 0x90 && i.imm.testBit 8 && v.k % 8 != 0),
    (0x1C, v.badView i),
    (0x1D, v.badReel i)]

end Sys2Proof.Machine
end

