-- ==== Sys2Proof/Machine/Streams.lean ====
section
/-! DEFINITION. Timed streams (R366 to R372, R390): beats sent, judged against their slots, landed, absorbed and dropped. -/

namespace Sys2Proof.Machine

/-- The timed schedule of a slice's active program (R366). -/
def Slice.schedule (x : Slice) : List TimedStream := (x.prog.map (·.streams)).getD []

/-- The beats of a stream handled in the frame: sent, or arrived without a gap. -/
def Slice.beatsDone (x : Slice) (id : Nat) : Nat := ((x.timed.done.find? (·.1 == id)).map (·.2)).getD 0

/-- Set the beats handled of a stream. -/
def Slice.setBeats (x : Slice) (id n : Nat) : Slice :=
  { x with timed := { x.timed with done := (id, n) :: x.timed.done.filter (·.1 != id) } }

/-- Where beat `b` of a stream lies in the slice store (R367). -/
def TimedStream.addr (t : TimedStream) (b : Nat) : Nat := t.window + 256 * b % max 1 t.winBytes

/-- A slice sends its timed beats: it runs a frame that has not aborted (R366, R372). -/
def Slice.sendsBeats (x : Slice) : Bool := x.state == .running && !x.seq.halted && !x.overexp

/-- Beat `b` of a stream leaves a slice: to the SPORT's pins, or towards its peer slice (R366, R390). -/
def State.sendBeat (s : State) (k : Nat) (t : TimedStream) (b : Nat) : State :=
  let data := (s.sl k).store.readN (t.addr b) 256
  let s := s.mod k fun x => x.setBeats t.id (b + 1)
  if t.peerSlice then
    s.mod t.peer fun x => { x with timed := { x.timed with fly := x.timed.fly ++ [⟨t.id, b, k, data⟩] } }
  else if t.peer < s.chip.model.sports then
    s.modSport t.peer fun p => { p with last := some ⟨0, b % 4, BitVec.ofNat 64 t.id, data⟩ }
  else s

/-! ### Judging (R369) -/

/-- The slot of a core cycle: an integer, below 0 before the first (R369). -/
def TimedStream.slotAt (t : TimedStream) (cycle : Nat) : Int := ((cycle : Int) - t.start) / max 1 t.interval

/-- The case of a beat that arrives with a phase in a core cycle, and the beat that it is (R369). -/
def TimedStream.judge (t : TimedStream) (phase cycle : Nat) : Nat × Int :=
  let x := t.slotAt cycle
  if cycle + t.interval < t.start ∨ t.start + t.count * t.interval < cycle then (0x7F, x)
  else
    let d := ((phase : Int) - x) % 4
    let r : Nat × Int := if d = 0 then (0, x) else if d = 1 then (1, x + 1) else if d = 3 then (0xFF, x - 1) else (2, x)
    if r.1 ≠ 2 ∧ (r.2 < 0 ∨ (t.count : Int) ≤ r.2) then (0x7F, x) else r

/-- The bytes of a SLIP entry (R380). -/
def slipData (id amount : Nat) (tolerant : Bool) (beat frame peer : Nat) : List Byte :=
  leBytes 2 id ++ leBytes 1 amount ++ leBytes 1 (if tolerant then 1 else 0) ++ leBytes 4 beat ++ leBytes 4 frame ++ leBytes 2 peer

/-- PEER of a SLIP entry (R380). -/
def TimedStream.peerCode (t : TimedStream) : Nat := t.peer + (if t.peerSlice then 256 else 0)

/-- A stream of a slice slips: the entry, the counts, and the fault of the slice (R370, R372). `beats` were dropped. -/
def State.slipFault (s : State) (k : Nat) (t : TimedStream) (amount : Nat) (slot : Int) (beats : Nat) : State :=
  let f := (s.sl k).seq.frame.toNat % 2 ^ 32
  let s := s.log k 5 0x0502 true (slipData t.id amount t.tolerant (slot % 2 ^ 32).toNat f t.peerCode)
  let s := { s with tick := { s.tick with slips := sat16 s.tick.slips 1 } }.irqSet 4
  (s.mod k fun x => { x with timed := { x.timed with
      skid := x.timed.skid.filter (·.stream != t.id), slipFault := true,
      dropped := sat16 x.timed.dropped (beats + (x.timed.skid.filter (·.stream == t.id)).length) } }).faultSlice k 0x0502 5

/-- The beats of a stream that have arrived without a gap, after beat `j` arrived. -/
def Slice.arrived (x : Slice) (id j : Nat) : Slice :=
  let n := x.beatsDone id
  let skid (i : Nat) : Bool := x.timed.skid.any fun b => b.stream == id && b.index == i
  if j ≠ n then x else x.setBeats id (if skid (n + 1) then n + 2 else n + 1)

/-- A beat's payload lands in its window (R366). -/
def Slice.landBeat (x : Slice) (t : TimedStream) (b : Nat) (data : List Byte) : Slice :=
  { x with store := x.store.writeN (t.addr b) ((data ++ List.replicate 256 0).take 256) }

/-- A core cycle, counted from the latest tick edge, is stamped at or after the next edge (R372). -/
def State.pastEdge (s : State) (cycle : Nat) : Bool :=
  decide (s.nextEdge ≤ s.tick.last.toNat + ceilDiv (cycle * 1000) (opMhz s.power.op))

/-- The class latency from a stream's receiving port to the slice store (R367, R390). -/
def TimedStream.landing (t : TimedStream) (k : Nat) : Nat :=
  if t.peerSlice then 0 else classLatency (portPath k (t.peer / 4)).1

/-- Count and enter an absorbed slip (R371). -/
def State.tolerate (s : State) (k : Nat) (t : TimedStream) (amount : Nat) (slot : Int) : State :=
  let x := s.sl k
  let s := if x.timed.noted.contains t.id then s else
    s.log k 5 1 false (slipData t.id amount t.tolerant (slot % 2 ^ 32).toNat (x.seq.frame.toNat % 2 ^ 32) t.peerCode)
  s.mod k fun x => { x with timed := { x.timed with
    tolerated := sat16 x.timed.tolerated 1,
    noted := if x.timed.noted.contains t.id then x.timed.noted else t.id :: x.timed.noted } }

/-- A beat arrives for a stream of a RUNNING slice (R369 to R372). -/
def State.receiveBeat (s : State) (k : Nat) (t : TimedStream) (phase cycle : Nat) (data : List Byte) : State :=
  let j := t.judge phase cycle
  let x := t.slotAt cycle
  let b := j.2.toNat
  if t.tolerant then
    let due := t.start + (b + 1) * t.interval
    if j.1 = 2 ∨ j.1 = 0x7F ∨ s.pastEdge (due + t.landing k) then s.slipFault k t j.1 x 1
    else
      let s := if j.1 = 0 then s else s.tolerate k t j.1 x
      s.mod k fun y =>
        ({ y with timed := { y.timed with skid := y.timed.skid ++ [(⟨t.id, b, due, data⟩ : SkidBeat)] } }).arrived t.id b
  else if j.1 ≠ 0 ∨ s.pastEdge (cycle + t.landing k) then s.slipFault k t j.1 x 1
  else s.mod k fun y => (y.arrived t.id b).landBeat t b data

/-- Count a beat dropped for a slice that does not run (R372). -/
def State.dropBeat (s : State) (k : Nat) : State :=
  s.mod k fun x => { x with timed := { x.timed with dropped := sat16 x.timed.dropped 1 } }

/-- The inbound stream of a slice with an ID, by its peer kind. -/
def Slice.inbound (x : Slice) (id : Nat) (peerSlice : Bool) : Option TimedStream :=
  x.schedule.find? fun t => t.inbound && t.id == id && t.peerSlice == peerSlice

/-- A beat arrives for slice `k` on one of its streams: judged while the slice runs, dropped otherwise. -/
def State.beatFor (s : State) (k : Nat) (t : TimedStream) (phase cycle : Nat) (data : List Byte) : State :=
  if (s.sl k).state = .running then s.receiveBeat k t phase cycle data else s.dropBeat k

/-- A beat arrives at a SPORT. One that no slice's stream names is dropped, with the SPORT's entry (R390, log 27). -/
def State.sportBeat (s : State) (p id phase cycle : Nat) (data : List Byte) : State :=
  match s.present.find? fun k => ((s.sl k).inbound id false).any fun t => t.peer == p with
  | some k =>
    match (s.sl k).inbound id false with
    | some t => s.beatFor k t phase cycle data
    | none => s
  | none =>
    match s.present.find? fun k => (s.sl k).state == .running && ((s.sl k).inbound id false).isSome with
    | some k =>
      match (s.sl k).inbound id false with
      | some t => s.slipFault k t 0x7F (t.slotAt cycle) 1
      | none => s
    | none => s.log (0x0300 + p) 5 0x0502 true (slipData id 0x7F false 0 0 p)

/-- A beat on its way from another slice arrives at its slice; in a slice that runs, one of a stream that is not armed there is
UNEXPECTED (R369). -/
def State.sliceBeat (s : State) (k id cycle : Nat) : State :=
  match (s.sl k).timed.fly.find? (·.stream == id) with
  | none => s
  | some b =>
    let s := s.mod k fun x => { x with timed := { x.timed with fly := x.timed.fly.erase b } }
    match (s.sl k).inbound id true with
    | some t => s.beatFor k t (b.index % 4) cycle b.data
    | none =>
      if (s.sl k).state = .running then s.slipFault k ⟨id, true, true, b.src, false, 0, 0, 1, 0, 256⟩ 0x7F 0 1
      else s.dropBeat k

/-! ### The commands -/

/-- TIMED_BEAT_SEND: the next beat of an outbound stream leaves its slice (R366). -/
def execTimedBeatSend (k : SliceId) (stream : W12) (s : State) : Host.Outcome State Fault Refusal :=
  act s (match (s.sl k.val).schedule.find? fun t => !t.inbound && t.id == stream.toNat with
    | none => s
    | some t =>
      let b := (s.sl k.val).beatsDone t.id
      if (s.sl k.val).sendsBeats ∧ !s.clockStopped k.val ∧ b < t.count then s.sendBeat k.val t b else s)

/-- TIMED_BEAT_ARRIVE: a beat is checked at its receiving port (R369, R390). -/
def execTimedBeatArrive (b : TimedBeat) (s : State) : Host.Outcome State Fault Refusal :=
  act s (if b.sport then
      (if b.port.val < s.chip.model.sports then s.sportBeat b.port.val b.stream.toNat b.phase.toNat b.cycle.toNat b.data else s)
    else s.sliceBeat b.port.val b.stream.toNat b.cycle.toNat)

/-- BEAT_LOST: the beat of the slot before `slot` has not arrived by the end of `slot` (R369). -/
def execBeatLost (k : SliceId) (stream : W12) (slot : W32) (s : State) : Host.Outcome State Fault Refusal :=
  act s (match (s.sl k.val).schedule.find? fun t => t.inbound && t.id == stream.toNat with
    | none => s
    | some t =>
      let n := (s.sl k.val).beatsDone t.id
      if (s.sl k.val).state = .running ∧ n < t.count ∧ slot.toNat = n + 1 then s.slipFault k.val t 0x7E slot.toNat 0 else s)

/-- The beat of a stream in the skid whose slot of release comes first (R371). -/
def Slice.nextRelease (x : Slice) (id : Nat) : Option SkidBeat :=
  match x.timed.skid.filter (·.stream == id) with
  | [] => none
  | b :: bs => some (bs.foldl (fun a c => if c.due < a.due then c else a) b)

/-- SKID_RELEASE: the beat of a tolerant stream whose slot comes first leaves the skid and lands (R371). -/
def execSkidRelease (k : SliceId) (stream : W12) (s : State) : Host.Outcome State Fault Refusal :=
  act s (match (s.sl k.val).nextRelease stream.toNat, (s.sl k.val).inbound stream.toNat false,
      (s.sl k.val).inbound stream.toNat true with
    | some b, some t, _ | some b, none, some t =>
      s.mod k.val fun x => ({ x with timed := { x.timed with skid := x.timed.skid.erase b } }).landBeat t b.index b.data
    | _, _, _ => s)

end Sys2Proof.Machine
end

