-- ==== Sys2Proof/Machine/Onori.lean ====
section
/-! DEFINITION. Onori's verdict on an image (R462, R463): the way through a program and its routines, the schedule (R367, R368), the
rules over the whole program (R30, R127, R140, R142, R368), and what a pass loads. -/

namespace Sys2Proof.Machine

/-! ### The way through the program (R109, R140, R161) -/

/-- The strips that an open group can have at most. -/
def Verify.strips (v : Verify) (i : Visit) : Nat :=
  match i.track.group with
  | some g => ceilDiv (v.d (.desc g.shape)).count 4096
  | none => 1

/-- What Onori follows past an instruction that is not a CALL; `strips` is the most that an open group has. -/
def Visit.step (strips : Nat) (i : Visit) : Track :=
  let w := i.tileEffect strips
  let tiles := w ++ i.track.tiles.filter fun t => !w.any fun x => x.1 == t.1
  match i.op with
  | 0x03 => { i.track with group := some ⟨i.place.hbase + bits i.word 119 109, i.word.testBit 108, [], []⟩ }
  | 0x04 => { i.track with group := none }
  | _ =>
    { tiles := tiles
      group := i.track.group.map fun g => { g with units := g.units ++ [unitOf i.op], wrote := g.wrote ++ w.map (·.1) } }

/-- What Onori follows past an instruction of a program. -/
def Verify.step (v : Verify) (i : Visit) : Track := i.step (v.strips i)

/-- What two paths agree on: the formats that tile registers have on both. -/
def agree (a b : List (Nat × Fmt)) : List (Nat × Fmt) := a.filter b.contains

/-- The instructions of a list of words in order, those of the routines called among them, and what holds at the end; `step` goes past
an instruction and `call` enters a routine. -/
def walk (step : Visit → Track) (call : Nat → Track → List Visit × Track) (p : Place) (t : Track) : List Nat → List Visit × Track
  | [] => ([], t)
  | w :: ws =>
    let i : Visit := ⟨p, w, t⟩
    if i.op = 0x02 then (i :: (walk step call { p with index := p.index + 1 } t ws).1, t)
    else
      let c := if i.op = 0x01 then call w t else ([], step i)
      let r := walk step call { p with index := p.index + 1 } c.2 ws
      (i :: c.1 ++ r.1, r.2)

/-- A called routine, to a depth; a predicated CALL leaves what holds whether it is taken or not. -/
def Verify.enter (v : Verify) : Nat → Nat → Track → List Visit × Track
  | 0, _, t => ([], t)
  | n + 1, w, t =>
    match v.routine (bits w 119 108) with
    | none => ([], t)
    | some ws =>
      let r := walk v.step (v.enter n) ⟨some (bits w 119 108), 0, bits w 107 97, bits w 96 92⟩ { t with group := none } ws
      (r.1, { tiles := if w.testBit 91 then agree t.tiles r.2.tiles else r.2.tiles, group := none })

/-- Every instruction of the program and of its routines as called, to the depth of the call stack (R140). -/
def Verify.visits (v : Verify) : List Visit := (walk v.step (v.enter 4) ⟨none, 0, 0, 0⟩ ⟨[], none⟩ v.code).1

/-! ### What the program uses -/

/-- The handles that instructions name, with the index tensors of those (R126). -/
def Verify.used (v : Verify) (is : List Visit) : List Nat :=
  let hs := (is.flatMap Visit.handles).eraseDups
  (hs ++ hs.filterMap fun h => (v.desc h).bind fun d => if d.idx then some d.idxHandle else none).eraseDups

/-- The slice-store regions of the program besides its descriptors: library cache, and completion ring (R110). -/
def Verify.libWindow (v : Verify) : Int × Int := (v.lib.1, v.lib.1 + v.lib.2)

/-- The attention staging area (R234). -/
def staging : Int × Int := (23068672, 25165824)

/-- A descriptor or the library cache of the program reaches into the staging area (R234). -/
def Verify.outside (v : Verify) (hs : List Nat) : Bool :=
  meets v.libWindow staging ||
    hs.any fun h => match v.desc h with | some d => d.store && d.windows.any (meets staging) | none => false

/-! ### Items 3 and 4 -/

/-- Item 3: the instructions of the bank. -/
def Verify.instrs (v : Verify) (out : Bool) (is : List Visit) : Option Reject :=
  (is.filter fun i => i.place.routine.isNone).findSome? fun i =>
    (v.instrCode out i).map fun c => ⟨c, 1, i.place.index, 0xFFFF⟩

/-- The earlier of two failures in a routine: the lower offset, then the lower code. -/
def Reject.first (a : Reject) (b : Reject) : Reject :=
  if b.index < a.index ∨ (b.index = a.index ∧ b.code < a.code) then b else a

/-- The first failure of a routine over the ways it is called (R463, item 4); one that the library does not hold fails at once
(R142). -/
def Verify.routineFails (v : Verify) (out : Bool) (is : List Visit) (id : Nat) : Option Reject :=
  if (v.routine id).isNone then some ⟨0x19, 4, 0, id⟩
  else
    match (is.filter fun i => i.place.routine == some id).filterMap fun i =>
      (v.instrCode out i).map fun c => (⟨c, 4, i.place.index, id⟩ : Reject) with
    | [] => none
    | r :: rs => some (rs.foldl Reject.first r)

/-- Item 4: the listed routines as called, in routine-list order. -/
def Verify.calls (v : Verify) (out : Bool) (is : List Visit) : Option Reject := v.routines.findSome? (v.routineFails out is)

/-! ### The timed schedule (R366 to R371) -/

/-- Offset of entry `i` of the schedule in the image. -/
def Verify.entryAt (v : Verify) (i : Nat) : Nat := v.h 56 4 + 16 + 32 * i

/-- ENTRIES. -/
def Verify.entries (v : Verify) : Nat := if v.h 60 4 = 0 then 0 else v.h (v.h 56 4) 2

/-- Entry `i` as a stream. -/
def Verify.stream (v : Verify) (i : Nat) : TimedStream :=
  let f (o n : Nat) : Nat := v.h (v.entryAt i + o) n
  ⟨f 0 2, f 2 1 == 1, f 3 1 == 1, f 4 1, f 5 1 == 1, f 8 4, f 12 4, f 16 2, f 20 4, f 24 4⟩

/-- The streams of the image. -/
def Verify.streams (v : Verify) : List TimedStream := (List.range v.entries).map v.stream

/-- Latency of a stream's path at a slice, in core cycles (R30, R32). -/
def TimedStream.latency (t : TimedStream) (k : Nat) : Nat :=
  classLatency ((if t.peerSlice then slicePath k t.peer else portPath k (t.peer / 4)).1)

/-- The core cycle of beat 0 at the slice store: an inbound beat lands one class latency after its SPORT, and one interval later in
TOLERANT mode (R366, R367, R371). -/
def TimedStream.access (t : TimedStream) (k : Nat) : Nat :=
  t.start + (if t.inbound && !t.peerSlice then t.latency k else 0) + (if t.inbound && t.tolerant then t.interval else 0)

/-- Some beats of two streams, first due at `x` and `y`, fall in one core cycle and are related. -/
def beatsMeet (t u : TimedStream) (x y : Nat) (p : Nat → Nat → Bool) : Bool :=
  (List.range t.count).any fun b =>
    let c := x + b * t.interval
    decide (y ≤ c) && (c - y) % max 1 u.interval == 0 && decide ((c - y) / max 1 u.interval < u.count) &&
      p b ((c - y) / max 1 u.interval)

/-- Two beats of the slice need one bank of the slice store in one core cycle: a beat takes two banks of 128 bytes (R19, R368). -/
def bankClash (k : Nat) (t u : TimedStream) : Bool :=
  beatsMeet t u (t.access k) (u.access k) fun a b => t.addr a / 256 % 16 == u.addr b / 256 % 16

/-- Fields of an entry are broken (R367). -/
def Verify.badEntry (v : Verify) (i : Nat) : Bool :=
  let f (o n : Nat) : Nat := v.h (v.entryAt i + o) n
  let t := v.stream i
  decide (4096 ≤ f 0 2 ∨ 2 ≤ f 2 1 ∨ 2 ≤ f 3 1 ∨ 2 ≤ f 5 1) || (f 2 1 == 0 && f 5 1 != 0) || f 6 2 != 0 || f 18 2 != 0 ||
    f 28 4 != 0 || decide (t.count < 1 ∨ 16777216 < t.count ∨ t.interval < 1 ∨ 4096 < t.interval) || t.window % 256 != 0 ||
    t.winBytes % 256 != 0 || t.winBytes == 0 || decide (25165824 < t.window + t.winBytes) || (t.peerSlice && t.peer == v.k) ||
    (t.tolerant && !v.s.chip.features.testBit 12)

/-- The window of a stream overlaps the staging area or the library cache (R368). -/
def Verify.badWindow (v : Verify) (t : TimedStream) : Bool :=
  let w : Int × Int := (t.window, t.window + t.winBytes)
  meets w staging || meets w v.libWindow

/-- A beat lands at or after the shortest tick (R368). -/
def Verify.lateBeat (v : Verify) (t : TimedStream) : Bool :=
  t.inbound && decide (v.h 28 4 * v.h 26 2 ≤ (t.access v.k + (t.count - 1) * t.interval) * 1000)

/-- A stream of another slice with the same ID is the counterpart of one of this slice (R367, R368). -/
def counterpart (k j : Nat) (t u : TimedStream) : Bool :=
  t.peerSlice && u.peerSlice && t.peer == j && u.peer == k && t.inbound != u.inbound

/-- The two ends of a stream between slices fit together (R368). -/
def endsFit (k j : Nat) (t u : TimedStream) : Bool :=
  let lat := classLatency (slicePath (if t.inbound then j else k) (if t.inbound then k else j)).1
  t.count == u.count && t.interval == u.interval &&
    (if t.inbound then t.start == u.start + lat else u.start == t.start + lat)

/-- A stream's ID is taken, or its other end is armed with other timing (R367, R368). -/
def Verify.badPair (v : Verify) (i : Nat) (t : TimedStream) : Bool :=
  ((v.streams.take i).any fun u => u.id == t.id) ||
    v.others.any fun p => p.2.streams.any fun u => u.id == t.id && !(counterpart v.k p.1 t u && endsFit v.k p.1 t u)

/-- The peer of an entry is absent or unavailable (R38, R44). -/
def Verify.noPeer (v : Verify) (t : TimedStream) : Bool :=
  if t.peerSlice then !v.s.isAvail t.peer || decide (v.s.chip.model.slices ≤ t.peer) else decide (v.s.chip.model.sports ≤ t.peer)

/-- The rules at one entry. -/
def Verify.entryCode (v : Verify) (i : Nat) : Option Nat :=
  let t := v.stream i
  firstCode [
    (0x04, v.noPeer t),
    (0x1E, v.badEntry i || v.badWindow t || v.lateBeat t || v.badPair i t || (v.streams.take i).any (bankClash v.k t))]

/-- Item 5: the schedule's header and entries. -/
def Verify.schedule (v : Verify) : Option Reject :=
  if v.h 60 4 = 0 then none
  else if v.entries < 1 ∨ 64 < v.entries ∨ v.h 60 4 ≠ 16 + 32 * v.entries ∨ v.h (v.h 56 4 + 2) 14 ≠ 0 then
    some ⟨0x1E, 3, 0, 0xFFFF⟩
  else (List.range v.entries).findSome? fun i => (v.entryCode i).map fun c => ⟨c, 3, i, 0xFFFF⟩

/-! ### The whole program (R463, item 6) -/

/-- Two handles may not overlap undeclared: both have static bases and extents, one is written, no alias group holds both (R127).
KV views are not windows (R276). -/
def Verify.aliasAt (v : Verify) (is : List Visit) : Option Nat :=
  let views := is.flatMap fun i => i.kvViews.flatMap VOp.handles
  let wr := is.flatMap Visit.writes
  let hs := ((v.used is).filter fun h => !views.contains h).filterMap fun h =>
    (v.desc h).bind fun d => if d.bindBase || d.bindExt then none else some d
  let declared (a b : Nat) : Bool := v.aliases.any fun x => x.1 == a && v.aliases.contains (b, x.2)
  (hs.flatMap fun d => hs.filterMap fun e =>
    if e.handle < d.handle ∧ (wr.contains d.handle ∨ wr.contains e.handle) ∧ !declared d.handle e.handle ∧ d.meets e
    then some d.handle else none).min?

/-- The routines that words call. -/
def calleesOf (ws : List Nat) : List Nat := (ws.filter fun w => bits w 127 120 == 0x01).map fun w => bits w 119 108

/-- A chain of calls longer than `n` starts at some of the routines. -/
def Verify.deeper (v : Verify) : Nat → List Nat → Bool
  | 0, ids => !ids.isEmpty
  | n + 1, ids => ids.any fun id => v.deeper n (calleesOf ((v.routine id).getD []))

/-- The first CALL of the bank from which calls can nest deeper than 4; a routine that can call itself is one (R140). -/
def Verify.tooDeep (v : Verify) : Option Nat :=
  (v.code.zipIdx.find? fun w => bits w.1 127 120 == 0x01 && v.deeper 4 [bits w.1 119 108]).map (·.2)

/-- The listed routines do not fit in the library cache, or the cache overlaps a region that the program uses (R142). -/
def Verify.badCache (v : Verify) (is : List Visit) : Bool :=
  let need := (v.routines.eraseDups.map fun id => 16 * ((v.routine id).getD []).length).foldl (· + ·) 0
  let ring : Int × Int := (v.h 72 8, v.h 72 8 + 128 * v.h 80 2)
  decide (v.lib.2 < need) || (v.h 82 1 == 0 && meets v.libWindow ring) ||
    (v.used is).any fun h => match v.desc h with
      | some d => d.store && d.windows.any (meets v.libWindow)
      | none => false

/-- The outputs of the crossbar: a SPORT, or a slice. -/
def TimedStream.output (t : TimedStream) (k : Nat) : Bool × Nat :=
  if t.inbound then (true, k) else (t.peerSlice, t.peer)

/-- The core cycle of beat 0 on its crossbar output: one class latency after it leaves a slice or a SPORT (R30). -/
def TimedStream.onOutput (t : TimedStream) (k : Nat) : Nat :=
  if t.inbound && t.peerSlice then t.start else t.start + t.latency k

/-- Two streams put beats on one crossbar output in one core cycle; the two ends of one stream are one stream (R30). -/
def outputClash (k j : Nat) (t u : TimedStream) : Bool :=
  t.output k == u.output j && !(t.id == u.id && counterpart k j t u) &&
    beatsMeet t u (t.onOutput k) (u.onOutput j) fun _ _ => true

/-- The first entry whose beats meet others on a crossbar output (R30). -/
def Verify.crossbar (v : Verify) : Option Nat :=
  (List.range v.entries).find? fun i =>
    (v.streams.take i).any (outputClash v.k v.k (v.stream i)) ||
      v.others.any fun p => p.2.streams.any (outputClash v.k p.1 (v.stream i))

/-- The slices that a slice sends to, by the streams of a list of programs. -/
def nextSlices (ps : List (Nat × List TimedStream)) (k : Nat) : List Nat :=
  ps.flatMap fun p =>
    p.2.filterMap fun t =>
      if !t.peerSlice then none
      else if t.inbound then (if t.peer = k then some p.1 else none)
      else if p.1 = k then some t.peer else none

/-- What is reached from slices in at most n steps. -/
def reached (ps : List (Nat × List TimedStream)) : Nat → List Nat → List Nat
  | 0, l => l
  | n + 1, l => reached ps n (l ++ l.flatMap (nextSlices ps)).eraseDups

/-- Streams between slices form a cycle through the slice (R368). -/
def Verify.cycle (v : Verify) : Bool :=
  let ps := (v.k, v.streams) :: v.others.map fun p => (p.1, p.2.streams)
  (reached ps 32 (nextSlices ps v.k)).contains v.k

/-- The program fits its MIN_TICK_NS at its VERIFY_MHZ: the cycles of its longest frame, with 112 for the array clock ramp of its first
attention instruction (R36, R521; log 3). -/
def Verify.tickFits (v : Verify) (is : List Visit) : Bool :=
  let ramp := if is.any fun i => i.op / 16 == 9 then 112 else 0
  decide ((Config.frameCycles v.img + ramp) * 1000 ≤ v.h 28 4 * v.h 26 2)

/-- Item 6, in the order of the reject codes. -/
def Verify.whole (v : Verify) (is : List Visit) : Option Reject :=
  [(v.aliasAt is).map fun h => (⟨0x12, 2, h, 0xFFFF⟩ : Reject),
    v.tooDeep.map fun i => ⟨0x18, 1, i, 0xFFFF⟩,
    if v.badCache is then some ⟨0x19, 0, 0, 0xFFFF⟩ else none,
    v.crossbar.map fun i => ⟨0x1F, 3, i, 0xFFFF⟩,
    if v.cycle then some ⟨0x20, 0, 0, 0xFFFF⟩ else none,
    if v.tickFits is then none else some ⟨0x21, 0, 0, 0xFFFF⟩].findSome? id

/-! ### The verdict and what it loads -/

/-- What the slice keeps of an image (R110). -/
def Verify.program (v : Verify) (is : List Visit) : Program :=
  { length := v.length
    handles := v.used is
    alias_ := v.aliases
    brackets := v.brackets.map fun b => (b.1, BitVec.ofNat 64 b.2)
    routines := v.routines
    streams := v.streams
    minTick := v.h 28 4
    mhz := v.h 26 2
    libBase := v.lib.1
    libBytes := v.lib.2
    cring := ⟨v.h 72 8, v.h 80 2, v.h 82 1 == 1, v.h 84 2 % 4096, 0, 0, 0⟩
    formats := v.h 24 2
    features := v.h 16 8
    batched := is.any fun i => i.op == 0x90 && i.imm.testBit 8
    image := v.img }

/-- Onori's verdict: the first failure in the order of R463, or a pass with the program. -/
def Verify.verdict (v : Verify) : Except Reject Program :=
  match v.header with
  | some r => .error r
  | none =>
    let is := v.visits
    let out := v.outside (v.used is ++ v.listed.map (·.handle))
    match [v.descs (v.used is), v.instrs out is, v.calls out is, v.schedule, v.whole is].findSome? id with
    | some r => .error r
    | none => .ok (v.program is)

end Sys2Proof.Machine
end

