-- ==== Sys2Proof/Machine/MailProg.lean ====
section
/-! DEFINITION. Commands on programs: VERIFY and LOAD_PROGRAM (R441, R442), ARM and its bank switch (R443, R475, R476). -/

namespace Sys2Proof.Machine

/-! ### Programs of a slice -/

/-- The armed program (R470). -/
def Slice.armedProg (x : Slice) : Option Program := if x.armed then x.prog else none

/-- The timed streams of the armed program. -/
def Slice.armedStreams (x : Slice) : List TimedStream := (x.armedProg.map (·.streams)).getD []

/-- How a command ends that Onori rejects (R441, R462). -/
def Reject.ends (r : Reject) : Ends := ⟨8, r.code, r.index, leBytes 1 r.kind ++ [0] ++ leBytes 2 r.routine⟩

/-- The first bit of a field beyond those defined: BAD_FIELD at its offset (R430). -/
def extraBits (m : Cmd) (off n used : Nat) : Bool × Ends := (decide (2 ^ used ≤ m.f off n), .bad off)

/-! ### LOAD_PROGRAM and VERIFY (R441, R442) -/

/-- The image of a request, in its buffer at offsets 24 and 32. -/
def State.imageOf (s : State) (m : Cmd) : List Byte := s.buffer (m.f 24 8) (m.f 32 4)

/-- The fields of LOAD_PROGRAM. -/
def State.loadFields (s : State) (m : Cmd) : Option Ends :=
  checks [(!s.present.contains (m.f 16 1), .bad 16), (bufBad m 24 (m.f 32 4), .bad 24), (decide (2 ^ 20 < m.f 32 4), .bad 32)]

/-- The states in which a slice accepts a load, and no switch pending (R38, R441). -/
def State.loadRefused (s : State) (k : Nat) : Option Ends :=
  let st := (s.sl k).state
  checks [(!s.isAvail k || !(st == .ready || st == .running || st == .service), s.refuseSlice k),
    ((s.sl k).switchReq, .no 12 k 0)]

/-- The listed descriptors that the active program shares unchanged, and those that a load writes (R111). -/
def Verify.split (v : Verify) : List VDesc × List VDesc :=
  v.listed.partition fun d => ((v.active.map (·.handles)).getD []).contains d.handle

/-- The results of LOAD_PROGRAM. -/
def Verify.results (v : Verify) : List Byte := leBytes 4 (v.h 92 4) ++ leBytes 2 v.split.2.length ++ leBytes 2 v.split.1.length

/-- A privileged slice is out of service (R25, R258). -/
def State.offService (s : State) (k : Nat) : Bool := [SliceState.off, .cold, .faulted, .service].contains (s.sl k).state

/-- A pass writes the loadable bank and the descriptors; the frames written are whole (R108, R111, R480, R499). -/
def State.loadBank (s : State) (k : Nat) (v : Verify) (p : Program) : State :=
  let x := s.sl k
  let at_ := if x.bank then 0 else 262144
  let code := (v.img.drop (v.h 8 4)).take (16 * v.length)
  let s := s.mod k fun x => { x with
    imem := x.imem.writeN at_ code
    desc := v.split.2.foldl (fun m d => m.writeN (128 * d.handle) (v.placed d)) x.desc
    prog0 := if x.bank then some p else x.prog0
    prog1 := if x.bank then x.prog1 else some p
    loaded := true }
  let s := s.cleanFrames k (if x.bank then 0 else 1024) (ceilDiv v.length 16)
  v.split.2.foldl (fun s d => s.cleanFrames k (2048 + d.handle / 2) 1) s

/-- LOAD_PROGRAM after its field checks (R441). -/
def State.loadProgram (s : State) (m : Cmd) : Ends × State :=
  let k := m.f 16 1
  match s.loadRefused k with
  | some e => (e, s)
  | none =>
    let v : Verify := ⟨s, k, k, s.imageOf m, false⟩
    match v.verdict with
    | .error r => (r.ends, s)
    | .ok p => if p.batched && s.offService k then (s.refuseSlice k, s) else (⟨0, 0, 0, v.results⟩, s.loadBank k v p)

/-- What LOAD_PROGRAM needs. -/
def State.loadNeed (s : State) : CmdNeed :=
  { defs := [(16, 1), (24, 8), (32, 4)], pre := s.loadFields, objs := fun m => [.slice (m.f 16 1)] }

/-- LOAD_PROGRAM (R441). -/
def execLoadProgram (ch : Channel) (s : State) : Host.Outcome State Fault Refusal :=
  act s (s.command ch 0x04 s.loadNeed s.loadProgram)

/-- The verification context as exported: its layout, and so its size, are not given (R442, R462; log 3). -/
def State.exportContext (s : State) (m : Cmd) (res : List Byte) : Ends × State :=
  let need := s.draw.1 % 2 ^ 32
  if m.f 48 4 < need then (.no 7 0 need, s)
  else
    let d := s.draw.2.freeBytes need
    (⟨0, 0, 0, res ++ leBytes 4 need⟩, d.2.putBuffer (m.f 40 8) d.1)

/-- VERIFY after its field checks (R442). -/
def State.verifyProgram (s : State) (m : Cmd) : Ends × State :=
  let k := m.f 16 1
  let empty := (m.f 20 1).testBit 0
  if !empty && (s.sl k).state == .cold then (s.refuseSlice k, s)
  else
    let v : Verify := ⟨s, k, k, s.imageOf m, empty⟩
    match v.verdict with
    | .error r => (r.ends, s)
    | .ok _ => if (m.f 20 1).testBit 1 then s.exportContext m v.results else (⟨0, 0, 0, v.results⟩, s)

/-- The fields of VERIFY. -/
def State.verifyFields (s : State) (m : Cmd) : Option Ends :=
  checks [extraBits m 20 1 2, (!s.present.contains (m.f 16 1), .bad 16), (bufBad m 24 (m.f 32 4), .bad 24),
    (decide (2 ^ 20 < m.f 32 4), .bad 32), ((m.f 20 1).testBit 1 && bufBad m 40 (m.f 48 4), .bad 40)]

/-- What VERIFY needs. -/
def State.verifyNeed (s : State) : CmdNeed :=
  { defs := [(16, 1), (20, 1), (24, 8), (32, 4), (40, 8), (48, 4)], pre := s.verifyFields }

/-- VERIFY (R442). -/
def execVerify (ch : Channel) (s : State) : Host.Outcome State Fault Refusal :=
  act s (s.command ch 0x05 s.verifyNeed s.verifyProgram)

/-! ### ARM (R443, R475, R476) -/

/-- A stream from another slice has its sending end among the armed programs that a command leaves (R368, R476). `progs` gives the
program that each slice then runs. -/
def senderArmed (progs : Nat → Option Program) (k : Nat) (t : TimedStream) : Bool :=
  match progs t.peer with
  | none => false
  | some p => p.streams.any fun u => u.id == t.id && counterpart k t.peer t u && endsFit k t.peer t u

/-- A program has an inbound stream from a slice whose sender is missing. -/
def missingSender (progs : Nat → Option Program) (k : Nat) : Bool :=
  match progs k with
  | none => false
  | some p => p.streams.any fun t => t.inbound && t.peerSlice && !senderArmed progs k t

/-- The programs armed after a command on the slices of a mask. -/
def State.progsAfter (s : State) (ks : List Nat) (j : Nat) : Option Program :=
  if ks.contains j then (s.sl j).loadedProg else (s.sl j).armedProg

/-- A stream of a program has the ID of another slice's armed stream that is not its other end (R367, R368). ARM refuses it, because
programs that were loaded before either was armed have passed Onori apart: DEDUCED, safe (log 27). -/
def sharesStream (progs : Nat → Option Program) (k : Nat) : Bool :=
  match progs k with
  | none => false
  | some p => p.streams.any fun t => (List.range 32).any fun j => j != k && match progs j with
    | none => false
    | some q => q.streams.any fun u => u.id == t.id &&
        !(t.inbound != u.inbound && t.peerSlice && u.peerSlice && t.peer == j && u.peer == k)

/-- The first slice that a rule refuses, for the rules in the order of R443. -/
def State.armRefused (s : State) (ks : List Nat) (sw : Bool) : Option Ends :=
  let want := if sw then SliceState.running else .ready
  let new (k : Nat) (f : Program → Bool) : Bool := ((s.sl k).loadedProg.map f).getD false
  let progs := s.progsAfter ks
  let rules : List (List Nat × (Nat → Bool)) :=
    [(ks, fun k => (s.sl k).state != want), (ks, fun k => (s.sl k).loadedProg.isNone), (ks, fun k => !s.isAvail k),
      (ks, fun k => new k fun q => decide (s.setting 0x0101 < q.minTick)),
      (ks, fun k => new k fun q => q.batched && s.offService k),
      (ks, fun k => new k fun q => !q.streams.isEmpty && (s.setting 0x0106).testBit k),
      (if sw then s.present else ks, missingSender progs), (ks, sharesStream progs)]
  (rules.findSome? fun r => r.1.find? r.2).map s.refuseSlice

/-- Both brackets at the initial values of an image; a register that it does not name is 0 (R109, R110). -/
def Program.bracket (p : Program) : Vector W64 64 :=
  p.brackets.foldl (fun v b => v.setIfInBounds b.1 b.2) (Vector.replicate 64 0)

/-- ARM of one slice: the loaded bank is active, R109 is performed, the routines are copied, the ring and the counters start anew
(R109, R142, R155, R365, R443, R558, R559). A sticky patch made before survives, and is copied at the next edge: R109 and R138 do not
say. DESIGN CHOICE, unsafe (log 45). -/
def State.armSlice (s : State) (k : Nat) : State :=
  match (s.sl k).loadedProg with
  | none => s
  | some p =>
    let cache := s.routinesOf p
    let s := (s.putCache k p).cleanFrames k 3072 68
    s.mod k fun x => { x with
      bank := !x.bank, armed := true, loaded := false, switchReq := false, startInc := false
      brk0 := p.bracket, brk1 := p.bracket, libcache := cache, cring := p.cring, recOut := [], perf := Perf.zero
      timed := { x.timed with slipFault := false }
      seq := { x.seq with
        cnt := Vector.replicate 8 0, cmp := Vector.replicate 4 false, cmpOpen := Vector.replicate 4 false, frame := 0
        tileFmt := Vector.replicate 32 0xFF } }

/-- A bank switch of one slice is requested: the new program's routines have been copied (R142, R475). -/
def State.requestSwitch (s : State) (k : Nat) : State :=
  match (s.sl k).loadedProg with
  | none => s
  | some p => (s.putCache k p).mod k fun x => { x with switchReq := true, nextCache := s.routinesOf p }

/-- ARM after its field checks. A SWITCH is requested once the routines are copied; its edge lies at least 2 µs later (R443). -/
def State.arm (s : State) (m : Cmd) : (Ends × State) ⊕ (Cmd × State) :=
  let ks := slicesOf (m.f 16 4)
  let sw := m.f 20 1 == 1
  match s.armRefused ks sw with
  | some e => .inl (e, s)
  | none =>
    if !sw then .inl (⟨0, 0, 0, leBytes 4 (m.f 16 4)⟩, ks.foldl State.armSlice s)
    else .inr ({ m with mask := BitVec.ofNat 32 (m.f 16 4), edge := s.now + 2000 },
      ks.foldl State.requestSwitch s)

/-- What ARM needs: its slices, and the library until its routines are copied (R477). -/
def State.armNeed (s : State) : CmdNeed :=
  { defs := [(16, 4), (20, 1)]
    pre := fun m => checks [(s.absent (m.f 16 4), .bad 16), (decide (1 < m.f 20 1), .bad 20)]
    objs := fun m => (slicesOf (m.f 16 4)).map Obj.slice ++ [.library] }

/-- ARM (R443). -/
def execArm (ch : Channel) (s : State) : Host.Outcome State Fault Refusal :=
  act s (s.commandGo ch 0x06 s.armNeed s.arm)

end Sys2Proof.Machine
end

