-- ==== Sys2Proof/Machine/MailFw.lean ====
section
/-! DEFINITION. Commands on firmware and identity: FW_STAGE, FW_ACTIVATE, FW_COMMIT and FW_ROLLBACK (R453, R486 to R491, R530), GET_CERT
and ATTEST (R454, R527, R531 to R533). -/

namespace Sys2Proof.Machine

/-- RETRY while SUPPLY_WARN_N is asserted (R432). -/
def State.retry (s : State) : Option Ends := if s.pins.supplyWarn then some (.no 19 0 0) else none

/-- A slot that holds a verified image. -/
def FwSlot.bootable (x : FwSlot) : Bool := x.verified || x.factory

/-- The slot that is not running. -/
def State.otherSlot (s : State) : Nat := 3 - s.fw.slot

/-- Replace a slot. -/
def State.setSlot (s : State) (n : Nat) (x : FwSlot) : State := { s with fw := s.fw.setSlot n x }

/-! ### FW_STAGE (R453, R486) -/

/-- The fields of FW_STAGE; a later chunk starts where the staged bytes end. -/
def State.stageFields (s : State) (m : Cmd) : Option Ends :=
  let off := m.f 16 4
  let len := m.f 32 4
  let x := s.fw.slotOf s.otherSlot
  let first := (m.f 20 1).testBit 0
  checks [extraBits m 20 1 2, (off % 4096 != 0 || (first && off != 0) || (!first && (x.bootable || off != x.staged)), .bad 16),
    (bufBad m 24 len, .bad 24), (decide (len < 1 ∨ 262144 < len ∨ 1835008 < off + len), .bad 32)]

/-- The sector writes of a chunk: the first with the retries given (R456, R493). -/
def State.chunkWrites (s : State) (slot off len retries : Nat) : State :=
  let base := (slot - 1) * 448 + off / 4096
  (List.range (ceilDiv len 4096)).foldl (fun s i => s.sectorWrite (base + i) (if i = 0 then retries else 0)) s

/-- FW_STAGE after its field checks. -/
def State.stage (s : State) (m : Cmd) (retries : Nat) : Ends × State :=
  let n := s.otherSlot
  let off := m.f 16 4
  match s.storeBlocked with
  | some e => (e, s)
  | none =>
    let x : FwSlot := if (m.f 20 1).testBit 0 then ⟨0, [], false, false⟩ else s.fw.slotOf n
    let t := s.chunkWrites n off (m.f 32 4) retries
    if writeFails retries then (.no 5 ((n - 1) * 448 + off / 4096) 0, t.setSlot n ⟨0, [], false, false⟩)
    else
      let y : FwSlot := { x with staged := x.staged + m.f 32 4, image := x.image ++ s.imageOf m }
      if !(m.f 20 1).testBit 1 then (⟨0, 0, 0, leBytes 4 y.staged⟩, t.setSlot n y)
      else match s.imageCheck 1 y.image with
        | some e => (.no 9 0 0, (t.setSlot n ⟨0, [], false, false⟩).logAuth y.image e)
        | none =>
          let y := { y with verified := true }
          (⟨0, 0, 0, leBytes 4 y.staged ++ leBytes 4 y.version.toNat⟩, t.setSlot n y)

/-- What FW_STAGE needs. -/
def State.stageNeed (s : State) : CmdNeed :=
  ⟨[(16, 4), (20, 1), (24, 8), (32, 4)], s.stageFields, fun _ => [.fwSlot s.otherSlot], fun _ => none⟩

/-- FW_STAGE (R453). -/
def execFwStage (ch : Channel) (retries : BitVec 4) (s : State) : Host.Outcome State Fault Refusal :=
  act s (s.command ch 0x17 s.stageNeed fun m => s.stage m retries.toNat)

/-! ### Reboots (R487, R491) -/

/-- A command leaves its channel; the next firmware posts its final completion. -/
def State.leave (s : State) (m : Cmd) : State :=
  if m.late then { s with fw := { s.fw with conts := s.fw.conts.erase m } }
  else s.modChan m.chan fun x => { x with running := none }

/-- A boot record is written and the Tamosh domain resets into its preferred slot; the activation watchdog starts. -/
def State.reboot (s : State) (m : Cmd) (b : BootRecord) (retries : Nat) : State :=
  let s := ({ s with fw := { s.fw with boot := b } }).sectorWrite 896 retries
  let s := (s.leave m).tamoshReset (some m) 0
  { s with fw := { s.fw with dogUntil := some (s.now + b.watchdog * 1000000000) } }

/-- A continuing command of another channel runs (R437). -/
def State.othersContinue (s : State) (m : Cmd) : Bool := s.cmds.any fun x => x.chan != m.chan && continuing x.code x.msg

/-- A command that reboots firmware: what refuses it, else the boot record and the reset. -/
def State.rebootCmd (s : State) (ch : Channel) (code : Nat) (n : CmdNeed) (slot : Cmd → Nat) (record : Cmd → BootRecord)
    (retries : Nat) : State :=
  match s.cmdOf ch code with
  | none => s
  | some m =>
    match (s.refused n m).or ((checks [(!(s.fw.slotOf (slot m)).bootable, .no 5 (slot m) 0)]).or s.retry) with
    | some e => s.finish m e
    | none =>
      if writeFails retries then (s.sectorWrite 896 retries).finish m (.no 5 896 0) else s.reboot m (record m) retries

/-- Both slots, which a change of the firmware that runs acts on. -/
def slotsNeed : CmdNeed := { defs := [], objs := fun _ => [.fwSlot 1, .fwSlot 2] }

/-- What FW_ACTIVATE needs: no continuing command of another channel (R437). -/
def State.activateNeed (s : State) : CmdNeed :=
  { slotsNeed with
    defs := [(16, 1)]
    pre := fun m => checks [(decide (m.f 16 1 < 1 ∨ 2 < m.f 16 1), .bad 16)]
    limit := fun m => checks [(s.othersContinue m, .no 4 0 0)] }

/-- FW_ACTIVATE (R453, R487). -/
def execFwActivate (ch : Channel) (retries : BitVec 4) (s : State) : Host.Outcome State Fault Refusal :=
  act s (s.rebootCmd ch 0x18 s.activateNeed (fun m => m.f 16 1)
    (fun m => { s.fw.boot with preferred := m.f 16 1, previous := s.fw.slot, state := .trial, watchdog := s.setting 0x0703 })
    retries.toNat)

/-- FW_ROLLBACK (R453, R491); the slot that runs now becomes the previous one (log 29). -/
def execFwRollback (ch : Channel) (retries : BitVec 4) (s : State) : Host.Outcome State Fault Refusal :=
  act s (s.rebootCmd ch 0x1A slotsNeed (fun _ => s.otherSlot)
    (fun _ => { s.fw.boot with preferred := s.otherSlot, previous := s.fw.slot, state := .trial }) retries.toNat)

/-! ### FW_COMMIT (R453, R490, R530) -/

/-- The security version that a slot counts with: 64 where it is empty or fails verification. -/
def State.slotSvn (s : State) (n : Nat) : Nat :=
  let x := s.fw.slotOf n
  if x.factory then Config.factorySvn.toNat else if (s.slotCheck n).isNone then imageSvn x.image else 64

/-- The settings area from the values in force; the thermal parameters that it held keep their records (R490, log 29). -/
def State.commitArea (s : State) : List (Nat × W64) :=
  let thermal : List (Nat × W64) := s.quadList.flatMap fun q =>
    let x := s.quad q
    [(thermId q 0, BitVec.ofNat 64 x.limit), (thermId q 1, BitVec.ofNat 64 x.rth), (thermId q 2, BitVec.ofNat 64 x.tau),
      (thermId q 3, BitVec.ofNat 64 x.horizon)]
  (s.settings.filter fun p => p.1 != 0x0801) ++ (s.stored.filter fun p => p.1 == 0x0801) ++
    thermal.filter fun p => s.stored.any fun q => q.1 == p.1

/-- FW_COMMIT: the settings area, then the boot record as its last step, with the fuses (R490, R530). -/
def State.commitFw (s : State) (retries : Nat) : Ends × State :=
  match (checks [(s.fw.state == .committed, .no 5 s.fw.slot 0)]).or s.retry with
  | some e => (e, s)
  | none =>
    let sch := s.fw.current.schema
    let t := (s.sectorWrite s.ss.areaSector 0).sectorWrite 896 retries
    if writeFails retries then (.no 5 896 0, t)
    else
      let svn := min (s.slotSvn 1) (s.slotSvn 2)
      (⟨0, 0, 0, leBytes 2 sch⟩,
        { t with
          stored := s.commitArea
          fw := { t.fw with state := .committed, dogUntil := none, boot := { t.fw.boot with state := .committed, schema := sch } }
          sec := { t.sec with minSvn := max t.sec.minSvn (min 64 svn) } }.log 0x0100 11 5 false (objData s.fw.slot 0 0 0))

/-- FW_COMMIT (R453). -/
def execFwCommit (ch : Channel) (retries : BitVec 4) (s : State) : Host.Outcome State Fault Refusal :=
  act s (s.command ch 0x19 slotsNeed fun _ => s.commitFw retries.toNat)

/-! ### Identity (R454, R527, R531 to R533) -/

/-- GET_CERT after its field checks. -/
def State.getCert (s : State) (m : Cmd) : Ends × State :=
  let c := Config.certificate (m.f 16 1)
  if m.f 32 4 < c.length then (.no 7 0 c.length, s)
  else (⟨0, 0, 0, leBytes 4 c.length ++ leBytes 1 3⟩, s.putBuffer (m.f 24 8) c)

/-- The fields of GET_CERT. -/
def certFields (m : Cmd) : Option Ends :=
  checks [(decide (2 < m.f 16 1), .no 6 (m.f 16 1) 0), (bufBad m 24 (m.f 32 4), .bad 24)]

/-- What GET_CERT needs. -/
def certNeed : CmdNeed := { defs := [(16, 1), (24, 8), (32, 4)], pre := certFields }

/-- GET_CERT (R454). -/
def execGetCert (ch : Channel) (s : State) : Host.Outcome State Fault Refusal :=
  act s (s.command ch 0x1B certNeed s.getCert)

/-- DIGEST of a slot's image (R528, R532); that of the factory's image is a digest of nothing that the model holds (log 26). -/
def FwSlot.digest (x : FwSlot) : List Byte := if x.factory then Config.digest x.image else ((sigBlock x.image).drop 16).take 48

/-- The measurements that change: 2 to 5 (R532). -/
def State.measures (s : State) : List Byte :=
  let x := s.fw.current
  x.digest ++ leBytes 4 x.version.toNat ++ leBytes 2 (s.slotSvn s.fw.slot) ++ leBytes 1 s.fw.slot ++
    leBytes 1 s.fw.state.code ++ (if s.fw.library.isEmpty then List.replicate 48 0 else s.fw.libDigest) ++ leBytes 1 s.sec.minSvn ++
    leBytes 1 (if s.sec.unlocked then 1 else 0) ++ leBytes 1 s.sec.scope.toNat ++ leBytes 5 0

/-- What a response depends on: a fresh number, for nonces and signatures; the connection; the measurements; the request. -/
def State.spdmInput (s : State) (req : List Byte) : List Byte :=
  leBytes 8 s.free ++ leBytes 1 (if s.sec.resync then 1 else 0) ++ leBytes 8 s.sec.spdmState ++ s.measures ++ req

/-- The code of an SPDM request: its second byte. The codes and the formats of ERROR and VERSION are SPDM 1.2's: PRESUMED, log 26. -/
def spdmCode (req : List Byte) : Nat := fieldOf req 1 1

/-- The step of the connection that a request needs (R531): 1 after GET_VERSION, 2 after GET_CAPABILITIES, 3 after
NEGOTIATE_ALGORITHMS; none for a request that the responder does not support. -/
def spdmOrder : Nat → Option Nat
  | 0xE1 => some 1
  | 0xE3 => some 2
  | 0x81 | 0x82 | 0x83 | 0xE0 => some 3
  | _ => none

/-- The ErrorCode and ErrorData that a request receives: RequestResynch, UnsupportedRequest or UnexpectedRequest (R531, R533). -/
def State.spdmError (s : State) (req : List Byte) : Option (Nat × Nat) :=
  let c := spdmCode req
  if c = 0x84 then none
  else if s.sec.resync then some (0x43, 0)
  else match spdmOrder c with
    | none => some (0x07, c)
    | some n => if s.sec.spdmPhase = n then none else some (0x04, 0)

/-- The response to an SPDM request (R531): ERROR; VERSION with one entry, 1.2; or what the security unit computes. -/
def State.spdmReply (s : State) (req : List Byte) : List Byte :=
  match s.spdmError req with
  | some e => leBytes 1 0x12 ++ leBytes 1 0x7F ++ leBytes 1 e.1 ++ leBytes 1 e.2
  | none =>
    if spdmCode req = 0x84 ∧ Config.spdmGood req then leBytes 8 0x1200010000000410
    else Config.spdmResponse (s.spdmInput req)

/-- The connection after a request (R531, R533). -/
def State.spdmStep (s : State) (req : List Byte) : State :=
  let c := spdmCode req
  let sec := if (s.spdmError req).isSome ∨ !Config.spdmGood req then s.sec
    else if c = 0x84 then { s.sec with resync := false, spdmState := 0, spdmPhase := 1 }
    else { s.sec with
      spdmState := Config.spdmNext (leBytes 8 s.sec.spdmState ++ req)
      spdmPhase := if c = 0xE1 ∨ c = 0xE3 then s.sec.spdmPhase + 1 else s.sec.spdmPhase }
  { s with sec := sec, free := s.free + 1 }

/-- ATTEST after its field checks. -/
def State.attest (s : State) (m : Cmd) : Ends × State :=
  let req := s.buffer (m.f 24 8) (m.f 32 4)
  let rsp := s.spdmReply req
  if m.f 48 4 < rsp.length then (.no 7 0 rsp.length, s)
  else (⟨0, 0, 0, leBytes 4 rsp.length⟩, (s.spdmStep req).putBuffer (m.f 40 8) rsp)

/-- The fields of ATTEST. -/
def attestFields (m : Cmd) : Option Ends :=
  checks [(bufBad m 24 (m.f 32 4), .bad 24), (decide (m.f 32 4 < 4 ∨ 4096 < m.f 32 4), .bad 32), (bufBad m 40 (m.f 48 4), .bad 40)]

/-- What ATTEST needs. -/
def attestNeed : CmdNeed :=
  { defs := [(24, 8), (32, 4), (40, 8), (48, 4)], pre := attestFields, objs := fun _ => [.security] }

/-- ATTEST (R454). -/
def execAttest (ch : Channel) (s : State) : Host.Outcome State Fault Refusal :=
  act s (s.command ch 0x1C attestNeed s.attest)

end Sys2Proof.Machine
end

