-- ==== Sys2Proof/Machine/MailKv.lean ====
section
/-! DEFINITION. Commands on the KV page manager: KV_POOL_CONFIG (R277 to R279, R448), KV_SEQ_OPEN, KV_SEQ_CLOSE and KV_SEQ_QUERY
(R268, R273, R280, R282, R296, R301, R449, R563). -/

namespace Sys2Proof.Machine

/-! ### KV_POOL_CONFIG (R277, R448) -/

/-- Most pages that a layer holds in the window (R273). -/
def KvPool.maxPages (p : KvPool) : Nat :=
  let e := 448 * 2 ^ 20 / max 1 p.pe
  if fmtMx p.fmt then min e (64 * 2 ^ 20 / max 1 p.ps) else e

/-- The pool that a request describes, its shares not yet placed. -/
def Cmd.pool (m : Cmd) (f : Fmt) : KvPool where
  num := m.f 16 1
  emul := m.f 17 1 == 1
  streams := m.f 18 1
  fmt := f
  planar := m.f 20 1 == 1
  width := m.f 22 2
  colmask := m.f 24 4
  share := m.f 28 4
  base := m.f 32 8
  size := m.f 40 8
  stripe := m.f 48 4
  low := m.f 52 4
  high := m.f 56 4
  places := []

/-- The field checks of a configuration (R277), in the order of the offsets. -/
def State.poolFields (s : State) (p : KvPool) : Option Ends :=
  checks [(!(p.streams == 1 || p.streams == 2), .bad 18),
    (!(if p.planar then planarOk p.fmt else packedOk p.fmt), .bad 20),
    (!([64, 128, 256, 512, 1024, 2048, 4096].contains p.width) || p.pe % 1024 != 0 || decide (262144 < p.pe), .bad 22),
    (p.emul && (p.colmask == 0 || (maskBits 32 p.colmask).any fun c => !s.columns.contains c), .bad 24),
    (p.emul && p.share % 2 != 0, .bad 28),
    (!p.emul && (p.base % 65536 != 0 || decide (2 ^ 52 ≤ p.base)), .bad 32),
    (!p.emul && decide (2 ^ 52 < p.base + p.size), .bad 40),
    (p.stripe == 0 || p.stripe % p.z != 0, .bad 48),
    (decide (p.high ≤ p.low), .bad 52)]

/-- The field and existence checks of KV_POOL_CONFIG. -/
def State.poolPre (s : State) (m : Cmd) : Option Ends :=
  if 7 < m.f 16 1 then some (.bad 16)
  else if m.f 60 1 = 1 then (if (s.kv.pool (m.f 16 1)).isNone then some (.no 6 (m.f 16 1) 0) else none)
  else if 1 < m.f 17 1 then some (.bad 17)
  else match fmtOfId (m.f 19 1) with
    | none => some (.bad 19)
    | some f => checks [(!(m.f 18 1 == 1 || m.f 18 1 == 2), .bad 18), (decide (1 < m.f 20 1), .bad 20)] |>.or
        ((s.poolFields (m.pool f)).or (if m.f 60 1 = 0 then none else some (.bad 60)))

/-- Where the share of a pool starts in a column; none where it does not fit (R278). -/
def State.sharePlace (s : State) (p : KvPool) (col : Nat) : Option Nat :=
  let others := s.kv.pools.filterMap fun q =>
    if q.num = p.num ∨ !q.emul then none else (q.places.find? (·.1 == col)).map fun x => (q.num, x.2, x.2 + q.share * 2 ^ 20)
  let lo := (others.filter fun q => decide (q.1 < p.num)).foldl (fun n q => max n q.2.2) 0
  let hi := (others.filter fun q => decide (p.num < q.1)).foldl (fun n q => min n q.2.1) 0x6C000000
  if lo + p.share * 2 ^ 20 ≤ hi then some lo else none

/-- The starts of a pool's shares in every column of its mask. -/
def State.sharePlaces (s : State) (p : KvPool) : List Nat → Option (List (Nat × Nat))
  | [] => some []
  | c :: cs => (s.sharePlace p c).bind fun x => (s.sharePlaces p cs).map fun r => (c, x) :: r

/-- An external range overlaps another pool (R277). -/
def State.rangeTaken (s : State) (p : KvPool) : Bool :=
  s.kv.pools.any fun q => q.num != p.num && !q.emul && decide (p.base < q.base + q.size ∧ q.base < p.base + p.size)

/-- The pool is named in the chain of an open context. -/
def State.poolNamed (s : State) (n : Nat) : Bool := s.kv.ctxs.any fun c => c.chain.contains n

/-- The pool has a claimed group. -/
def State.poolClaimed (s : State) (n : Nat) : Bool := s.kv.groups.any fun g => g.pool == n

/-- The new configuration keeps what the chains of open contexts rely on. -/
def KvPool.sameShape (p q : KvPool) : Bool :=
  p.emul == q.emul && p.streams == q.streams && p.fmt == q.fmt && p.planar == q.planar && p.width == q.width

/-- Where a configured pool keeps its groups: its shares, or its external range; none where R277 refuses it. -/
def State.poolPlaced (s : State) (p : KvPool) : Option (List (Nat × Nat)) :=
  if p.emul then s.sharePlaces p (maskBits 32 p.colmask) else if s.rangeTaken p then none else some [(0xFF, p.base)]

/-- Replace pool `n`. -/
def State.setPool (s : State) (n : Nat) (l : List KvPool) : State :=
  { s with kv := { s.kv with pools := (s.kv.pools.filter (·.num != n)) ++ l } }

/-- CONFIGURE after its field checks. -/
def State.poolSet (s : State) (p : KvPool) : Ends × State :=
  let reshaped := s.poolNamed p.num && !((s.kv.pool p.num).any p.sameShape)
  match s.poolPlaced p with
  | none => (.no 5 p.num 0, s)
  | some ps =>
    if s.poolClaimed p.num ∨ reshaped then (.no 5 p.num 0, s)
    else if s.setting 0x0203 % p.z ≠ 0 then (.no 11 0x0203 p.num, s)
    else (⟨0, 0, 0, leBytes 4 (p.perPlace * ps.length) ++ leBytes 1 p.z⟩,
      ((s.setPool p.num [{ p with places := ps }]).levelsFrom s).dropPress.kvSettled)

/-- KV_POOL_CONFIG after its field checks (R448). -/
def State.poolConfig (s : State) (m : Cmd) : Ends × State :=
  let n := m.f 16 1
  if m.f 60 1 = 1 then
    if s.poolClaimed n ∨ s.poolNamed n then (.no 5 n 0, s)
    else (⟨0, 0, 0, leBytes 4 0 ++ leBytes 1 (((s.kv.pool n).map KvPool.z).getD 1)⟩, s.setPool n [])
  else match fmtOfId (m.f 19 1) with
    | none => (.bad 19, s)
    | some f => s.poolSet (m.pool f)

/-- What KV_POOL_CONFIG needs. -/
def State.poolNeed (s : State) : CmdNeed :=
  { defs := [(16, 5), (22, 39)], pre := s.poolPre, objs := fun m => [.pool (m.f 16 1)] }

/-- KV_POOL_CONFIG (R448). -/
def execKvPoolConfig (ch : Channel) (s : State) : Host.Outcome State Fault Refusal :=
  act s (s.command ch 0x0D s.poolNeed s.poolConfig)

/-! ### KV_SEQ_OPEN (R268, R449) -/

/-- The pool numbers of a chain: 0xFF ends it. -/
def Cmd.chain (m : Cmd) : List Nat := ((List.range 4).map fun i => m.f (24 + i) 1).takeWhile (· != 0xFF)

/-- A chain of configured pools of one shape, every emulsion pool before every external one (R280). -/
def State.chainOk (s : State) (l : List Nat) : Bool :=
  let ps := l.filterMap s.kv.pool
  let kinds := ps.map (·.emul)
  !l.isEmpty && ps.length == l.length &&
    ps.all (fun p => (ps.head?).any fun q => ({ p with emul := q.emul } : KvPool).sameShape q) &&
    kinds == kinds.filter id ++ kinds.filter not

/-- The field checks of KV_SEQ_OPEN (R268, R273, R280). -/
def State.openPre (s : State) (m : Cmd) : Option Ends :=
  let most := ((((m.chain).head?).bind s.kv.pool).map KvPool.maxPages).getD 0
  checks [(decide (32768 ≤ m.f 16 2), .bad 16), (m.f 18 2 == 0 || decide (4096 ≤ m.f 18 2), .bad 18),
    (m.f 20 1 == 0 || decide (64 < m.f 20 1), .bad 20), (decide (7 < m.f 21 1), .bad 21), (decide (15 < m.f 22 1), .bad 22),
    (!s.chainOk m.chain, .bad 24), (decide (16 * most < m.f 28 4), .bad 28)]

/-- A layer at the opening of its context: empty, its tray only in its park slot, in a column at a place (log 14). -/
def KvLayer.opened (slot : Nat × Nat) : KvLayer := ⟨0, 0, .parked, false, [], 0, slot.1, slot.2, []⟩

/-- The context that a request opens, its layers with the park slots given. -/
def Cmd.context (m : Cmd) (slots : List (Nat × Nat)) : KvCtx where
  num := m.f 16 2
  closing := false
  domain := m.f 18 2
  cls := m.f 21 1
  chain := m.chain
  maxTokens := m.f 28 4
  notice := m.f 22 1
  fadeGen := 0
  lastUse := 0
  keep := false
  usedFrame := false
  layers := slots.map KvLayer.opened
  pins := []

/-- A context with its tables is there: the tables are written; the entries that cover the window are, where it is the domain's first
context (R274); its chain may be under pressure at once (R299). -/
def State.openCtx (s : State) (c : KvCtx) (tabs : List KvTable) : State :=
  let first := !s.kv.ctxs.any fun x => x.domain == c.domain
  let t := { s with kv := { s.kv with ctxs := s.kv.ctxs ++ [c], tabs := tabs } }
  ((if first then t.clearRoot c.domain else t).fillTables (tabs.drop s.kv.tabs.length)).levelsFrom s

/-- KV_SEQ_OPEN after its field checks (R268, R274, R282, R563). -/
def State.seqOpen (s : State) (m : Cmd) : Ends × State :=
  let n := m.f 16 2
  let d := m.f 18 2
  match s.kv.ctx n, ((m.chain).head?).bind s.kv.pool with
  | some c, _ => (.no 5 n (if c.closing then 9 else 1), s)
  | none, none => (.bad 24, s)
  | none, some p =>
    let tab := ((p.layerTables (m.f 28 4) n 0).map (·.2)).sum
    let l2 := s.newLevel2 d n
    match s.placeLayers p n (m.f 28 4) l2 (m.f 20 1) with
    | none => (.no 7 n (m.f 20 1 * (p.slot + tab) + (if l2.isSome then 4096 else 0)), s)
    | some x => (⟨0, 0, 0, leBytes 4 (m.f 20 1 * tab / 1024)⟩, s.openCtx (m.context x.1) x.2)

/-- What KV_SEQ_OPEN needs. -/
def State.openNeed (s : State) : CmdNeed :=
  { defs := [(16, 7), (24, 8)], pre := s.openPre, objs := fun m => [.context (m.f 16 2)] }

/-- KV_SEQ_OPEN (R449). -/
def execKvSeqOpen (ch : Channel) (s : State) : Host.Outcome State Fault Refusal :=
  act s (s.command ch 0x0E s.openNeed s.seqOpen)

/-! ### KV_SEQ_CLOSE and KV_SEQ_QUERY -/

/-- NOT_FOUND for a context that is not open. -/
def State.noContext (s : State) (m : Cmd) : Bool × Ends := ((s.kv.ctx (m.f 16 2)).isNone, .no 6 (m.f 16 2) 0)

/-- KV_SEQ_CLOSE after its field checks: the context is CLOSING until KV_CLOSE_FINISH (R301). -/
def State.seqClose (s : State) (m : Cmd) : (Ends × State) ⊕ (Cmd × State) :=
  if (s.kv.ctx (m.f 16 2)).any (·.closing) then .inl (.no 5 (m.f 16 2) 9, s) else .inr (m, s.closeCtx (m.f 16 2))

/-- What KV_SEQ_CLOSE needs. -/
def State.closeNeed (s : State) : CmdNeed :=
  { defs := [(16, 2)], pre := fun m => checks [s.noContext m], objs := fun m => [.context (m.f 16 2)] }

/-- KV_SEQ_CLOSE (R449). -/
def execKvSeqClose (ch : Channel) (s : State) : Host.Outcome State Fault Refusal :=
  act s (s.commandGo ch 0x0F s.closeNeed s.seqClose)

/-- The bytes that a KV_SEQ_QUERY writes. -/
def Cmd.queryBytes (m : Cmd) : Nat := if m.f 20 1 = 0 then 64 else 16 * m.f 36 2

/-- The field and existence checks of KV_SEQ_QUERY. -/
def State.queryPre (s : State) (m : Cmd) : Option Ends :=
  let layers := ((s.kv.ctx (m.f 16 2)).map (·.layers.length)).getD 0
  checks [s.noContext m, (decide (layers ≤ m.f 18 2), .bad 18), (decide (1 < m.f 20 1), .bad 20),
    (bufBad m 24 m.queryBytes, .bad 24),
    (m.f 20 1 == 1 && (m.f 36 2 == 0 || decide (4095 < m.f 36 2)), .bad 36)]

/-- The records that a KV_SEQ_QUERY writes (R296). -/
def State.queryOut (s : State) (m : Cmd) : List Byte := s.kvRecords (m.f 16 2) (m.f 18 2) (m.f 20 1) (m.f 32 4) (m.f 36 2)

/-- KV_SEQ_QUERY after its field checks. -/
def State.seqQuery (s : State) (m : Cmd) : Ends × State :=
  (⟨0, 0, 0, leBytes 4 m.queryBytes⟩, s.putBuffer (m.f 24 8) (s.queryOut m))

/-- What KV_SEQ_QUERY needs. -/
def State.queryNeed (s : State) : CmdNeed :=
  { defs := [(16, 5), (24, 14)], pre := s.queryPre, objs := fun m => [.context (m.f 16 2)] }

/-- KV_SEQ_QUERY (R449). -/
def execKvSeqQuery (ch : Channel) (s : State) : Host.Outcome State Fault Refusal :=
  act s (s.command ch 0x10 s.queryNeed s.seqQuery)

end Sys2Proof.Machine
end

