-- ==== Sys2Proof/Machine/MailLib.lean ====
section
/-! DEFINITION. LOAD_LIBRARY: the library image, the rules for its routines, the programs that list them (R440, R477, R529, R533). -/

namespace Sys2Proof.Machine

/-! ### The image (R440) -/

/-- COUNT of a library image. -/
def libCount (img : List Byte) : Nat := fieldOf img 8 4

/-- The routine of entry `i`. -/
def libEntry (img : List Byte) (i : Nat) : Routine :=
  let f (o n : Nat) : Nat := fieldOf img (16 + 12 * i + o) n
  ⟨f 0 2, (img.drop (f 4 4)).take (16 * f 8 4)⟩

/-- The routines of an image. -/
def libRoutines (img : List Byte) : List Routine := (List.range (libCount img)).map (libEntry img)

/-- The header or the entry table is broken (log 34). -/
def libBad (img : List Byte) : Bool :=
  let f (i o n : Nat) : Nat := fieldOf img (16 + 12 * i + o) n
  let n := libCount img
  fieldOf img 0 4 != 0x564C4231 || fieldOf img 4 4 == 0 || decide (n < 1 ∨ 4096 < n ∨ img.length < 272 + 12 * n) ||
    (List.range n).any (fun i =>
      decide (4096 ≤ f i 0 2 ∨ f i 8 4 = 0 ∨ f i 4 4 < 16 + 12 * n ∨ img.length < f i 4 4 + 16 * f i 8 4 + 256)) ||
    anyPair (fun (a b : Routine) => a.id == b.id) (libRoutines img)

/-- The words of a routine. -/
def Routine.words (r : Routine) : List Nat := (List.range (r.code.length / 16)).map fun i => fieldOf r.code (16 * i) 16

/-! ### Rules for routines (R113 to R116, R129, R134, R140, R144) -/

/-- NDIM with which no rule on the dimensions of an unknown source fails. -/
def Visit.anyNdim (i : Visit) : Nat := bits i.imm 37 35 + (if redPairs i.op i.fields then 1 else 0)

/-- The operand slots break R114, whatever their descriptors are. -/
def Visit.badSlots (i : Visit) : Bool :=
  decide (0x20 ≤ i.op) &&
    ((i.needs.zip i.slots).any (fun p => slotBad p.1 p.2) || i.pred == .bad || (decide (0x90 ≤ i.op) && i.slots.any VOp.isTile))

/-- The compute or tile format breaks R161 or R192, whatever the descriptors are. -/
def Visit.badCf (i : Visit) : Bool :=
  decide (0x20 ≤ i.op ∧ i.op < 0x90) &&
    (!((i.cf?.map fun f => (allowedCf i.op).contains f).getD false) || i.badTileRead ||
      (decide (0x70 ≤ i.op) && !(i.slots.any VOp.isTile) && bits i.imm 55 51 != 0))

/-- The STRIP group is broken at an instruction, whatever the descriptors are (R129, R133, R134). -/
def Visit.badStrip (i : Visit) : Bool :=
  match i.track.group with
  | none => i.op == 0x04
  | some g =>
    if i.op = 0x04 then g.units.isEmpty
    else if i.op < 0x20 ∨ 0x90 ≤ i.op then true
    else
      decide (16 ≤ g.units.length ∨ queueDepth (unitOf i.op) ≤ g.units.count (unitOf i.op)) ||
        (i.tileReads.map (·.1) ++ i.masks.flatMap VOp.tiles).any (fun t => !g.wrote.contains t) ||
        (g.double && (i.operands.flatMap VOp.tiles).any fun t => decide (16 ≤ t))

/-- The first rule that an instruction of a routine breaks by itself (R440; log 34). `last` says that it is the routine's last. -/
def Visit.routineCode (i : Visit) (last : Bool) : Option Nat :=
  if !opcodeOk i.op then some 0x0B
  else firstCode [(0x0B, i.badFunc .fp32), (0x0C, i.badImm i.anyNdim), (0x0D, i.badSlots), (0x0E, i.badCf),
    (0x14, i.badStrip), (0x16, i.op == 0x07), (0x17, i.badWait), (0x18, last && i.op != 0x02)]

/-- The instructions of a routine in order, with what holds before each. -/
def Routine.visits (r : Routine) : List Visit := (walk (Visit.step 2) (fun _ t => ([], t)) ⟨some r.id, 0, 0, 0⟩ ⟨[], none⟩ r.words).1

/-- The first failure of a routine by itself. -/
def Routine.reject (r : Routine) : Option Reject :=
  r.visits.findSome? fun i =>
    (i.routineCode (i.place.index + 1 == r.code.length / 16)).map fun c => (⟨c, 4, i.place.index, r.id⟩ : Reject)

/-- A routine from which calls nest deeper than the call stack, or that can call itself (R140). -/
def Verify.routineDeep (v : Verify) (r : Routine) : Option Reject :=
  if v.deeper 4 [r.id] then
    some ⟨0x18, 4, (r.words.findIdx fun w => bits w 127 120 == 0x01), r.id⟩
  else none

/-! ### The library after the command -/

/-- MERGE adds or replaces; REPLACE makes the image the whole library (R440). -/
def mergeLib (old new : List Routine) (replace : Bool) : List Routine :=
  if replace then new else (old.filter fun r => !new.any fun n => n.id == r.id) ++ new

/-- Every program that is loaded or armed: its slice and itself. -/
def State.livePrograms (s : State) : List (Nat × Program) :=
  s.present.flatMap fun k => ((s.sl k).armedProg.toList ++ (s.sl k).loadedProg.toList).map fun p => (k, p)

/-- A new routine as a program that lists it calls it (R477). -/
def State.recheck (s : State) (new : List Routine) (k : Nat) (p : Program) : Option Reject :=
  let v : Verify := ⟨s, k, k, p.image, false⟩
  let is := v.visits
  let ids := p.routines.filter fun id => new.any fun r => r.id == id
  let need := (p.routines.eraseDups.map fun id => 16 * ((v.routine id).getD []).length).foldl (· + ·) 0
  match ids.head? with
  | none => none
  | some id =>
    match ids.findSome? (v.routineFails (v.outside (v.used is)) is) with
    | some r => some r
    | none => if p.libBytes < need then some ⟨0x19, 4, 0, id⟩ else none

/-- Onori on a library: each routine by itself, then as each loaded or armed program calls it. -/
def State.libReject (s : State) (new : List Routine) : Option Reject :=
  let v : Verify := ⟨s, 0, 0, [], false⟩
  match new.findSome? fun r => (r.reject).or (v.routineDeep r) with
  | some r => some r
  | none => s.livePrograms.findSome? fun q => s.recheck new q.1 q.2

/-- A routine that the command would remove while a loaded or armed program lists it (R440). -/
def State.libRemoves (s : State) (after : List Routine) : Option Nat :=
  ((s.fw.library.map (·.id)).filter fun id => !after.any fun r => r.id == id).find? fun id =>
    s.livePrograms.any fun q => q.2.routines.contains id

/-- Bytes of code. -/
def libBytes (l : List Routine) : Nat := (l.map (·.code.length)).foldl (· + ·) 0

/-- LOAD_LIBRARY after its field checks (R440). -/
def State.loadLibrary (s : State) (m : Cmd) : Ends × State :=
  let img := s.imageOf m
  match s.imageCheck 2 img with
  | some e => (.no 9 0 0, s.logAuth img e)
  | none =>
    if libBad img then ((⟨0x01, 0, 0, 0xFFFF⟩ : Reject).ends, s)
    else
      let new := libRoutines img
      let after := mergeLib s.fw.library new (m.f 16 1 == 1)
      let t := { s with fw := { s.fw with library := after } }
      match t.libReject new with
      | some r => (r.ends, s)
      | none =>
        match s.libRemoves after with
        | some id => (.no 5 id 0, s)
        | none =>
          if 4096 < after.length then (.no 7 0 after.length, s)
          else if 8388608 < libBytes after then (.no 7 0 (libBytes after), s)
          else
            let dig := ((sigBlock img).drop 16).take 48
            (⟨0, 0, 0, leBytes 4 (fieldOf img 4 4) ++ leBytes 2 after.length⟩,
              { t with
                fw := { t.fw with libVersion := BitVec.ofNat 32 (fieldOf img 4 4), libDigest := dig }
                sec := { s.sec with resync := s.sec.resync || dig != s.fw.libDigest } })

/-- The fields of LOAD_LIBRARY. -/
def libFields (m : Cmd) : Option Ends :=
  checks [(decide (1 < m.f 16 1), .bad 16), (bufBad m 24 (m.f 32 4), .bad 24), (decide (9437184 < m.f 32 4), .bad 32)]

/-- What LOAD_LIBRARY needs. -/
def libNeed : CmdNeed :=
  { defs := [(16, 1), (24, 8), (32, 4)], pre := libFields, objs := fun _ => [.library] }

/-- LOAD_LIBRARY (R440). -/
def execLoadLibrary (ch : Channel) (s : State) : Host.Outcome State Fault Refusal :=
  act s (s.command ch 0x03 libNeed s.loadLibrary)

end Sys2Proof.Machine
end

