-- ==== Sys2Proof/Machine/MailSet.lean ====
section
/-! DEFINITION. Commands on settings, power, time and the contact sheet, and those that only report: PING, GET_FEATURES and
SCRUB_STATUS (R439), SET_SETTING and GET_SETTING (R450, R458, R460), POWER_CAP and THERMAL_PARAMS (R452, R506, R514), TIMESYNC
(R353), READ_CONTACT_SHEET (R451). -/

namespace Sys2Proof.Machine

/-! ### Reports (R439) -/

/-- A command that only reports. -/
def State.report (s : State) (ch : Channel) (code : Nat) (defs : List (Nat × Nat)) (res : Cmd → List Byte) : State :=
  s.command ch code { defs := defs } fun m => (⟨0, 0, 0, res m⟩, s)

/-- PING. -/
def execPing (ch : Channel) (s : State) : Host.Outcome State Fault Refusal :=
  act s (s.report ch 0x01 [(16, 8)] fun m =>
    leBytes 8 (m.f 16 8) ++ leBytes 4 s.fw.current.version.toNat ++ leBytes 1 s.fw.slot ++ leBytes 1 s.fw.state.code)

/-- The oldest schema that a slot's firmware reads. -/
def FwSlot.oldest (x : FwSlot) : Nat := ((List.range (x.schema + 1)).find? x.reads).getD x.schema

/-- GET_FEATURES: all 31 commands are served. -/
def execGetFeatures (ch : Channel) (s : State) : Host.Outcome State Fault Refusal :=
  act s (s.report ch 0x02 [] fun _ =>
    leBytes 8 s.chip.features ++ leBytes 4 s.fw.current.version.toNat ++ leBytes 2 s.fw.current.schema ++
      leBytes 2 s.fw.current.oldest ++ leBytes 4 s.fw.libVersion.toNat ++ leBytes 2 s.fw.library.length ++ leBytes 2 0 ++
      leBytes 4 0xFFFFFFFE)

/-- SCRUB_STATUS (R439, R500). -/
def execScrubStatus (ch : Channel) (s : State) : Host.Outcome State Fault Refusal :=
  act s (s.report ch 0x1D [] fun _ =>
    leBytes 4 s.scrub.passes.toNat ++ leBytes 4 s.scrub.corrected.toNat ++ leBytes 4 s.scrub.uncorr.toNat ++
      leBytes 1 (if s.scrub.lastValid then s.scrub.lastSlice else 0xFF) ++ leBytes 3 0 ++ leBytes 8 s.scrub.lastNs.toNat)

/-! ### Settings (R450, R458, R460) -/

/-- A value in the range of its setting. -/
def SettingInfo.inRange (i : SettingInfo) (v : W64) : Bool :=
  let n : Int := if i.signed then v.toInt else v.toNat
  decide (i.lo ≤ n ∧ n ≤ i.hi) && (i.id != 0x0201 || v.toNat % 2 ^ 51 == 0) && (i.id != 0x0801 || orderLegal (v.setWidth 8))

/-- Some slice runs, or runs or drains. -/
def State.anyIn (s : State) (drains : Bool) : Bool :=
  !(s.slicesIn fun st => st == .running || (drains && st == .draining)).isEmpty

/-- The condition of R458 that refuses a change. -/
def State.settingRefused (s : State) (id n : Nat) (persist : Bool) : Bool :=
  match id with
  | 0x0101 => s.present.any fun k => match (s.sl k).armedProg with | some p => decide (n < p.minTick) | none => false
  | 0x0102 => s.anyIn false
  | 0x0106 => s.present.any fun k => n.testBit k && !(s.sl k).armedStreams.isEmpty
  | 0x0201 => !s.kv.ctxs.isEmpty
  | 0x0501 | 0x0502 => s.anyIn true
  | 0x0801 => !persist
  | _ => false

/-- The time from which a change governs; for STARTUP_ORDER, the next RESET_N, it is not given (R359, R450, R506). -/
def State.effective (s : State) (id : Nat) : Nat × State :=
  if id = 0x0101 then (s.nextEdge, s) else if id = 0x0601 ∨ id = 0x0602 then (s.power.windowEnd, s)
  else if id = 0x0801 then s.draw else (s.now, s)

/-- Store values; none where a write fails for good. The retries are those of the first write. -/
def State.persistAll (s : State) (retries : Nat) : List (Nat × W64) → Nat × Option State
  | [] => (0, some s)
  | (id, v) :: rest =>
    match s.persist id v retries with
    | (sec, none) => (sec, none)
    | (_, some t) => t.persistAll 0 rest

/-- A command with PERSIST: what forbids a write, then the writes, then the change of what governs (R450, R495). -/
def State.storing (s : State) (on : Bool) (retries : Nat) (vals : List (Nat × W64)) (f : State → Ends × State) : Ends × State :=
  if !on then f s
  else match s.storeBlocked with
    | some e => (e, s)
    | none =>
      match s.persistAll retries vals with
      | (sec, none) => (.no 5 sec 0, s.sectorWrite sec retries)
      | (_, some t) => f t

/-- SET_SETTING: NOT_FOUND, then BAD_FIELD. -/
def State.setFields (s : State) (m : Cmd) : Option Ends :=
  match settingInfo s.chip.model (m.f 16 2) with
  | none => checks [extraBits m 18 1 1, (true, .no 6 (m.f 16 2) 0)]
  | some i => checks [extraBits m 18 1 1, (!i.inRange (BitVec.ofNat 64 (m.f 24 8)), .bad 24)]

/-- SET_SETTING after its field checks. -/
def State.setSetting (s : State) (m : Cmd) (retries : Nat) : Ends × State :=
  let id := m.f 16 2
  let v := BitVec.ofNat 64 (m.f 24 8)
  let per := (m.f 18 1).testBit 0
  let old := ((s.settings.find? (·.1 == id)).map (·.2)).getD 0
  if s.settingRefused id v.toNat per then (.no 5 id 0, s)
  else match s.comboBad id v.toNat (some m.chan) with
    | some (a, b) => (.no 11 a b, s)
    | none =>
      s.storing per retries [(id, v)] fun t =>
        let e := t.effective id
        (⟨0, 0, 0, leBytes 8 old.toNat ++ leBytes 8 v.toNat ++ leBytes 8 e.1⟩, e.2.applySetting id v)

/-- What SET_SETTING needs. -/
def State.setNeed (s : State) : CmdNeed :=
  { defs := [(16, 2), (18, 1), (24, 8)], pre := s.setFields, objs := fun m => [.setting (m.f 16 2)] }

/-- SET_SETTING (R450). -/
def execSetSetting (ch : Channel) (retries : BitVec 4) (s : State) : Host.Outcome State Fault Refusal :=
  act s (s.command ch 0x0B s.setNeed fun m => s.setSetting m retries.toNat)

/-- GET_SETTING after its field checks. -/
def State.getSetting (s : State) (m : Cmd) (i : SettingInfo) : Ends × State :=
  let word (n : Int) : List Byte := leBytes 8 (BitVec.ofInt 64 n).toNat
  let dflt := BitVec.ofInt 64 i.dflt
  let v : W64 := match m.f 18 1 with
    | 0 => ((s.settings.find? (·.1 == i.id)).map (·.2)).getD 0
    | 1 => (s.storedOf i.id).getD dflt
    | _ => dflt
  if m.f 18 1 = 1 ∧ s.fw.state = .limited then (.no 15 i.id 0, s)
  else
    (⟨0, 0, 0, leBytes 8 v.toNat ++ word i.lo ++ word i.hi ++ word i.dflt ++ leBytes 2 1 ++
      leBytes 1 ((if (s.storedOf i.id).isSome then 1 else 0) + (if i.signed then 2 else 0))⟩, s)

/-- What GET_SETTING needs. -/
def State.getNeed (s : State) : CmdNeed :=
  { defs := [(16, 2), (18, 1)]
    pre := fun m =>
      checks [((settingInfo s.chip.model (m.f 16 2)).isNone, .no 6 (m.f 16 2) 0), (decide (2 < m.f 18 1), .bad 18)] }

/-- GET_SETTING (R450). -/
def execGetSetting (ch : Channel) (s : State) : Host.Outcome State Fault Refusal :=
  act s (s.command ch 0x0C s.getNeed fun m =>
      match settingInfo s.chip.model (m.f 16 2) with
      | some i => s.getSetting m i
      | none => (.no 6 (m.f 16 2) 0, s))

/-! ### Power and thermal (R452) -/

/-- The fields of POWER_CAP. -/
def State.capFields (s : State) (m : Cmd) : Option Ends :=
  let w := m.f 20 4
  checks [extraBits m 18 1 1, (decide (m.f 16 2 < s.chip.model.capMinW ∨ s.chip.model.peakW < m.f 16 2), .bad 16),
    (w != 0 && decide (w < 10 ∨ 1000 < w), .bad 20)]

/-- POWER_CAP after its field checks: cap and window govern from the next window (R506). -/
def State.powerCap (s : State) (m : Cmd) (retries : Nat) : Ends × State :=
  let cap := m.f 16 2
  let vals : List (Nat × W64) :=
    (0x0601, BitVec.ofNat 64 cap) :: (if m.f 20 4 = 0 then [] else [(0x0602, BitVec.ofNat 64 (m.f 20 4))])
  s.storing ((m.f 18 1).testBit 0) retries vals fun t =>
    (⟨0, 0, 0, leBytes 2 cap ++ leBytes 6 0 ++ leBytes 8 t.power.windowEnd⟩,
      vals.foldl (fun t p => t.applySetting p.1 p.2) t)

/-- What POWER_CAP needs. -/
def State.capNeed (s : State) : CmdNeed :=
  { defs := [(16, 2), (18, 1), (20, 4)], pre := s.capFields
    objs := fun m => .power :: .setting 0x0601 :: (if m.f 20 4 = 0 then [] else [.setting 0x0602]) }

/-- POWER_CAP (R452). -/
def execPowerCap (ch : Channel) (retries : BitVec 4) (s : State) : Host.Outcome State Fault Refusal :=
  act s (s.command ch 0x15 s.capNeed fun m => s.powerCap m retries.toNat)

/-- The quadrants that a request names. -/
def State.quadsOf (s : State) (m : Cmd) : List Nat := if m.f 16 1 = 0xFF then s.quadList else [m.f 16 1]

/-- The fields of THERMAL_PARAMS; a READ uses none but QUAD. -/
def State.thermFields (s : State) (m : Cmd) : Option Ends :=
  let set := !(m.f 17 1).testBit 1
  let out (off n lo hi : Nat) : Bool × Ends := (set && decide (m.f off n < lo ∨ hi < m.f off n), .bad off)
  checks [extraBits m 17 1 2, (m.f 16 1 != 0xFF && decide (s.chip.model.quads ≤ m.f 16 1), .bad 16), out 18 2 280 420,
    out 20 4 50 5000, out 24 4 1000 1000000, out 28 2 1 100]

/-- The values in force of a quadrant, as the completion gives them. -/
def Quad.values (q : Quad) : List Byte := leBytes 2 q.limit ++ leBytes 4 q.rth ++ leBytes 4 q.tau ++ leBytes 2 q.horizon

/-- THERMAL_PARAMS after its field checks; which quadrant a completion for all of them shows is open. -/
def State.thermParams (s : State) (m : Cmd) (retries : Nat) : Ends × State :=
  let qs := s.quadsOf m
  let show_ (t : State) : Ends × State :=
    if qs.length = 1 then (⟨0, 0, 0, (t.quad (qs.headD 0)).values⟩, t)
    else (⟨0, 0, 0, (t.quad (t.draw.1 % max 1 qs.length)).values⟩, t.draw.2)
  if (m.f 17 1).testBit 1 then show_ s
  else
    let w (off n : Nat) : W64 := BitVec.ofNat 64 (m.f off n)
    let vals := qs.flatMap fun q =>
      [(thermId q 0, w 18 2), (thermId q 1, w 20 4), (thermId q 2, w 24 4), (thermId q 3, w 28 2)]
    s.storing ((m.f 17 1).testBit 0) retries vals fun t =>
      show_ (qs.foldl (fun t q => t.modQuad q fun x =>
        { x with limit := m.f 18 2, rth := m.f 20 4, tau := m.f 24 4, horizon := m.f 28 2 }) t)

/-- What THERMAL_PARAMS needs. -/
def State.thermNeed (s : State) : CmdNeed :=
  { defs := [(16, 1), (17, 1), (18, 2), (20, 4), (24, 4), (28, 2)], pre := s.thermFields, objs := fun _ => [.power] }

/-- THERMAL_PARAMS (R452, R514). -/
def execThermalParams (ch : Channel) (retries : BitVec 4) (s : State) : Host.Outcome State Fault Refusal :=
  act s (s.command ch 0x16 s.thermNeed fun m => s.thermParams m retries.toNat)

/-! ### TIMESYNC (R353) -/

/-- The offset of a TIMESYNC. -/
def State.syncOffset (s : State) (m : Cmd) : Int :=
  (m.f 24 8 : Int) + s.settingInt 0x0104 - (s.tb.capture.toNat : Int) - s.tb.capAdj

/-- A reel round is open. -/
def State.roundOpen (s : State) : Bool := s.reel.rounds.toList.any (·.opened)

/-- TIMESYNC is refused. -/
def State.syncRefused (s : State) (m : Cmd) : Bool :=
  let o := s.syncOffset m
  s.tb.lastCap.isNone || m.f 16 2 != s.tb.seq.toNat ||
    (if m.f 18 1 = 0 then decide (o < 0) || s.anyIn true || s.roundOpen else decide (1000000 < o.natAbs))

/-- An offset saturated to 32 bits (R355). -/
def satOffset (o : Int) : W32 := BitVec.ofInt 32 (max (-(2 ^ 31 - 1)) (min (2 ^ 31 - 1) o))

/-- TIMESYNC after its field checks. -/
def State.timesync (s : State) (m : Cmd) : Ends × State :=
  let o := s.syncOffset m
  let slew := m.f 18 1 == 1
  let w := (BitVec.ofInt 64 o).toNat
  if s.syncRefused m then (.no 5 0 0, s)
  else
    let tb := { s.tb with synced := true, lastOffset := satOffset o }
    let tb := if slew then { tb with slewRemain := o, nextSlew := s.now + s.setting 0x0105 }
      else { tb with slewRemain := 0, now := BitVec.ofInt 64 (s.now + o) }
    (⟨0, 0, 0, leBytes 8 w⟩, { s with tb := tb }.log 0x0105 12 (if slew then 2 else 1) false
      (leBytes 8 w ++ leBytes 2 (m.f 16 2) ++ leBytes 1 (m.f 18 1) ++ leBytes 5 0))

/-- What TIMESYNC needs. -/
def syncNeed : CmdNeed :=
  { defs := [(16, 2), (18, 1), (24, 8)], pre := fun m => checks [(decide (1 < m.f 18 1), .bad 18)], objs := fun _ => [.timeBase] }

/-- TIMESYNC (R353). -/
def execTimesync (ch : Channel) (s : State) : Host.Outcome State Fault Refusal :=
  act s (s.command ch 0x1F syncNeed s.timesync)

/-! ### READ_CONTACT_SHEET (R382, R451) -/

/-- The entries that a request copies: those not consumed, at most MAX. -/
def State.sheetOut (s : State) (m : Cmd) : List (List Byte) :=
  ((s.sheet.ring.drop (s.sheet.ring.length - s.sheet.occ)).take (m.f 16 4))

/-- The number of the first entry that can be copied. -/
def Sheet.first (c : Sheet) : W32 := c.wr - BitVec.ofNat 32 (min c.occ c.ring.length)

/-- READ_CONTACT_SHEET after its field checks. -/
def State.readSheetCmd (s : State) (m : Cmd) : Ends × State :=
  let es := s.sheetOut m
  let f := s.sheet.first
  if s.sheet.spillOn then (.no 5 0 1, s)
  else
    let s := s.putBuffer (m.f 24 8) es.flatten
    (⟨0, 0, 0, leBytes 4 f.toNat ++ leBytes 4 es.length⟩,
      if (m.f 20 1).testBit 0 then { s with sheet := { s.sheet with rd := f + BitVec.ofNat 32 es.length } } else s)

/-- The fields of READ_CONTACT_SHEET. -/
def sheetFields (m : Cmd) : Option Ends :=
  checks [extraBits m 20 1 1, (decide (m.f 16 4 < 1 ∨ 32768 < m.f 16 4), .bad 16), (bufBad m 24 (32 * m.f 16 4), .bad 24)]

/-- What READ_CONTACT_SHEET needs. -/
def sheetNeed : CmdNeed := { defs := [(16, 4), (20, 1), (24, 8)], pre := sheetFields, objs := fun _ => [.sheet] }

/-- READ_CONTACT_SHEET (R451). -/
def execReadContactSheet (ch : Channel) (s : State) : Host.Outcome State Fault Refusal :=
  act s (s.command ch 0x12 sheetNeed s.readSheetCmd)

end Sys2Proof.Machine
end

