-- ==== Sys2Proof/Machine/MailSlice.lean ====
section
/-! DEFINITION. Commands on slices: START and STOP_BATH (R444, R445, R473), SLICE_SERVICE (R446, R468), PATCH_BRACKET (R447), SET_CUT
(R553, R554), DUMP_SLICE (R556 to R558), REPAIR (R342, R343, R484). -/

namespace Sys2Proof.Machine

/-! ### START and STOP_BATH -/

/-- START after its field checks: the slices start at the first edge at or after EDGE_NS (R444). -/
def State.startCmd (s : State) (m : Cmd) : (Ends × State) ⊕ (Cmd × State) :=
  let ks := slicesOf (m.f 16 4)
  match ks.find? fun k => !((s.sl k).armed && (s.sl k).state == .ready) with
  | some k => .inl (s.refuseSlice k, s)
  | none =>
    let e := if m.f 24 8 < s.now then 0 else m.f 24 8
    .inr ({ m with mask := BitVec.ofNat 32 (m.f 16 4) },
      ks.foldl (fun s k => s.mod k fun x => { x with startAt := some e }) s)

/-- What START needs. -/
def State.startNeed (s : State) : CmdNeed :=
  { defs := [(16, 4), (24, 8)], pre := fun m => checks [(s.absent (m.f 16 4), .bad 16)]
    objs := fun m => (slicesOf (m.f 16 4)).map .slice }

/-- START (R444). -/
def execStart (ch : Channel) (s : State) : Host.Outcome State Fault Refusal :=
  act s (s.commandGo ch 0x07 s.startNeed s.startCmd)

/-- A slice of a list has one end of a timed stream whose other end stays RUNNING outside it (R473). -/
def State.splitsStream (s : State) (ks : List Nat) (k : Nat) : Bool :=
  (s.sl k).armedStreams.any fun t =>
    t.peerSlice && !ks.contains t.peer && (s.sl t.peer).state == .running && (s.sl t.peer).drain.isNone &&
      (s.sl t.peer).armedStreams.any fun u => u.id == t.id && counterpart k t.peer t u

/-- A RUNNING slice is to stop at its frame end (R445, R446). -/
def State.stopAtEnd (s : State) (k cause : Nat) (target : SliceState) : State :=
  s.mod k fun x => { x with drain := some ⟨cause, target, 0⟩ }

/-- STOP_BATH after its field checks (R445, R467). -/
def State.stopBath (s : State) (m : Cmd) : (Ends × State) ⊕ (Cmd × State) :=
  let all := slicesOf (m.f 16 4)
  let ks := all.filter fun k => (s.sl k).state == .running
  match (all.find? fun k => (s.sl k).state == .cold).or (ks.find? (s.splitsStream ks)) with
  | some k => .inl (s.refuseSlice k, s)
  | none =>
    if ks.isEmpty then .inl (⟨0, 0, 0, []⟩, s)
    else .inr ({ m with mask := maskOf ks }, ks.foldl (fun s k =>
      if m.f 20 1 = 0 then s.stopAtEnd k 1 .ready else (s.drainTo k 2 .ready 0).abortWork k 3 0) s)

/-- What STOP_BATH needs. -/
def State.stopNeed (s : State) : CmdNeed :=
  { defs := [(16, 4), (20, 1)], pre := fun m => checks [(s.absent (m.f 16 4), .bad 16), (decide (1 < m.f 20 1), .bad 20)]
    objs := fun m => (slicesOf (m.f 16 4)).map .slice }

/-- STOP_BATH (R445). -/
def execStopBath (ch : Channel) (s : State) : Host.Outcome State Fault Refusal :=
  act s (s.commandGo ch 0x08 s.stopNeed s.stopBath)

/-! ### SLICE_SERVICE (R446, R468, R474, R478) -/

/-- The slice domain resets: the slice's semaphores are abandoned, its stores and its configuration hold nothing (R418, R471,
R474). -/
def State.resetTo (s : State) (k : Nat) (st : SliceState) : State :=
  let s := (s.abandonAll k).cleanFrames k 0 3140
  let x := s.sl k
  (s.mod k fun _ => { Slice.reset with
    state := x.state, retired := x.retired, seq := { Seq.reset with nextKey := x.seq.nextKey } }).toState k st

/-- A slice asks the power manager to wake it (R518). -/
def State.askWake (s : State) (k : Nat) : State :=
  if s.power.wakes.contains k then s else { s with power := { s.power with wakes := s.power.wakes ++ [k] } }

/-- The slice is retired, by REPAIR or in manufacture. -/
def State.isRetired (s : State) (k : Nat) : Bool := (s.sl k).retired || s.chip.mfgRetired.getLsbD k

/-- The transition that an action asks for is one of R468. -/
def State.serviceOk (s : State) (k action : Nat) : Bool :=
  match action, (s.sl k).state with
  | 0, .running => !s.splitsStream [k] k
  | 0, .ready | 0, .faulted | 1, .service | 2, .ready | 2, .faulted | 2, .service => true
  | 3, .cold | 3, .faulted | 3, .service => true
  | 3, .ready => !(s.sl k).armed
  | 4, .off => !s.isRetired k
  | _, _ => false

/-- SLICE_SERVICE after its field checks. -/
def State.sliceService (s : State) (m : Cmd) : (Ends × State) ⊕ (Cmd × State) :=
  let k := m.f 16 1
  let a := m.f 17 1
  let go (t : State) : (Ends × State) ⊕ (Cmd × State) := .inr ({ m with target := a }, t)
  let ends (t : State) : (Ends × State) ⊕ (Cmd × State) := .inl (⟨0, 0, 0, [BitVec.ofNat 8 (t.sl k).state.code]⟩, t)
  if !s.serviceOk k a then .inl (s.refuseSlice k, s)
  else match a with
  | 0 => if (s.sl k).state = .running then go (s.stopAtEnd k 3 .service) else ends (s.toState k .service)
  | 1 => ends (s.toState k .ready)
  | 2 => go (s.resetTo k .cold)
  | 3 => ends (s.resetTo k .off)
  | _ => go (s.askWake k)

/-- What SLICE_SERVICE needs. -/
def State.serviceNeed (s : State) : CmdNeed :=
  { defs := [(16, 1), (17, 1)]
    pre := fun m => checks [(!s.present.contains (m.f 16 1), .bad 16), (decide (4 < m.f 17 1), .bad 17)]
    objs := fun m => [.slice (m.f 16 1)] }

/-- SLICE_SERVICE (R446). -/
def execSliceService (ch : Channel) (s : State) : Host.Outcome State Fault Refusal :=
  act s (s.commandGo ch 0x09 s.serviceNeed s.sliceService)

/-! ### PATCH_BRACKET (R136, R138, R447) -/

/-- The registers and values of a request. -/
def Cmd.patches (m : Cmd) : List (Nat × W64) :=
  (List.range (m.f 18 1)).map fun i => (m.f (20 + i) 1, BitVec.ofNat 64 (m.f (24 + 8 * i) 8))

/-- The fields of PATCH_BRACKET; a register named twice is one (R447). -/
def State.patchFields (s : State) (m : Cmd) : Option Ends :=
  let n := m.f 18 1
  let bank := m.f 19 1
  let reg (i : Nat) : Nat := m.f (20 + i) 1
  let bad (i : Nat) : Bool := decide (i < n) && (decide (64 ≤ reg i) || (List.range i).any fun j => reg j == reg i)
  checks ([extraBits m 17 1 1, (!s.present.contains (m.f 16 1), .bad 16), (decide (n < 1 ∨ 4 < n), .bad 18),
    (decide (1 < bank) && bank != 0xFF, .bad 19)] ++ (List.range 4).map fun i => (bad i, .bad (20 + i)))

/-- The frame at whose end a stopped or running slice next swaps its brackets. -/
def Slice.swapFrame (x : Slice) : W64 := if x.startInc && x.state != .running then x.seq.frame + 1 else x.seq.frame

/-- PATCH_BRACKET after its field checks: all registers in one core cycle, the program's writes of that cycle before them (R136,
R137). -/
def State.patchBracket (s : State) (m : Cmd) : Ends × State :=
  let k := m.f 16 1
  let x := s.sl k
  let active := if x.bracket then 1 else 0
  if !x.armed then (s.refuseSlice k, s)
  else if m.f 19 1 = active then (.no 13 k 0, s)
  else
    let ps := m.patches
    let s := ps.foldl (fun s p => (s.cleanInactive k p.1).mod k fun x => x.setParamIn p.1 p.2) s
    let s := s.mod k fun x => { x with
      patched := ps.map (·.1) ++ x.patched.filter fun n => !ps.any (·.1 == n)
      sticky := if (m.f 17 1).testBit 0 then ps ++ x.sticky.filter (fun e => !ps.any (·.1 == e.1)) else x.sticky }
    let s := ps.foldl (fun s p => if justWritten p.1 s.now x.progNs then s.sameCycle k p.1 p.2 else s)
      (s.mod k fun y => { y with hostNs := ps.foldl (fun l p => noteWrite p.1 s.now l) y.hostNs })
    (⟨0, 0, 0, leBytes 8 x.swapFrame.toNat ++ leBytes 1 (1 - active)⟩, s)

/-- What PATCH_BRACKET needs. -/
def State.patchNeed (s : State) : CmdNeed :=
  { defs := [(16, 8), (24, 32)], pre := s.patchFields, objs := fun m => [.slice (m.f 16 1)] }

/-- PATCH_BRACKET (R447). -/
def execPatchBracket (ch : Channel) (s : State) : Host.Outcome State Fault Refusal :=
  act s (s.command ch 0x11 s.patchNeed s.patchBracket)

/-! ### SET_CUT (R553, R554) -/

/-- The words of the active bank. -/
def Slice.bankWords (x : Slice) : List Nat :=
  (List.range ((x.armedProg.map (·.length)).getD 0)).map fun i => x.imem.readLe ((if x.bank then 262144 else 0) + 16 * i) 16

/-- The words of a routine that the slice holds. -/
def Slice.cachedWords (x : Slice) (id : Nat) : List Nat :=
  match x.libcache.find? (fun r => r.1 == id) with
  | none => []
  | some r => (List.range (r.2.length / 16)).map fun i => fieldOf r.2 (16 * i) 16

/-- An index on a STRIP or on a member of its group is moved to the group's ENDSTRIP. -/
def stripEnd (ws : List Nat) (i : Nat) : Nat :=
  let op (w : Nat) : Nat := bits w 127 120
  let inside := (ws.take (i + 1)).foldl (fun o w => if op w = 0x03 then true else if op w = 0x04 then false else o) false
  if inside then i + (ws.drop i).findIdx (fun w => op w == 0x04) else i

/-- The routine that a request names. -/
def Cmd.cutRoutine (m : Cmd) : Option Nat := if (m.f 17 1).testBit 1 then some (m.f 18 2) else none

/-- The words that a cut's index counts in; at top level up to the TICKWAIT. -/
def Slice.cutWords (x : Slice) (rt : Option Nat) : List Nat :=
  match rt with
  | some id => x.cachedWords id
  | none => x.bankWords.takeWhile fun w => bits w 127 120 != 0x07

/-- The fields of SET_CUT; those that only an ENABLE uses are not judged for a slice that holds nothing (log 21). -/
def State.cutFields (s : State) (m : Cmd) : Option Ends :=
  let x := s.sl (m.f 16 1)
  let judged := (m.f 17 1).testBit 0 && x.state != .off && x.state != .cold
  checks [extraBits m 17 1 2, (!s.present.contains (m.f 16 1), .bad 16),
    (judged && decide ((x.cutWords m.cutRoutine).length ≤ m.f 20 4), .bad 20),
    (judged && m.f 24 8 != 0 && decide (m.f 24 8 < x.seq.frame.toNat), .bad 24)]

/-- Issue has passed an index in the current frame. -/
def Slice.passed (x : Slice) (i : Nat) (rt : Option Nat) : Bool :=
  match rt with
  | some id => decide (i < ((x.seq.seen.find? (·.1 == id)).map (·.2)).getD 0)
  | none =>
    let top := match x.seq.stack.getLast? with | some c => c.pc | none => x.seq.pc
    decide (i < top)

/-- A cut below what has issued: the running instructions are aborted with ABORT_CUT (R554). -/
def State.lateCut (s : State) (k i : Nat) (rt : Option Nat) : State :=
  let op := bits ((((s.sl k).cutWords rt)[i]?).getD 0) 127 120
  let f := (s.sl k).seq.frame.toNat
  (((s.modSeq k fun q => { q with cutStop := true }).logFault k 0x0701 i rt op 0xFF f).drainTo k 5 .faulted 0x0701).abortWork
    k 5 0x0701

/-- SET_CUT after its field checks. -/
def State.setCut (s : State) (m : Cmd) : Ends × State :=
  let k := m.f 16 1
  let x := s.sl k
  let rt := m.cutRoutine
  let i := stripEnd (match rt with | some id => x.cachedWords id | none => x.bankWords) (m.f 20 4)
  if x.state = .off ∨ x.state = .cold then (s.refuseSlice k, s)
  else if !(m.f 17 1).testBit 0 then
    (⟨0, 0, 0, []⟩, s.mod k fun x => { x with cut := ⟨0, false, none, false, 0, false⟩ })
  else
    let next := m.f 24 8 == 0
    let f : W64 := if !next then BitVec.ofNat 64 (m.f 24 8) else if x.state = .running then x.seq.frame + 1 else x.swapFrame
    let s := s.mod k fun x => { x with cut := ⟨i, true, rt, false, f, next⟩ }
    (⟨0, 0, 0, leBytes 8 f.toNat⟩,
      if x.state = .running ∧ !next ∧ f = x.seq.frame ∧ x.passed i rt then s.lateCut k i rt else s)

/-- What SET_CUT needs. -/
def State.cutNeed (s : State) : CmdNeed :=
  { defs := [(16, 1), (17, 1), (18, 2), (20, 4), (24, 8)], pre := s.cutFields, objs := fun m => [.slice (m.f 16 1)] }

/-- SET_CUT (R553). -/
def execSetCut (ch : Channel) (s : State) : Host.Outcome State Fault Refusal :=
  act s (s.command ch 0x14 s.cutNeed s.setCut)

/-! ### DUMP_SLICE (R556 to R558) -/

/-- Bytes in words of 8. -/
def wordsOf8 : List Byte → List (List Byte)
  | a :: b :: c :: d :: e :: f :: g :: h :: r => [a, b, c, d, e, f, g, h] :: wordsOf8 r
  | [] => []
  | l => [l]

/-- Words of configuration memory as a dump shows them, with the number that cannot be read: any word of a frame marked
uncorrectable may be one (R498, R557). `i` counts the words from the start of `frame`. -/
def State.dumpWords (s : State) (k frame : Nat) : Nat → List (List Byte) → (List Byte × Nat) × State
  | _, [] => (([], 0), s)
  | i, w :: ws =>
    if s.frameBad k (frame + i / 32) then
      let d := s.draw
      let r := d.2.dumpWords k frame (i + 1) ws
      if d.1 % 2 = 1 then ((leBytes 8 0xDEADDEADDEADDEAD ++ r.1.1, r.1.2 + 1), r.2) else ((w ++ r.1.1, r.1.2), r.2)
    else
      let r := s.dumpWords k frame (i + 1) ws
      ((w ++ r.1.1, r.1.2), r.2)

/-- The call stack of the SEQ part: return index and routine, outermost first; entries not in use are free. -/
def State.dumpStack (s : State) (k : Nat) : List Byte × State :=
  let q := (s.sl k).seq
  let used := (q.stack.reverse.take 4).flatMap fun c => leBytes 2 c.pc ++ leBytes 2 (c.routine.getD 0xFFFF)
  let d := s.freeBytes (16 - used.length)
  (used ++ d.1, d.2)

/-- The SEQ part (R558). -/
def State.dumpSeq (s : State) (k : Nat) : List Byte × State :=
  let x := s.sl k
  let q := x.seq
  let cmp := (List.range 4).foldl (fun n i =>
    n + (if (q.cmp[i]?).getD false then 2 ^ i else 0) + (if (q.cmpOpen[i]?).getD false then 2 ^ (i + 4) else 0)) 0
  let st := s.dumpStack k
  (leBytes 8 x.seqStatus ++ leBytes 8 q.frame.toNat ++ (q.cnt.toList.flatMap fun n => leBytes 4 n.toNat) ++ leBytes 1 cmp ++
    leBytes 1 (if x.bracket then 1 else 0) ++ leBytes 2 0 ++ st.1 ++ (q.tileFmt.toList.flatMap fun f => leBytes 1 f) ++
    leBytes 8 (s.readCut (8 * k)) ++ List.replicate 20 0, st.2)

/-- One open meter slot in the layout of R75; what it says of a closing is free. -/
def State.dumpMeter (s : State) (k i : Nat) : List Byte × State :=
  let m := ((s.sl k).slots[i]?).getD ⟨none, 0, false, false⟩
  let d := s.draw
  (leBytes 8 (m.amax + (if m.seen then 2 ^ 32 else 0) + (if m.nonfin then 2 ^ 33 else 0) + d.1 % 2 ^ 11 * 2 ^ 34), d.2)

/-- A list of pieces of a dump, one after the other. -/
def State.dumpList (s : State) (f : State → Nat → List Byte × State) : List Nat → List Byte × State
  | [] => ([], s)
  | i :: is =>
    let a := f s i
    let r := a.2.dumpList f is
    (a.1 ++ r.1, r.2)

/-- The registers of a bracket as bytes. -/
def bracketBytes (v : Vector W64 64) : List Byte := v.toList.flatMap fun w => leBytes 8 w.toNat

/-- One part of a dump: its bytes, the number of words that cannot be read (R557). -/
def State.dumpPart (s : State) (k p : Nat) : (List Byte × Nat) × State :=
  let x := s.sl k
  let bank (b : Bool) : (List Byte × Nat) × State :=
    s.dumpWords k (if b then 1024 else 0) 0 (wordsOf8 (x.imem.readN (if b then 262144 else 0) 262144))
  let plain (r : List Byte × State) : (List Byte × Nat) × State := ((r.1, 0), r.2)
  match p with
  | 0 => plain (s.dumpSeq k)
  | 1 => s.dumpWords k 3072 0 (wordsOf8 (bracketBytes x.brk0 ++ bracketBytes x.brk1))
  | 2 => ((x.tiles.readN 0 524288, 0), s)
  | 3 => ((x.store.readN 0 25165824, 0), s)
  | 4 => s.dumpWords k 2048 0 (wordsOf8 (x.desc.readN 0 262144))
  | 5 => bank x.bank
  | 6 => bank (!x.bank)
  | 7 => plain (s.dumpList (fun s i => s.dumpMeter k i) (List.range 8))
  | _ => (((List.range 10).flatMap fun i => leBytes 8 (x.perf.read (0x30 + 8 * i)), 0), s)

/-- A part with its header. -/
def State.dumpWhole (s : State) (k p : Nat) : List Byte × State :=
  let r := s.dumpPart k p
  (leBytes 4 p ++ leBytes 4 r.1.1.length ++ leBytes 4 r.1.2 ++ leBytes 4 0 ++ r.1.1, r.2)

/-- Bytes of each part (R557). -/
def partBytes : Nat → Nat
  | 0 => 128 | 1 => 1024 | 2 => 524288 | 3 => 25165824 | 4 | 5 | 6 => 262144 | 7 => 64 | _ => 80

/-- The whole dump of a slice: header, then the parts in ascending order. -/
def State.dump (s : State) (k parts : Nat) : List Byte × State :=
  let total := (maskBits 9 parts).foldl (fun n p => n + 16 + partBytes p) 64
  let r := s.dumpList (fun s p => s.dumpWhole k p) (maskBits 9 parts)
  (leBytes 4 0x44534C31 ++ leBytes 2 1 ++ leBytes 1 k ++ leBytes 1 (s.sl k).state.code ++ leBytes 4 parts ++ leBytes 4 0 ++
    leBytes 8 s.now ++ leBytes 8 (s.readSliceState k) ++ leBytes 8 total ++ List.replicate 24 0 ++ r.1, r.2)

/-- The fields of DUMP_SLICE. -/
def State.dumpFields (s : State) (m : Cmd) : Option Ends :=
  checks [(!s.present.contains (m.f 16 1), .bad 16), (decide (512 ≤ m.f 20 4), .bad 20), (bufBad m 24 (m.f 32 4), .bad 24)]

/-- The dump that a request asks for, where nothing refuses it. -/
def State.dumpCheck (s : State) (m : Cmd) : Option Ends :=
  let k := m.f 16 1
  let st := (s.sl k).state
  let need := (maskBits 9 (m.f 20 4)).foldl (fun n p => n + 16 + partBytes p) 64
  checks [(st == .off || st == .running || st == .draining, s.refuseSlice k), (decide (m.f 32 4 < need), .no 7 0 need)]

/-- DUMP_SLICE after its field checks. -/
def State.dumpSlice (s : State) (m : Cmd) : Ends × State :=
  match s.dumpCheck m with
  | some e => (e, s)
  | none =>
    let r := s.dump (m.f 16 1) (m.f 20 4)
    (⟨0, 0, 0, leBytes 4 r.1.length⟩, r.2.putBuffer (m.f 24 8) r.1)

/-- What DUMP_SLICE needs. -/
def State.dumpNeed (s : State) : CmdNeed :=
  { defs := [(16, 1), (20, 4), (24, 8), (32, 4)], pre := s.dumpFields, objs := fun m => [.slice (m.f 16 1)] }

/-- DUMP_SLICE (R556). -/
def execDumpSlice (ch : Channel) (s : State) : Host.Outcome State Fault Refusal :=
  act s (s.command ch 0x13 s.dumpNeed s.dumpSlice)

/-! ### REPAIR (R341 to R343, R455, R484) -/

/-- REFUSED naming a column and its state. -/
def State.refuseCol (s : State) (c : Nat) : Ends := .no 5 c (s.col c).state.code

/-- The fields of REPAIR. -/
def State.repairFields (s : State) (m : Cmd) : Option Ends :=
  let spare := m.f 16 1 == 1
  checks [(decide (m.f 16 1 < 1 ∨ 4 < m.f 16 1), .bad 16), (!s.present.contains (m.f 17 1), .bad 17),
    (spare && decide (3 < m.f 18 1), .bad 18), (spare && decide (13 < m.f 19 1), .bad 19)]

/-- SPARE_BANK (R342, R455). A bank that is being spared already answers BUSY even where its copy has taken its tier's last spare:
DEDUCED from R455, unsafe (log 28). -/
def State.spareCheck (s : State) (c tier bank : Nat) : Option Ends :=
  let x := s.col c
  checks [(x.copy.any fun k => k.tier == tier && k.bank == bank, .no 4 c 0), (x.state != .live && x.state != .sparing, s.refuseCol c), ((x.sparesLeft tier).isEmpty, s.refuseCol c),
    (x.copy.isSome || decide (4 ≤ s.copies), .no 4 c 0)]

/-- What an action needs (R342, R343, R467, R468, R484). -/
def State.repairCheck (s : State) (m : Cmd) : Option Ends :=
  let n := m.f 17 1
  let st := (s.sl n).state
  match m.f 16 1 with
  | 1 => s.spareCheck n (m.f 18 1) (m.f 19 1)
  | 2 => checks [((s.col n).state != .live && (s.col n).state != .sparing, s.refuseCol n)]
  | 3 =>
    checks [(st == .running || st == .draining || (st == .ready && (s.sl n).armed), s.refuseSlice n)]
  | _ => checks [(st != .off || !(s.sl n).retired || s.chip.mfgRetired.getLsbD n, s.refuseSlice n)]

/-- A slice is retired (R484). -/
def State.retireSlice (s : State) (k retries : Nat) : State :=
  let old := s.avail
  let s := s.setRetired k true retries
  let s := { s with power := { s.power with wakes := s.power.wakes.filter (· != k) } }
  let s := if (s.sl k).state = .off then s else s.resetTo k .off
  let s := s.mod k fun x => { x with retired := true }
  if s.avail = old then s else s.logAvail k

/-- REPAIR after its field checks. -/
def State.repair (s : State) (m : Cmd) (retries : Nat) : (Ends × State) ⊕ (Cmd × State) :=
  let n := m.f 17 1
  match (s.repairCheck m).or (s.storeBlocked) with
  | some e => .inl (e, s)
  | none =>
    match m.f 16 1 with
    | 1 => .inr (m, s.startSpare n (m.f 18 1) (m.f 19 1))
    | 2 => .inr (m, s.startRetire n)
    | 3 =>
      if writeFails retries then .inl (.no 5 896 0, s.sectorWrite 896 retries)
      else .inl (⟨0, 0, 0, [0]⟩, s.retireSlice n retries)
    | _ => .inr (m, s.askWake n)

/-- What a REPAIR acts on: a column or a slice. -/
def Cmd.repairObj (m : Cmd) : Obj := if m.f 16 1 ≤ 2 then .column (m.f 17 1) else .slice (m.f 17 1)

/-- What REPAIR needs. -/
def State.repairNeed (s : State) : CmdNeed :=
  { defs := [(16, 1), (17, 1), (18, 1), (19, 1)], pre := s.repairFields, objs := fun m => [m.repairObj] }

/-- REPAIR; a retirement goes on at once (R343, R455). -/
def execRepair (ch : Channel) (retries : BitVec 4) (s : State) : Host.Outcome State Fault Refusal :=
  act s (if (s.cmdOf ch 0x1E).isNone then s
    else (s.commandGo ch 0x1E s.repairNeed fun m => s.repair m retries.toNat).retireGo)

end Sys2Proof.Machine
end

