-- ==== Sys2Proof/Machine/Migrate.lean ====
section
/-! DEFINITION. MIGRATE (R446, R479 to R483) and the events that carry it on: the copy's end and the bound on external writes.
What an edge does to a migration stands with the edges. -/

namespace Sys2Proof.Machine

/-! ### MIGRATE (R479) -/

/-- The fields of MIGRATE. -/
def State.migrateFields (s : State) (m : Cmd) : Option Ends :=
  checks [(!s.present.contains (m.f 16 1), .bad 16), (!s.present.contains (m.f 17 1), .bad 17),
    (m.f 20 4 != 0 && decide (m.f 20 4 < 1000 ∨ 100000000 < m.f 20 4), .bad 20)]

/-- The source can be moved: it runs, or is READY and armed, or has faulted for another cause than a configuration frame. -/
def Slice.movable (x : Slice) : Bool :=
  x.armed && (x.state == .running || x.state == .ready ||
    (x.state == .faulted && x.cause != 6 && x.fault != 0x0601)) && x.armedStreams.isEmpty

/-- The destination can take a placement. -/
def State.freeSlice (s : State) (k : Nat) : Bool := (s.sl k).state == .ready && s.isAvail k && !(s.sl k).armed

/-- MIGRATE after its field checks: a RUNNING source stops at E1. -/
def State.migrate (s : State) (m : Cmd) : (Ends × State) ⊕ (Cmd × State) :=
  let a := m.f 16 1
  let b := m.f 17 1
  if !(s.sl a).movable then .inl (s.refuseSlice a, s)
  else if a = b ∨ !s.freeSlice b then .inl (s.refuseSlice b, s)
  else
    match (⟨s, b, a, ((s.sl a).armedProg.map (·.image)).getD [], false⟩ : Verify).verdict with
    | .error r => .inl (r.ends, s)
    | .ok _ =>
      .inr ({ m with migr := some ⟨a, b, 1, (s.sl a).epoch, 0, 0⟩ },
        if (s.sl a).state = .running then s.stopAtEnd a 4 .ready else s)

/-- What MIGRATE needs. -/
def State.migrateNeed (s : State) : CmdNeed :=
  { defs := [(16, 2), (20, 4)], pre := s.migrateFields, objs := fun m => [.slice (m.f 16 1), .slice (m.f 17 1)] }

/-- MIGRATE (R481, steps 1 and 2). -/
def execMigrate (ch : Channel) (s : State) : Host.Outcome State Fault Refusal :=
  act s (s.commandGo ch 0x0A s.migrateNeed s.migrate)

/-! ### The copy (R481, step 5) -/

/-- The migration of a channel whose source's epoch is retired. -/
def State.copying (s : State) (ch : Channel) : Option (Cmd × Migration) :=
  s.migrations.find? fun p => p.1.chan == ch.val && p.2.phase == 3

/-- External writes of a slice that are not acknowledged. -/
def State.unacked (s : State) (k : Nat) : Bool :=
  (s.ports.tags ++ s.ports.waits).any fun t => t.slice == k && t.acc.kind != 0

/-- A frame that the copy reads is marked: the active bank, the descriptor table, the brackets (R483, R496). -/
def State.copyBad (s : State) (k : Nat) : Bool :=
  let lo := if (s.sl k).bank then 1024 else 0
  s.scrub.bad.any fun f => f.1 == k && (decide (lo ≤ f.2 ∧ f.2 < lo + 1024) || decide (2048 ≤ f.2 ∧ f.2 < 3076))

/-- Copy `n` bytes of one memory at `from` over another at `at_`. -/
def Mem.copyIn (m : Mem) (at_ : Nat) (src : Mem) (start n : Nat) : Mem :=
  (src.filter fun c => decide (start ≤ c.1 ∧ c.1 < start + n)).foldl (fun m c => m.write (c.1 - start + at_) c.2) (m.clear at_ n)

/-- The descriptor table under a new epoch: every descriptor in it, one that has dimensions, takes it (R117, R480, log 30). -/
def retag (epoch : Nat) (m : Mem) : Mem :=
  (List.range 2048).foldl (fun m h =>
    if (⟨h, m.readN (128 * h) 128⟩ : VDesc).ndim = 0 then m else m.write (128 * h + 0x18) (BitVec.ofNat 8 epoch)) m

/-- The byte offset of the active bank. -/
def Slice.bankBase (x : Slice) : Nat := if x.bank then 262144 else 0

/-- What the destination holds after the copy; SEQ_FRAME goes with the counters (log 30). -/
def Slice.take (y x : Slice) (epoch : Nat) : Slice :=
  { y with
    store := x.store, tiles := x.tiles, desc := retag epoch x.desc, epoch := epoch
    imem := y.imem.copyIn y.bankBase x.imem x.bankBase 262144
    prog0 := if y.bank then y.prog0 else x.prog
    prog1 := if y.bank then x.prog else y.prog1
    loaded := false
    bracket := x.bracket, brk0 := x.brk0, brk1 := x.brk1, sticky := x.sticky, patched := x.patched, pwrites := x.pwrites
    progNs := x.progNs, hostNs := x.hostNs
    seq := { y.seq with cnt := x.seq.cnt, cmp := x.seq.cmp, tileFmt := x.seq.tileFmt, frame := x.seq.frame }
    slots := x.slots, mtr := x.mtr, cring := x.cring, recOut := [], libcache := x.libcache, startInc := x.startInc }

/-- Semaphores of one slice pass to another. -/
def State.passSems (s : State) (a b : Nat) : State :=
  (s.heldBy a).foldl (fun s n => s.modSem n fun m => { m with owner := BitVec.ofNat 12 b }) s

/-- The source becomes FAULTED and the destination stays as it was (R483). -/
def State.abandonMigration (s : State) (p : Cmd × Migration) (unacked fault : Nat) : State :=
  let (m, g) := p
  let s := s.log 0x0100 14 3 false (objData g.src 0 unacked 0)
  let s := s.mod g.src fun x => { x with fault := if fault = 0 then x.fault else fault }
  let s := if (s.sl g.src).state = .faulted then s else s.toState g.src .faulted
  s.endCmd m 5 g.src 5 []

/-- The copy ends: nothing that the source sent is unanswered, and every frame read was whole. -/
def State.copyDone (s : State) (p : Cmd × Migration) : State :=
  let (m, g) := p
  if s.copyBad g.src then s.abandonMigration p 0 0x0601
  else
    let x := s.sl g.src
    let s := (s.mod g.dst fun y => y.take x ((g.oldEpoch + 1) % 256)).passSems g.src g.dst
    let s := (s.cleanFrames g.dst (if (s.sl g.dst).bank then 1024 else 0) 1024).cleanFrames g.dst 2048 1028
    s.setMigr m { g with phase := 6, drainBy := s.now }

/-- MIGRATE_COPY_DONE (R481, steps 4 and 5). -/
def execMigrateCopyDone (ch : Channel) (s : State) : Host.Outcome State Fault Refusal :=
  act s (match s.copying ch with
    | none => s
    | some p => if s.unacked p.2.src then s else s.copyDone p)

/-- MIGRATE_DRAIN_TIMEOUT: writes of the source are unanswered when DRAIN_NS has passed (R483). -/
def execMigrateDrainTimeout (ch : Channel) (unacked : W32) (s : State) : Host.Outcome State Fault Refusal :=
  act s (match s.copying ch with
    | none => s
    | some p => if !s.unacked p.2.src ∨ s.now < p.2.drainBy then s else s.abandonMigration p unacked.toNat 0)

end Sys2Proof.Machine
end

