-- ==== Sys2Proof/Machine/MailStart.lean ====
section
/-! DEFINITION. The start of mailbox requests (R426, R430, R434, R437, R562). -/

namespace Sys2Proof.Machine

/-- A channel whose next request can start (R426). -/
def Chan.canStart (x : Chan) : Bool :=
  !x.reqs.isEmpty && x.running.isNone && decide (x.cpls.length < 64) && x.held.isEmpty

/-- The channel that firmware serves next (R426). -/
def State.nextChannel (s : State) : Option Nat :=
  ((List.range 16).map fun i => (s.fw.rrLast + 1 + i) % 16).find? fun c => (s.chan c).canStart

/-- What a command needs, by its code (R438). -/
def State.needOf (s : State) (code : Nat) : CmdNeed :=
  match code with
  | 0x01 => { defs := [(16, 8)] }
  | 0x03 => libNeed
  | 0x04 => s.loadNeed
  | 0x05 => s.verifyNeed
  | 0x06 => s.armNeed
  | 0x07 => s.startNeed
  | 0x08 => s.stopNeed
  | 0x09 => s.serviceNeed
  | 0x0A => s.migrateNeed
  | 0x0B => s.setNeed
  | 0x0C => s.getNeed
  | 0x0D => s.poolNeed
  | 0x0E => s.openNeed
  | 0x0F => s.closeNeed
  | 0x10 => s.queryNeed
  | 0x11 => s.patchNeed
  | 0x12 => sheetNeed
  | 0x13 => s.dumpNeed
  | 0x14 => s.cutNeed
  | 0x15 => s.capNeed
  | 0x16 => s.thermNeed
  | 0x17 => s.stageNeed
  | 0x18 => s.activateNeed
  | 0x19 | 0x1A => slotsNeed
  | 0x1B => certNeed
  | 0x1C => attestNeed
  | 0x1E => s.repairNeed
  | 0x1F => syncNeed
  | _ => { defs := [] }

/-- A command whose fields pass holds from its start what it acts on; one that fails them holds nothing and ends by them (R434). -/
def State.holds (s : State) (m : Cmd) : Cmd :=
  let n := s.needOf m.code
  if (n.fields m).isNone then { m with objs := n.objs m } else m

/-- What ends a command at its start: its fields pass, but what it needs is held (R434, R437, R562). -/
def State.busyAtStart (s : State) (m : Cmd) : Option Ends :=
  let n := s.needOf m.code
  if (n.fields m).isNone then s.busy n m else none

/-- MAILBOX_REQUEST_START: the request's common checks or BUSY end it, or its command runs (R426, R434, R562). -/
def State.requestStart (s : State) : State :=
  if !s.fw.running then s else
    match s.nextChannel with
    | none => s
    | some c =>
      let m := (s.chan c).reqs.headD []
      let s := { s with fw := { s.fw with rrLast := c } }.modChan c fun x =>
        { x with reqs := x.reqs.drop 1, reqRd := x.reqRd + 1 }
      let cmd := s.newCmd c m
      match (s.headerBad c m).or (s.busyAtStart cmd) with
      | some e => s.postCpl c (cplMsg (cmd.f 4 4) cmd.code e.status 0 e.a e.b e.res)
      | none => s.modChan c fun x => { x with running := some (s.holds cmd) }

/-- MAILBOX_REQUEST_START (R426). -/
def execMailboxRequestStart (s : State) : Host.Outcome State Fault Refusal := act s s.requestStart

end Sys2Proof.Machine
end

