-- ==== Sys2Proof/Machine/Moves.lean ====
section
/-! DEFINITION. The meanings of the instructions of the move engine, 0x70 to 0x73 (R191 to R203): each issues and, where
its unit is free, starts (R125, R542); what its units of progress compute is its own function of Machine/. -/

namespace Sys2Proof.Machine

/-- MOVE (R196): copies a tensor position by position with one conversion. -/
def execMove (k : SliceId) (f : Fields) (s : State) : Host.Outcome State Fault Refusal :=
  act s (s.issueEngine k.val 0x70 f)

/-- MOVET (R201): copies a tensor with its two innermost dimensions exchanged through transpose buffers. -/
def execMovet (k : SliceId) (f : Fields) (s : State) : Host.Outcome State Fault Refusal :=
  act s (s.issueEngine k.val 0x71 f)

/-- FILL (R197): writes a converted immediate at every present position. -/
def execFill (k : SliceId) (f : Fields) (s : State) : Host.Outcome State Fault Refusal :=
  act s (s.issueEngine k.val 0x72 f)

/-- PROOF (R198): proof-reads a planar tensor, writing lower and upper bounds. -/
def execProof (k : SliceId) (f : Fields) (s : State) : Host.Outcome State Fault Refusal :=
  act s (s.issueEngine k.val 0x73 f)

end Sys2Proof.Machine
end

