-- ==== Sys2Proof/Machine/Mport.lean ====
section
/-! DEFINITION. Responses at the MPORTs (R395 to R397): those to slice instructions, to page fixes (R292), to a command's buffer
accesses (R429), and to contact-sheet spill (R382). -/

namespace Sys2Proof.Machine

/-- The fault of a response's status: EXT_ERROR or EXT_POISON (R541). -/
def respFault (status : Nat) : Nat := if status = 1 then 0x0302 else 0x0303

/-- A response whose request is not outstanding (R397). -/
def State.stray (s : State) : State := { s with ports := { s.ports with mpStray := sat16 s.ports.mpStray 1 } }

/-! ### Slice instructions (R397) -/

/-- A write touches an external granule. -/
def ElemWrite.touches (w : ElemWrite) (pa : Nat) : Bool := w.parts.any fun p => p.space == .ext && granuleOf p.addr == pa

/-- Put back bits, each byte as a free value says. -/
def State.putSome (s : State) (k : Nat) : List BitWrite → State
  | [] => s
  | p :: ps => (if s.draw.1 % 2 = 1 then s.draw.2.putPart k p else s.draw.2).putSome k ps

/-- A slice instruction meets ERROR or POISON at an access: it stops in the unit that made it. In the granule each byte of a write is
old or new; with POISON an atomic leaves it unchanged, with ERROR each lane is updated or not (R104, R147, R397). -/
def State.extFault (s : State) (t : MTag) (status : Nat) : State :=
  match s.running t.slice t.key with
  | none => s
  | some (e, r) =>
    let pa := t.acc.pa
    if stoppedStatus r.status then s
    else if e.unit = 4 ∨ e.unit = 5 then s.faultRunning t.slice e r (respFault status) t.acc.operand pa
    else
      let u := max r.pend.floor (min t.acc.unit r.done)
      let hit (w : ElemWrite) : Bool := decide (t.acc.kind = 1 ∧ u ≤ w.unit) && w.touches pa
      let s := (r.undo.filter hit).foldl (fun s w => s.putSome t.slice w.parts) s
      let left (w : Rmw) : Bool := !(decide (t.acc.kind = 2 ∧ status = 2 ∧ w.unit = u) &&
        w.place.any fun p => p.1 == .ext && granuleOf p.2 == pa)
      let x := s.keepUnits t.slice u e
        { r with undo := r.undo.filter fun w => !hit w, pend := { r.pend with rmws := r.pend.rmws.filter left } }
      x.2.faultRunning t.slice e x.1 (respFault status) t.acc.operand pa

/-- The response to a slice's tag: the tag is free for the next access that waits for one; an error faults its instruction, if that
still runs (R26, R397). -/
def State.tagAnswer (s : State) (n : W12) (status : Nat) : State :=
  match s.ports.tags.find? (fun t => t.tag == n) with
  | none => s.stray
  | some t =>
    let s := { s with ports := { s.ports with tags := s.ports.tags.filter fun x => x.tag != n } }.serveTags
    if status = 0 then s else s.countErr.extFault t status

/-! ### Page fixes (R292) -/

/-- The granules that a fix of a page writes. -/
def KvPool.pageGranules (p : KvPool) (g : KvGroup) (i : Nat) : List Nat :=
  (List.range p.streams).flatMap fun st =>
    (List.range (p.pe / 64)).map (fun j => p.elemPa g.column g.num st i + 64 * j) ++
      (List.range (ceilDiv p.ps 64)).map fun j => granuleOf (p.scalePa g.column g.num st i) + 64 * j

/-- A write of a fix meets an error: its instruction, if it still runs, faults; the context is to be faded from that page, whose bytes are
old or new (R292, R397). -/
def State.fixError (s : State) (n l page status : Nat) (g : KvGroup) (p : KvPool) : State :=
  let pas := p.pageGranules g (page % p.z)
  let pa := (pas[s.draw.1 % max 1 pas.length]?).getD 0
  let s := s.draw.2.countErr
  let ws := ((s.layer n l).map fun x => x.fixParts p g).getD []
  let s := { s.writeBits (freeSome s.free ws) with free := s.free + ws.length }
  let s := match s.kv.waiters.find? fun w => w.ctx == n && w.layer == l && w.kind == .fix with
    | none => s
    | some w =>
      match s.running w.slice w.key with
      | none => s
      | some (e, r) => if stoppedStatus r.status then s else s.faultRunning w.slice e r (respFault status) 0 pa
  s.addErrFade ⟨n, page * 16, none⟩

/-- The response to a write of a fix into an external pool. -/
def State.fixAnswer (s : State) (n l status : Nat) : State :=
  let page := ((s.layer n l).map KvLayer.k).getD 0
  match s.groupOf n l page with
  | none => s.stray
  | some (g, p) =>
    if p.emul ∨ ((s.layer n l).map (·.tray)) ≠ some .fixing then s.stray
    else if status = 0 then s else s.fixError n l page status g p

/-! ### Buffers of commands (R429) -/

/-- A command that uses a host buffer: its effect, and the offset of the address of the buffer that it writes. -/
structure Service where
  run   : Cmd → Ends × State
  reads : Bool
  out   : Option Nat

/-- The commands that use a host buffer (R439 to R455). -/
def State.service (s : State) (m : Cmd) : Option Service :=
  match m.code with
  | 0x03 => some ⟨s.loadLibrary, true, none⟩
  | 0x04 => some ⟨s.loadProgram, true, none⟩
  | 0x05 => some ⟨s.verifyProgram, true, if (m.f 20 1).testBit 1 then some 40 else none⟩
  | 0x10 => some ⟨s.seqQuery, false, some 24⟩
  | 0x12 => some ⟨s.readSheetCmd, false, some 24⟩
  | 0x13 => some ⟨s.dumpSlice, false, some 24⟩
  | 0x17 => some ⟨fun m => s.stage m 0, true, none⟩
  | 0x1B => some ⟨s.getCert, false, some 24⟩
  | 0x1C => some ⟨s.attest, true, some 40⟩
  | _ => none

/-- The command's buffer is read before it can end like this: its state checks come first. -/
def Ends.afterRead (e : Ends) : Bool := !([4, 5, 12, 14, 19].contains e.status)

/-- A buffer access of a command fails: it ends MEMORY_ERROR; what it wrote stays, each byte that the failed write may have changed is old
or new, nothing else has changed (R397, R429). -/
def State.bufferError (s : State) (m : Cmd) (kind written : Nat) : State :=
  match s.service m with
  | none => s.stray
  | some v =>
    if (s.refused (s.needOf m.code) m).isSome then s.stray
    else
      let e := v.run m
      match kind, v.out with
      | 0, _ => if v.reads && e.1.afterRead then s.countErr.finish m (.no 18 0 0) else s.stray
      | 1, some off =>
        if e.1.status ≠ 0 then s.stray
        else
          let pa := m.f off 8
          let rest := (List.range (64 - written % 64)).map fun j => (pa + written + j, e.2.ext.read (pa + written + j))
          ({ s.countErr with
              ext := (freeSome e.2.free rest).foldl (fun (x : Mem) (c : Nat × Byte) => x.write c.1 c.2) (s.ext.writeN pa (e.2.ext.readN pa written)),
              free := e.2.free + rest.length }).finish m (.no 18 0 written)
      | _, _ => s.stray

/-- The response to a buffer access of the command that runs on a channel. -/
def State.bufferAnswer (s : State) (ch : Channel) (kind status written : Nat) : State :=
  match (s.chan ch.val).running with
  | none => s.stray
  | some m =>
    if !s.fw.running ∨ m.begun ∨ (s.service m).isNone then s.stray
    else if status = 0 then s else s.bufferError m kind written

/-! ### Spill (R382) -/

/-- The response to the copy of a contact-sheet entry: an error ends spill; which unconsumed entry it copied is free, and so are the bytes
of that copy, since they may or may not have changed (R382, R397). -/
def State.spillAnswer (s : State) (status : Nat) : State :=
  if !s.sheet.spillOn then s.stray
  else if status = 0 then s
  else
    let n := s.sheet.wr.toNat + 2 ^ 32 - 1 - s.draw.1 % max 1 s.sheet.occ
    let d := s.draw.2.freeBytes 32
    { d.2.countErr with
        sheet := { d.2.sheet with spillOn := false, spillErr := true },
        ext := d.2.ext.writeN (s.sheet.base.toNat * 4096 + n % 2 ^ s.sheet.log2.toNat * 32) d.1 }

/-! ### Completion records (R150) -/

/-- The response to the write of a slice's oldest record in external memory that is not answered: WR advances; an error drops the record,
each of its bytes is old or new, and the next record takes its slot (R150, R397). -/
def State.recordAnswer (s : State) (k : SliceId) (status : Nat) : State :=
  match (s.sl k.val).recOut with
  | [] => s.stray
  | o :: os =>
    if o.undo.isEmpty then s.stray
    else if status = 0 then
      (s.mod k.val fun x => { x with cring := { x.cring with wr := x.cring.wr + 1 } }).sendRecords k.val os
    else (((s.countErr).putSome k.val o.undo).recordLost k.val o.data).sendRecords k.val os

/-! ### The command -/

/-- MPORT_RESPONSE (R397). A reserved KIND or STATUS cannot arrive (log 8). -/
def execMportResponse (r : MResp) (s : State) : Host.Outcome State Fault Refusal :=
  act s (if r.kind = 3 ∨ r.status = 3 then s else
    match r.req with
    | .tag t => s.tagAnswer t r.status.toNat
    | .fix ctx layer => s.fixAnswer ctx.toNat layer.toNat r.status.toNat
    | .command ch written => s.bufferAnswer ch r.kind.toNat r.status.toNat written.toNat
    | .spill => s.spillAnswer r.status.toNat
    | .record k => s.recordAnswer k r.status.toNat)

end Sys2Proof.Machine
end

