-- ==== Sys2Proof/Machine/PowerSteps.lean ====
section
/-! DEFINITION. What the power manager does by itself, and the pins it answers (R34, R394, R502 to R523). -/

namespace Sys2Proof.Machine

/-- SUPPLY_WARN_N asserts: before READY it is only recorded (R414); else the clamp starts, and a pending change is abandoned
(R394, R423, R522). -/
def State.warn (s : State) : State :=
  let s := { s with pins := { s.pins with supplyWarn := true } }
  if s.start.phase ≠ .ready then { s with start := { s.start with warnSeen := true } }
  else
    let old := s.power.op
    let s := { s with power := { s.power with
      op := 0, target := 0, voltMv := opMv 0, clamp := true, clampUntil := none, clamps := sat16 s.power.clamps 1 } }.dvfsIdle
    let s := (s.logPower 2 0xFFFF old 0 s.power.tenths 0).irqSet 3
    if 0 < s.floor ∧ 0 < old then s.logPower 5 0xFFFF old 0 s.power.tenths 0 else s

/-- SUPPLY_WARN_N deasserts: the clamp holds for 100 µs more (R522). -/
def State.warnOff (s : State) : State :=
  if !s.pins.supplyWarn then s else
    { s with
      pins := { s.pins with supplyWarn := false }
      power := { s.power with clampUntil := if s.power.clamp then some (s.now + 100000) else none } }

/-- The clamp ends (R522). -/
def State.clampEnd (s : State) : State :=
  match s.power.clampUntil with
  | none => s
  | some t =>
    if s.now < t then s
    else { s with power := { s.power with clamp := false, clampUntil := none } }.logPower 3 0xFFFF 0 0 s.power.tenths 0

/-- POWER_SAMPLE (R502). -/
def execPowerSample (quads : List W32) (hub emul : W32) (s : State) : Host.Outcome State Fault Refusal :=
  act s (if s.tb.running then s.sample (quads.map (·.toNat)) hub.toNat emul.toNat else s)

/-- CAP_WINDOW_CLOSE (R505). -/
def execCapWindowClose (s : State) : Host.Outcome State Fault Refusal :=
  act s (if s.start.phase = .ready ∧ s.power.windowEnd ≤ s.now then s.closeWindow else s)

/-- POWER_EVALUATION (R507 to R509). -/
def execPowerEvaluation (s : State) : Host.Outcome State Fault Refusal := act s s.evaluate

/-- THERMAL_EVALUATION: firmware's, paused while it does not run (R488, R512). -/
def execThermalEvaluation (s : State) : Host.Outcome State Fault Refusal :=
  act s (if s.fw.running && s.start.phase == .ready then s.quadList.foldl State.evalQuad s else s)

/-- LOGIC_SENSOR_SAMPLE (R511). -/
def execLogicSensorSample (temps : List (BitVec 10)) (hub : BitVec 10) (s : State) : Host.Outcome State Fault Refusal :=
  act s (s.sense temps hub)

/-- EMUL_LIMIT_STEP (R517). -/
def execEmulLimitStep (s : State) : Host.Outcome State Fault Refusal := act s s.emulStep

/-- ARRAY_CLOCK_GATE: the attention queue of a slice has been empty, with none running, for 1,024 core cycles (R520). -/
def execArrayClockGate (k : SliceId) (s : State) : Host.Outcome State Fault Refusal :=
  act s (if (s.sl k.val).flight.any (fun e => e.unit == 3) then s else s.mod k.val fun x => { x with arrayGated := true })

/-- DVFS_ACK (R394). -/
def execDvfsAck (s : State) : Host.Outcome State Fault Refusal := act s s.ack

/-- DVFS_SWITCH (R394). -/
def execDvfsSwitch (s : State) : Host.Outcome State Fault Refusal := act s s.switchPoint

/-- DVFS_TIMEOUT (R394). -/
def execDvfsTimeout (s : State) : Host.Outcome State Fault Refusal := act s s.abandonChange

/-- SUPPLY_WARN (R522). In reset only the pin changes. -/
def execSupplyWarn (s : State) : Host.Outcome State Fault Refusal :=
  if s.live then act s s.warn else .next { s with pins := { s.pins with supplyWarn := true } }

/-- SUPPLY_WARN_DEASSERTED (R522). In reset only the pin changes. -/
def execSupplyWarnDeasserted (s : State) : Host.Outcome State Fault Refusal :=
  if s.live then act s s.warnOff else .next { s with pins := { s.pins with supplyWarn := false } }

/-- CLAMP_END (R522). -/
def execClampEnd (s : State) : Host.Outcome State Fault Refusal := act s s.clampEnd

/-- REGULATOR_SETTLED (R34). -/
def execRegulatorSettled (s : State) : Host.Outcome State Fault Refusal := act s s.voltSettled

end Sys2Proof.Machine
end

