-- ==== Sys2Proof/Machine/Reductions.lean ====
section
/-! DEFINITION. The meanings of the reductions and scans of the vector engine, 0x60 to 0x67 (R181 to R190): each issues and, where
its unit is free, starts (R125, R542); what its units of progress compute is its own function of Machine/. -/

namespace Sys2Proof.Machine

/-- RSUM (R183): reduces each sequence to its sum by the fixed lane tree. -/
def execRsum (k : SliceId) (f : Fields) (s : State) : Host.Outcome State Fault Refusal :=
  act s (s.issueEngine k.val 0x60 f)

/-- RSUMSQ (R183): reduces each sequence to the sum of squares. -/
def execRsumsq (k : SliceId) (f : Fields) (s : State) : Host.Outcome State Fault Refusal :=
  act s (s.issueEngine k.val 0x61 f)

/-- RDOT (R183): reduces two sources to their dot product per sequence. -/
def execRdot (k : SliceId) (f : Fields) (s : State) : Host.Outcome State Fault Refusal :=
  act s (s.issueEngine k.val 0x62 f)

/-- RSUMC (R184): compensated double-word sum per sequence into hi and lo. -/
def execRsumc (k : SliceId) (f : Fields) (s : State) : Host.Outcome State Fault Refusal :=
  act s (s.issueEngine k.val 0x63 f)

/-- RMAX (R186): reduces each sequence to its maximum, optionally with its position. -/
def execRmax (k : SliceId) (f : Fields) (s : State) : Host.Outcome State Fault Refusal :=
  act s (s.issueEngine k.val 0x64 f)

/-- RMIN (R186): reduces each sequence to its minimum, optionally with its position. -/
def execRmin (k : SliceId) (f : Fields) (s : State) : Host.Outcome State Fault Refusal :=
  act s (s.issueEngine k.val 0x65 f)

/-- RMASK (R187): aNY, ALL or COUNT of a MASK1 source, optionally writing a comparator. -/
def execRmask (k : SliceId) (f : Fields) (s : State) : Host.Outcome State Fault Refusal :=
  act s (s.issueEngine k.val 0x66 f)

/-- SCAN (R189): running sum, maximum or minimum along the innermost dimensions. -/
def execScan (k : SliceId) (f : Fields) (s : State) : Host.Outcome State Fault Refusal :=
  act s (s.issueEngine k.val 0x67 f)

end Sys2Proof.Machine
end

