-- ==== Sys2Proof/Machine/ReelInstr.lean ====
section
/-! DEFINITION. The meanings of the instructions of the reel port, 0xA0 to 0xA2 (R309 to R322): each issues and, where
its unit is free, starts (R125, R542); what its units of progress compute is its own function of Machine/. -/

namespace Sys2Proof.Machine

/-- ROLL (R312): opens a reel round on a channel and injects the chip's own block. -/
def execRoll (k : SliceId) (f : Fields) (s : State) : Host.Outcome State Fault Refusal :=
  act s (s.issueEngine k.val 0xA0 f)

/-- TAKE (R320): waits until a step of a round has an outcome, reporting it and optionally writing a comparator. -/
def execTake (k : SliceId) (f : Fields) (s : State) : Host.Outcome State Fault Refusal :=
  act s (s.issueEngine k.val 0xA1 f)

/-- RELEASE (R321): frees the landing slot of a step of a round. -/
def execRelease (k : SliceId) (f : Fields) (s : State) : Host.Outcome State Fault Refusal :=
  act s (s.issueEngine k.val 0xA2 f)

end Sys2Proof.Machine
end

