-- ==== Sys2Proof/Machine/ReelSteps.lean ====
section
/-! DEFINITION. The steps of the reel engine: headers that arrive (R316), forwards, landings (R317), holds and waits that end
(R321, R324, R326), links (R403), abort markers (R404), credits (R403). -/

namespace Sys2Proof.Machine

/-- The number of a port: 0 REEL_A, 1 REEL_B. -/
def portNo (p : Bool) : Nat := if p then 1 else 0

/-- A header has arrived whole on a port whose link is up, and with it all of the block before: its CRC is checked, then the tee decides
(R316, R324). How long a block with a bad header is cannot be told from it, and its bytes that are counted are free (R327, log 50). -/
def State.headerIn (s : State) (p : Nat) (h : List Byte) : State :=
  if !(s.rport p).up then s else
    let s := match s.inProgress p with
      | some b => (s.arriveWhole b).freeBlocks
      | none => s
    let s := s.modRport p fun x => { x with rx := x.rx + 64 }
    if fieldOf h 60 4 ≠ crc32 (h.take 60) then
      let x := s.draw
      ((({ x.2 with reel := { x.2.reel with hdrCrc := sat16 x.2.reel.hdrCrc 1 } }).modRport p fun y =>
        { y with rx := y.rx + BitVec.ofNat 64 (64 * x.1) }).logReel 3 (fieldOf h 4 1 % 4) p 0 (fieldOf h 16 4) (fieldOf h 40 8)).irqSet 5
    else
      let b : Blk := ⟨s.reel.nextId, p, h, .passing, 1, 0⟩
      (({ s with reel := { s.reel with blocks := s.reel.blocks ++ [b], nextId := s.reel.nextId + 1 } }).arrive p).teeBlock b

/-! ### Landing (R317) -/

/-- Bytes written through a landing descriptor from an address on; none after one that faults. -/
def landBytes (t : Tensor) : Run → Int → List Byte → Run × List BitWrite
  | r, _, [] => (r, [])
  | r, a, b :: bs =>
    match locate r t a .write 0 0 with
    | (r, some (sp, x)) =>
      let y := landBytes t (r.poke sp x b) (a + 1) bs
      (y.1, ⟨sp, x, 0xFF, b⟩ :: y.2)
    | (r, none) => (r, [])

/-- One stream of a payload into its slot: element bytes, then scale bytes (R317). -/
def landStream (r : Run) (o : Option Tensor) (off : Int) (elems scales : List Byte) : Run × List BitWrite :=
  match o with
  | none => (r, [])
  | some t =>
    let x := landBytes t r (t.base + off) elems
    if x.1.fault.isSome then x else
      let y := landBytes t x.1 (t.scaleBase + off) scales
      (y.1, x.2 ++ y.2)

/-- The payload of a block lands in the slot of its step, and the step has its outcome (R317, R319, R324). -/
def State.landBlock (s : State) (b : Blk) (k : Nat) (payload : List Byte) : State :=
  let s := s.arriveWhole b
  let h := b.hdr
  let rch := fieldOf h 4 1 % 4
  let rd := s.round rch
  let pay := (payload ++ List.replicate (payloadBytes h) 0).take (payloadBytes h)
  let eb := fieldOf h 32 4
  let sb := fieldOf h 36 4
  let per := padded eb + padded sb
  let part (i off n : Nat) : List Byte := (pay.drop (i * per + off)).take n
  let off : Int := (rd.seq k % max 1 rd.nslot * rd.stride : Nat)
  let r := s.waitingRun (s.mkRun rd.slice 0 false false)
  let x := landStream r rd.land0 off (part 0 0 eb) (part 0 (padded eb) sb)
  let y := if x.1.fault.isSome ∨ fieldOf h 5 1 / 4 % 2 = 0 then (x.1, []) else
    landStream x.1 rd.land1 off (part 1 0 eb) (part 1 (padded eb) sb)
  if y.1.waits then s else
  let s := s.putRun rd.slice y.1
  let s := s.emulWritten [⟨0, x.2 ++ y.2⟩] s.ectl.poisoned
  let s := match y.1.fault with
    | some f => if f.code / 256 = 2 then s.transFault rd.slice f else s
    | none => s
  let o := if y.1.fault.isSome then 6 else if crc32 pay = fieldOf h 48 4 then 0 else 3
  (((s.setOutcome rch k o (fieldOf h 40 8)).setBlk b.id .passing).freeBlocks).wakeLandings

/-- The oldest block of a port whose state a test picks. -/
def State.blockOn (s : State) (p : Nat) (f : BlkState → Bool) : Option Blk :=
  s.reel.blocks.find? fun b => b.port == p && f b.state

/-! ### Cutting off (R324, R404) -/

/-- The block in progress on an inbound direction is discarded; its forward, if begun, ends with the abort marker. -/
def State.cutBlock (s : State) (p : Nat) : State :=
  match s.inProgress p with
  | none => s
  | some b =>
    let mine (o : OutItem) : Bool := o.isFwd && o.id == b.id
    let cut (x : ReelPort) : ReelPort :=
      { x with queue := x.queue.filter fun o => !mine o,
               cur := if x.cur.any mine then none else x.cur, aborted := x.aborted || x.cur.any mine }
    { s with reel := { s.reel with
        blocks := s.reel.blocks.filter (·.id != b.id), portA := cut s.reel.portA, portB := cut s.reel.portB } }

/-- Injection copies that leave on a port leave no more: their rounds may close (R313, R324). -/
def State.dropInjections (s : State) (p : Nat) : State :=
  (List.range 4).foldl (fun s r =>
    if (s.round r).left.contains p then
      (s.modRound r fun x => { x with left := x.left.filter (· != p), lost := true }).closeRound r
    else s) s

/-- The entries of a link that goes down: one for each open round, or one without a round (R324, R546). DESIGN CHOICE, unsafe (log 51). -/
def State.logDown (s : State) (p : Nat) : State :=
  match (List.range 4).filter fun r => (s.round r).opened with
  | [] => s.logReel 1 0 p 0 0 0
  | l => l.foldl (fun s r => s.logReel 1 r p 0 (s.round r).round 0) s

/-- The link of a port goes down: credits, what it was sending and receiving, and the steps that it carried (R324, R403). -/
def State.linkDown (s : State) (p : Nat) : State :=
  if !(s.rport p).up then s else
    let first := s.reel.portA.down = 0 ∧ s.reel.portB.down = 0
    let s := { s with reel := { s.reel with firstNs := if first then BitVec.ofNat 48 s.now else s.reel.firstNs } }
    let s := s.modRport p fun x => { x with up := false, credits := 0, cur := none, queue := [], down := sat16 x.down 1 }
    let s := ((s.logDown p).irqSet 5).cutBlock p
    (((s.stepsDown p).dropInjections p).freeBlocks).wakeLandings

/-! ### The commands -/

/-- REEL_HEADER_ARRIVE (R316). -/
def execReelHeaderArrive (port : Bool) (hdr : List Byte) (s : State) : Host.Outcome State Fault Refusal :=
  act s (s.headerIn (portNo port) hdr)

/-- REEL_FORWARD_START: an idle outbound direction starts its next block (R316). -/
def execReelForwardStart (port : Bool) (s : State) : Host.Outcome State Fault Refusal := act s (s.startOut (portNo port))

/-- REEL_LANDING_DONE: the oldest landing of a port has its payload whole (R317). -/
def execReelLandingDone (port : Bool) (payload : List Byte) (s : State) : Host.Outcome State Fault Refusal :=
  act s (match s.blockOn (portNo port) fun t => match t with | .landing _ => true | _ => false with
    | some b => match b.state with
      | .landing k => s.landBlock b k payload
      | _ => s
    | none => s)

/-- REEL_HOLD_EXPIRE: the oldest held block of a port passes, and its step ends MISSED when its round opens (R324). -/
def execReelHoldExpire (port : Bool) (s : State) : Host.Outcome State Fault Refusal :=
  act s (match s.blockOn (portNo port) fun t => match t with | .held n => decide (n ≤ s.now) | _ => false with
    | some b =>
      let h := b.hdr
      let s := s.logReel 6 (fieldOf h 4 1 % 4) b.port 0 (fieldOf h 16 4) (fieldOf h 40 8)
      ({ s with reel := { s.reel with
          expired := s.reel.expired ++ [h] } }).passBlock b
    | none => s)

/-- LANDING_WAIT_EXPIRE: the oldest landing of a port that has waited too long ends MISSED (R321). -/
def execLandingWaitExpire (port : Bool) (s : State) : Host.Outcome State Fault Refusal :=
  act s (match s.blockOn (portNo port) fun t => match t with | .waiting _ n => decide (n ≤ s.now) | _ => false with
    | some b => match b.state with
      | .waiting k _ => ((s.setOutcome (fieldOf b.hdr 4 1 % 4) k 4 (fieldOf b.hdr 40 8)).passBlock b).wakeLandings
      | _ => s
    | none => s)

/-- TAKE_TIMEOUT: the running TAKE of a slice has waited to its deadline; its step ends TIMEOUT (R320). -/
def execTakeTimeout (k : SliceId) (s : State) : Host.Outcome State Fault Refusal :=
  act s (match (s.sl k.val).flight.find? fun e => e.op == 0xA1 && e.run?.isSome && e.args.length == 2 with
    | some e =>
      if (e.args[1]?).getD 0 ≤ s.now then
        ((s.setOutcome e.takeStep.1 e.takeStep.2 2 0).takeLatch k.val e).wakeLandings
      else s
    | none => s)

/-- REEL_LINK_DOWN (R324, R403). -/
def execReelLinkDown (port : Bool) (s : State) : Host.Outcome State Fault Refusal := act s (s.linkDown (portNo port))

/-- REEL_LINK_UP (R403). -/
def execReelLinkUp (port : Bool) (s : State) : Host.Outcome State Fault Refusal :=
  act s (if (s.rport (portNo port)).up then s
    else (s.modRport (portNo port) fun x => { x with up := true }).logReel 2 0 (portNo port) 0 0 0)

/-- REEL_ABORT_MARKER (R404). -/
def execReelAbortMarker (port : Bool) (s : State) : Host.Outcome State Fault Refusal := act s (s.cutBlock (portNo port))

/-- REEL_CREDIT_RETURN: credits come back, up to 65,535 held, and the direction goes on (R403). -/
def execReelCreditReturn (port : Bool) (n : BitVec 5) (s : State) : Host.Outcome State Fault Refusal :=
  act s (
    let p := portNo port
    if !(s.rport p).up then s else
      ((s.modRport p fun x => { x with credits := min 65535 (x.credits + n.toNat) }).pump p).startInjection p)

end Sys2Proof.Machine
end

