-- ==== Sys2Proof/Machine/Scalar.lean ====
section
/-! DEFINITION. The meanings of the scalar instructions, 0x10 to 0x1A (R139, R156 to R159). -/

namespace Sys2Proof.Machine

/-- Write a counter. -/
def Slice.setCnt (x : Slice) (n : Fin 8) (v : W32) : Slice := { x with seq := { x.seq with cnt := x.seq.cnt.set n v } }

/-- The program writes a register of the inactive bracket (R136, R159). -/
def Slice.progParam (x : Slice) (p : Fin 64) (v : W64) (now : Nat) : Slice :=
  let y := x.setParamIn p.val v
  { y with progNs := noteWrite p.val now y.progNs, pwrites := if y.pwrites.contains p.val then y.pwrites else p.val :: y.pwrites }

/-- An instruction that writes a register of the inactive bracket, which makes its frame whole; a host patch of the same core cycle comes
after it (R137, R156, R159, R499). -/
def State.scalarParam (s : State) (k op : Nat) (p : Fin 64) (v : Slice → W64) : State :=
  s.gate k op (
    let x := s.sl k
    let t := (s.cleanInactive k p.val).scalar k op [] [] fun x => x.progParam p (v x) s.now
    if justWritten p.val s.now x.hostNs then t.sameCycle k p.val (x.paramIn p.val) else t)

/-- CSET (R156). -/
def execCset (k : SliceId) (n : Fin 8) (imm : W32) (s : State) : Host.Outcome State Fault Refusal :=
  act s (s.scalar k.val 0x10 [] [] fun x => x.setCnt n imm)

/-- CADD wraps (R156, R157). -/
def execCadd (k : SliceId) (n : Fin 8) (imm : W32) (s : State) : Host.Outcome State Fault Refusal :=
  act s (s.scalar k.val 0x11 [] [] fun x => x.setCnt n (x.seq.cnt[n] + imm))

/-- CADDC wraps (R156, R157). -/
def execCaddc (k : SliceId) (n m : Fin 8) (s : State) : Host.Outcome State Fault Refusal :=
  act s (s.scalar k.val 0x12 [] [] fun x => x.setCnt n (x.seq.cnt[n] + x.seq.cnt[m]))

/-- CLDP reads the active bracket (R136, R156). -/
def execCldp (k : SliceId) (n : Fin 8) (p : Fin 64) (s : State) : Host.Outcome State Fault Refusal :=
  act s (s.scalar k.val 0x13 [] [] fun x => x.setCnt n ((x.param p.val).setWidth 32))

/-- CCMPI (R156 to R158). -/
def execCcmpi (k : SliceId) (c : Fin 4) (n : Fin 8) (pred : BitVec 3) (signed : Bool) (imm : W32) (s : State) :
    Host.Outcome State Fault Refusal :=
  act s (s.scalar k.val 0x14 [] [c] fun x => x.setCmp c (scalarPred pred.toNat signed x.seq.cnt[n] imm))

/-- CCMPC (R156 to R158). -/
def execCcmpc (k : SliceId) (c : Fin 4) (n : Fin 8) (pred : BitVec 3) (signed : Bool) (m : Fin 8) (s : State) :
    Host.Outcome State Fault Refusal :=
  act s (s.scalar k.val 0x15 [] [c] fun x => x.setCmp c (scalarPred pred.toNat signed x.seq.cnt[n] x.seq.cnt[m]))

/-- CLOGIC waits for the comparators that it reads (R139, R156, R157). -/
def execClogic (k : SliceId) (c a b : Fin 4) (op : BitVec 3) (s : State) : Host.Outcome State Fault Refusal :=
  act s (s.scalar k.val 0x16 [a, b] [c] fun x => x.setCmp c (logicOp op.toNat x.seq.cmp[a] x.seq.cmp[b]))

/-- PSET sign-extends its immediate into the inactive bracket (R156, R159). -/
def execPset (k : SliceId) (p : Fin 64) (imm : BitVec 48) (s : State) : Host.Outcome State Fault Refusal :=
  act s (s.scalarParam k.val 0x17 p fun _ => imm.signExtend 64)

/-- PADD reads the active bracket and writes the inactive one (R156, R159). -/
def execPadd (k : SliceId) (p q : Fin 64) (imm : W32) (s : State) : Host.Outcome State Fault Refusal :=
  act s (s.scalarParam k.val 0x18 p fun x => x.param q.val + imm.signExtend 64)

/-- PFROMC zero-extends a counter into the inactive bracket (R156, R159). -/
def execPfromc (k : SliceId) (p : Fin 64) (n : Fin 8) (s : State) : Host.Outcome State Fault Refusal :=
  act s (s.scalarParam k.val 0x19 p fun x => x.seq.cnt[n].setWidth 64)

/-- CWRAP compares unsigned (R156). -/
def execCwrap (k : SliceId) (n : Fin 8) (imm : W32) (s : State) : Host.Outcome State Fault Refusal :=
  act s (s.scalar k.val 0x1A [] [] fun x => if imm.ule x.seq.cnt[n] then x.setCnt n (x.seq.cnt[n] - imm) else x)

end Sys2Proof.Machine
end

