-- ==== Sys2Proof/Machine/Vector.lean ====
section
/-! DEFINITION. The meanings of the element-wise instructions of the vector engine, 0x20 to 0x4E (R160 to R180): each issues and, where
its unit is free, starts (R125, R542); what its units of progress compute is its own function of Machine/. -/

namespace Sys2Proof.Machine

/-- ADD (R171): vector element-wise addition. -/
def execAdd (k : SliceId) (f : Fields) (s : State) : Host.Outcome State Fault Refusal :=
  act s (s.issueEngine k.val 0x20 f)

/-- SUB (R171): vector element-wise subtraction. -/
def execSub (k : SliceId) (f : Fields) (s : State) : Host.Outcome State Fault Refusal :=
  act s (s.issueEngine k.val 0x21 f)

/-- MUL (R171): vector element-wise multiplication. -/
def execMul (k : SliceId) (f : Fields) (s : State) : Host.Outcome State Fault Refusal :=
  act s (s.issueEngine k.val 0x22 f)

/-- FMA (R171): vector fused multiply-add with one rounding. -/
def execFma (k : SliceId) (f : Fields) (s : State) : Host.Outcome State Fault Refusal :=
  act s (s.issueEngine k.val 0x23 f)

/-- FNMA (R171): vector negated fused multiply-add with one rounding. -/
def execFnma (k : SliceId) (f : Fields) (s : State) : Host.Outcome State Fault Refusal :=
  act s (s.issueEngine k.val 0x24 f)

/-- DIV (R175): vector correctly rounded division. -/
def execDiv (k : SliceId) (f : Fields) (s : State) : Host.Outcome State Fault Refusal :=
  act s (s.issueEngine k.val 0x25 f)

/-- MIN (R172): vector element-wise minimum or minimumNumber. -/
def execMin (k : SliceId) (f : Fields) (s : State) : Host.Outcome State Fault Refusal :=
  act s (s.issueEngine k.val 0x26 f)

/-- MAX (R172): vector element-wise maximum or maximumNumber. -/
def execMax (k : SliceId) (f : Fields) (s : State) : Host.Outcome State Fault Refusal :=
  act s (s.issueEngine k.val 0x27 f)

/-- CLAMP (R172): vector clamp of a between b and c. -/
def execClamp (k : SliceId) (f : Fields) (s : State) : Host.Outcome State Fault Refusal :=
  act s (s.issueEngine k.val 0x28 f)

/-- ABS (R171): vector absolute value. -/
def execAbs (k : SliceId) (f : Fields) (s : State) : Host.Outcome State Fault Refusal :=
  act s (s.issueEngine k.val 0x29 f)

/-- NEG (R171): vector negation. -/
def execNeg (k : SliceId) (f : Fields) (s : State) : Host.Outcome State Fault Refusal :=
  act s (s.issueEngine k.val 0x2A f)

/-- COPYSIGN (R171): vector magnitude of a with the sign bit of b. -/
def execCopysign (k : SliceId) (f : Fields) (s : State) : Host.Outcome State Fault Refusal :=
  act s (s.issueEngine k.val 0x2B f)

/-- TWOSUM (R180): error-free sum: rounded sum to DST and exact error to SRCC. -/
def execTwosum (k : SliceId) (f : Fields) (s : State) : Host.Outcome State Fault Refusal :=
  act s (s.issueEngine k.val 0x2C f)

/-- TWOPROD (R180): error-free product: rounded product to DST and its error to SRCC, counting inexact low parts. -/
def execTwoprod (k : SliceId) (f : Fields) (s : State) : Host.Outcome State Fault Refusal :=
  act s (s.issueEngine k.val 0x2D f)

/-- ROUNDINT (R174): vector round to nearest integral value, ties to even. -/
def execRoundint (k : SliceId) (f : Fields) (s : State) : Host.Outcome State Fault Refusal :=
  act s (s.issueEngine k.val 0x2E f)

/-- BCAST (R174): writes a scalar at every present position. -/
def execBcast (k : SliceId) (f : Fields) (s : State) : Host.Outcome State Fault Refusal :=
  act s (s.issueEngine k.val 0x2F f)

/-- RCP (R175): vector correctly rounded reciprocal. -/
def execRcp (k : SliceId) (f : Fields) (s : State) : Host.Outcome State Fault Refusal :=
  act s (s.issueEngine k.val 0x30 f)

/-- SQRT (R175): vector correctly rounded square root. -/
def execSqrt (k : SliceId) (f : Fields) (s : State) : Host.Outcome State Fault Refusal :=
  act s (s.issueEngine k.val 0x31 f)

/-- RSQRT (R176): vector reciprocal square root within 1 ulp. -/
def execRsqrt (k : SliceId) (f : Fields) (s : State) : Host.Outcome State Fault Refusal :=
  act s (s.issueEngine k.val 0x32 f)

/-- EXP (R176): vector natural exponential. -/
def execExp (k : SliceId) (f : Fields) (s : State) : Host.Outcome State Fault Refusal :=
  act s (s.issueEngine k.val 0x33 f)

/-- EXP2 (R176): vector base-2 exponential. -/
def execExp2 (k : SliceId) (f : Fields) (s : State) : Host.Outcome State Fault Refusal :=
  act s (s.issueEngine k.val 0x34 f)

/-- LOG (R176): vector natural logarithm. -/
def execLog (k : SliceId) (f : Fields) (s : State) : Host.Outcome State Fault Refusal :=
  act s (s.issueEngine k.val 0x35 f)

/-- LOG2 (R176): vector base-2 logarithm. -/
def execLog2 (k : SliceId) (f : Fields) (s : State) : Host.Outcome State Fault Refusal :=
  act s (s.issueEngine k.val 0x36 f)

/-- TANH (R176): vector hyperbolic tangent. -/
def execTanh (k : SliceId) (f : Fields) (s : State) : Host.Outcome State Fault Refusal :=
  act s (s.issueEngine k.val 0x37 f)

/-- SIGMOID (R176): vector logistic sigmoid. -/
def execSigmoid (k : SliceId) (f : Fields) (s : State) : Host.Outcome State Fault Refusal :=
  act s (s.issueEngine k.val 0x38 f)

/-- SILU (R176): vector SiLU activation. -/
def execSilu (k : SliceId) (f : Fields) (s : State) : Host.Outcome State Fault Refusal :=
  act s (s.issueEngine k.val 0x39 f)

/-- GELU (R176): vector GELU activation in exact or tanh form. -/
def execGelu (k : SliceId) (f : Fields) (s : State) : Host.Outcome State Fault Refusal :=
  act s (s.issueEngine k.val 0x3A f)

/-- ERF (R176): vector error function. -/
def execErf (k : SliceId) (f : Fields) (s : State) : Host.Outcome State Fault Refusal :=
  act s (s.issueEngine k.val 0x3B f)

/-- SOFTPLUS (R176): vector softplus. -/
def execSoftplus (k : SliceId) (f : Fields) (s : State) : Host.Outcome State Fault Refusal :=
  act s (s.issueEngine k.val 0x3C f)

/-- SIN (R176): vector sine with exact argument reduction. -/
def execSin (k : SliceId) (f : Fields) (s : State) : Host.Outcome State Fault Refusal :=
  act s (s.issueEngine k.val 0x3D f)

/-- COS (R176): vector cosine with exact argument reduction. -/
def execCos (k : SliceId) (f : Fields) (s : State) : Host.Outcome State Fault Refusal :=
  act s (s.issueEngine k.val 0x3E f)

/-- CMP (R173): writes a MASK1 result of a quiet comparison predicate or totalOrder. -/
def execCmp (k : SliceId) (f : Fields) (s : State) : Host.Outcome State Fault Refusal :=
  act s (s.issueEngine k.val 0x40 f)

/-- CLASS (R173): writes MASK1 true where the class of a is selected by the class mask. -/
def execClassOf (k : SliceId) (f : Fields) (s : State) : Host.Outcome State Fault Refusal :=
  act s (s.issueEngine k.val 0x41 f)

/-- SELECT (R174): chooses a or b at each position by a MASK1 operand. -/
def execSelect (k : SliceId) (f : Fields) (s : State) : Host.Outcome State Fault Refusal :=
  act s (s.issueEngine k.val 0x42 f)

/-- AND (R170): bitwise AND of integers or masks. -/
def execAnd (k : SliceId) (f : Fields) (s : State) : Host.Outcome State Fault Refusal :=
  act s (s.issueEngine k.val 0x48 f)

/-- OR (R170): bitwise OR of integers or masks. -/
def execOr (k : SliceId) (f : Fields) (s : State) : Host.Outcome State Fault Refusal :=
  act s (s.issueEngine k.val 0x49 f)

/-- XOR (R170): bitwise XOR of integers or masks. -/
def execXor (k : SliceId) (f : Fields) (s : State) : Host.Outcome State Fault Refusal :=
  act s (s.issueEngine k.val 0x4A f)

/-- NOT (R170): bitwise NOT of integers or masks. -/
def execNot (k : SliceId) (f : Fields) (s : State) : Host.Outcome State Fault Refusal :=
  act s (s.issueEngine k.val 0x4B f)

/-- SHL (R170): integer shift left by an element amount. -/
def execShl (k : SliceId) (f : Fields) (s : State) : Host.Outcome State Fault Refusal :=
  act s (s.issueEngine k.val 0x4C f)

/-- SHR (R170): integer logical or arithmetic shift right. -/
def execShr (k : SliceId) (f : Fields) (s : State) : Host.Outcome State Fault Refusal :=
  act s (s.issueEngine k.val 0x4D f)

/-- IOTA (R174): writes the iteration position plus an immediate as INT32. -/
def execIota (k : SliceId) (f : Fields) (s : State) : Host.Outcome State Fault Refusal :=
  act s (s.issueEngine k.val 0x4E f)

end Sys2Proof.Machine
end

