-- ==== Sys2Proof/Machine/Dispatch.lean ====
section
/-! DEFINITION. What each command does: one arm for each constructor. -/

namespace Sys2Proof.Machine

/-- The effect of a command (R12, R115, R438 and the rules of the events), on everything but the queue. -/
def exec (i : Instr) (s : State) : Host.Outcome State Fault Refusal :=
  match i with
  | .nop k => Sys2Proof.Machine.execNop k s
  | .call k f => Sys2Proof.Machine.execCall k f s
  | .ret k => Sys2Proof.Machine.execRet k s
  | .strip k shape double => Sys2Proof.Machine.execStrip k shape double s
  | .endstrip k => Sys2Proof.Machine.execEndstrip k s
  | .waitAcquire k f => Sys2Proof.Machine.execWaitAcquire k f s
  | .waitDrain k f => Sys2Proof.Machine.execWaitDrain k f s
  | .signal k sem => Sys2Proof.Machine.execSignal k sem s
  | .tickwait k => Sys2Proof.Machine.execTickwait k s
  | .cset k n imm => Sys2Proof.Machine.execCset k n imm s
  | .cadd k n imm => Sys2Proof.Machine.execCadd k n imm s
  | .caddc k n m => Sys2Proof.Machine.execCaddc k n m s
  | .cldp k n p => Sys2Proof.Machine.execCldp k n p s
  | .ccmpi k c n pred signed imm => Sys2Proof.Machine.execCcmpi k c n pred signed imm s
  | .ccmpc k c n pred signed m => Sys2Proof.Machine.execCcmpc k c n pred signed m s
  | .clogic k c a b op => Sys2Proof.Machine.execClogic k c a b op s
  | .pset k p imm => Sys2Proof.Machine.execPset k p imm s
  | .padd k p q imm => Sys2Proof.Machine.execPadd k p q imm s
  | .pfromc k p n => Sys2Proof.Machine.execPfromc k p n s
  | .cwrap k n imm => Sys2Proof.Machine.execCwrap k n imm s
  | .add k f => Sys2Proof.Machine.execAdd k f s
  | .sub k f => Sys2Proof.Machine.execSub k f s
  | .mul k f => Sys2Proof.Machine.execMul k f s
  | .fma k f => Sys2Proof.Machine.execFma k f s
  | .fnma k f => Sys2Proof.Machine.execFnma k f s
  | .div k f => Sys2Proof.Machine.execDiv k f s
  | .min k f => Sys2Proof.Machine.execMin k f s
  | .max k f => Sys2Proof.Machine.execMax k f s
  | .clamp k f => Sys2Proof.Machine.execClamp k f s
  | .abs k f => Sys2Proof.Machine.execAbs k f s
  | .neg k f => Sys2Proof.Machine.execNeg k f s
  | .copysign k f => Sys2Proof.Machine.execCopysign k f s
  | .twosum k f => Sys2Proof.Machine.execTwosum k f s
  | .twoprod k f => Sys2Proof.Machine.execTwoprod k f s
  | .roundint k f => Sys2Proof.Machine.execRoundint k f s
  | .bcast k f => Sys2Proof.Machine.execBcast k f s
  | .rcp k f => Sys2Proof.Machine.execRcp k f s
  | .sqrt k f => Sys2Proof.Machine.execSqrt k f s
  | .rsqrt k f => Sys2Proof.Machine.execRsqrt k f s
  | .exp k f => Sys2Proof.Machine.execExp k f s
  | .exp2 k f => Sys2Proof.Machine.execExp2 k f s
  | .log k f => Sys2Proof.Machine.execLog k f s
  | .log2 k f => Sys2Proof.Machine.execLog2 k f s
  | .tanh k f => Sys2Proof.Machine.execTanh k f s
  | .sigmoid k f => Sys2Proof.Machine.execSigmoid k f s
  | .silu k f => Sys2Proof.Machine.execSilu k f s
  | .gelu k f => Sys2Proof.Machine.execGelu k f s
  | .erf k f => Sys2Proof.Machine.execErf k f s
  | .softplus k f => Sys2Proof.Machine.execSoftplus k f s
  | .sin k f => Sys2Proof.Machine.execSin k f s
  | .cos k f => Sys2Proof.Machine.execCos k f s
  | .cmp k f => Sys2Proof.Machine.execCmp k f s
  | .classOf k f => Sys2Proof.Machine.execClassOf k f s
  | .select k f => Sys2Proof.Machine.execSelect k f s
  | .and k f => Sys2Proof.Machine.execAnd k f s
  | .or k f => Sys2Proof.Machine.execOr k f s
  | .xor k f => Sys2Proof.Machine.execXor k f s
  | .not k f => Sys2Proof.Machine.execNot k f s
  | .shl k f => Sys2Proof.Machine.execShl k f s
  | .shr k f => Sys2Proof.Machine.execShr k f s
  | .iota k f => Sys2Proof.Machine.execIota k f s
  | .rsum k f => Sys2Proof.Machine.execRsum k f s
  | .rsumsq k f => Sys2Proof.Machine.execRsumsq k f s
  | .rdot k f => Sys2Proof.Machine.execRdot k f s
  | .rsumc k f => Sys2Proof.Machine.execRsumc k f s
  | .rmax k f => Sys2Proof.Machine.execRmax k f s
  | .rmin k f => Sys2Proof.Machine.execRmin k f s
  | .rmask k f => Sys2Proof.Machine.execRmask k f s
  | .scan k f => Sys2Proof.Machine.execScan k f s
  | .move k f => Sys2Proof.Machine.execMove k f s
  | .movet k f => Sys2Proof.Machine.execMovet k f s
  | .fill k f => Sys2Proof.Machine.execFill k f s
  | .proof k f => Sys2Proof.Machine.execProof k f s
  | .gather k f => Sys2Proof.Machine.execGather k f s
  | .scatter k f => Sys2Proof.Machine.execScatter k f s
  | .scatterAdd k f => Sys2Proof.Machine.execScatterAdd k f s
  | .scatterMax k f => Sys2Proof.Machine.execScatterMax k f s
  | .scatterMin k f => Sys2Proof.Machine.execScatterMin k f s
  | .attn k f => Sys2Proof.Machine.execAttn k f s
  | .merge k f => Sys2Proof.Machine.execMerge k f s
  | .expand k f => Sys2Proof.Machine.execExpand k f s
  | .attnBwd k f => Sys2Proof.Machine.execAttnBwd k f s
  | .roll k f => Sys2Proof.Machine.execRoll k f s
  | .take k f => Sys2Proof.Machine.execTake k f s
  | .release k f => Sys2Proof.Machine.execRelease k f s
  | .append k f => Sys2Proof.Machine.execAppend k f s
  | .fix k f => Sys2Proof.Machine.execFix k f s
  | .pageq k f => Sys2Proof.Machine.execPageq k f s
  | .instructionStart k u soft => Sys2Proof.Machine.execInstructionStart k u soft s
  | .instructionComplete k u => Sys2Proof.Machine.execInstructionComplete k u s
  | .predicateResolve k fall into => Sys2Proof.Machine.execPredicateResolve k fall into s
  | .sliceDrainDone k => Sys2Proof.Machine.execSliceDrainDone k s
  | .blockTickEdge => Sys2Proof.Machine.execBlockTickEdge s
  | .tickInEdge => Sys2Proof.Machine.execTickInEdge s
  | .flywheelEdge => Sys2Proof.Machine.execFlywheelEdge s
  | .heldEdge k => Sys2Proof.Machine.execHeldEdge k s
  | .timesyncEdge => Sys2Proof.Machine.execTimesyncEdge s
  | .slewStep => Sys2Proof.Machine.execSlewStep s
  | .timedBeatSend k stream => Sys2Proof.Machine.execTimedBeatSend k stream s
  | .timedBeatArrive b => Sys2Proof.Machine.execTimedBeatArrive b s
  | .beatLost k stream slot => Sys2Proof.Machine.execBeatLost k stream slot s
  | .skidRelease k stream => Sys2Proof.Machine.execSkidRelease k stream s
  | .waitTimeout k => Sys2Proof.Machine.execWaitTimeout k s
  | .waitForScan => Sys2Proof.Machine.execWaitForScan s
  | .trayFixDone ctx layer => Sys2Proof.Machine.execTrayFixDone ctx layer s
  | .fixWaitTimeout k => Sys2Proof.Machine.execFixWaitTimeout k s
  | .trayParkDone ctx layer => Sys2Proof.Machine.execTrayParkDone ctx layer s
  | .trayRestoreDone ctx layer => Sys2Proof.Machine.execTrayRestoreDone ctx layer s
  | .fadeStepStart pool => Sys2Proof.Machine.execFadeStepStart pool s
  | .fadeStepRecord ctx => Sys2Proof.Machine.execFadeStepRecord ctx s
  | .fadeStepWrite ctx => Sys2Proof.Machine.execFadeStepWrite ctx s
  | .fadeStepFinish ctx => Sys2Proof.Machine.execFadeStepFinish ctx s
  | .kvCloseFinish ctx => Sys2Proof.Machine.execKvCloseFinish ctx s
  | .kvHintUnpark src ctx => Sys2Proof.Machine.execKvHintUnpark src ctx s
  | .kvHintKeep src ctx => Sys2Proof.Machine.execKvHintKeep src ctx s
  | .reelHeaderArrive port hdr => Sys2Proof.Machine.execReelHeaderArrive port hdr s
  | .reelForwardStart port => Sys2Proof.Machine.execReelForwardStart port s
  | .reelLandingDone port payload => Sys2Proof.Machine.execReelLandingDone port payload s
  | .reelHoldExpire port => Sys2Proof.Machine.execReelHoldExpire port s
  | .landingWaitExpire port => Sys2Proof.Machine.execLandingWaitExpire port s
  | .takeTimeout k => Sys2Proof.Machine.execTakeTimeout k s
  | .reelLinkDown port => Sys2Proof.Machine.execReelLinkDown port s
  | .reelLinkUp port => Sys2Proof.Machine.execReelLinkUp port s
  | .reelAbortMarker port => Sys2Proof.Machine.execReelAbortMarker port s
  | .apertureWrite p b => Sys2Proof.Machine.execApertureWrite p b s
  | .apertureRead p b => Sys2Proof.Machine.execApertureRead p b s
  | .sportUp p => Sys2Proof.Machine.execSportUp p s
  | .sportDown p => Sys2Proof.Machine.execSportDown p s
  | .mportResponse r => Sys2Proof.Machine.execMportResponse r s
  | .translationWalkDone domain va => Sys2Proof.Machine.execTranslationWalkDone domain va s
  | .tlbInvalRange src domain pages => Sys2Proof.Machine.execTlbInvalRange src domain pages s
  | .tlbInvalWhole src domain => Sys2Proof.Machine.execTlbInvalWhole src domain s
  | .tlbInvalAll src => Sys2Proof.Machine.execTlbInvalAll src s
  | .tlbInvalDone => Sys2Proof.Machine.execTlbInvalDone s
  | .domSel src data => Sys2Proof.Machine.execDomSel src data s
  | .domCommit src => Sys2Proof.Machine.execDomCommit src s
  | .domCommitDone => Sys2Proof.Machine.execDomCommitDone s
  | .secCfgOwner src data => Sys2Proof.Machine.execSecCfgOwner src data s
  | .secUnlockGo src scope => Sys2Proof.Machine.execSecUnlockGo src scope s
  | .semTryAcquire src sem => Sys2Proof.Machine.execSemTryAcquire src sem s
  | .semRelease src sem => Sys2Proof.Machine.execSemRelease src sem s
  | .semForceRelease src sem => Sys2Proof.Machine.execSemForceRelease src sem s
  | .mbDoorbell src ch => Sys2Proof.Machine.execMbDoorbell src ch s
  | .mbCplPop src ch => Sys2Proof.Machine.execMbCplPop src ch s
  | .mailboxRequestStart => Sys2Proof.Machine.execMailboxRequestStart s
  | .commandTimeout ch => Sys2Proof.Machine.execCommandTimeout ch s
  | .csSpill src data => Sys2Proof.Machine.execCsSpill src data s
  | .csRd src data => Sys2Proof.Machine.execCsRd src data s
  | .cringPtrRd src k rd => Sys2Proof.Machine.execCringPtrRd src k rd s
  | .irqStatusClear src mask => Sys2Proof.Machine.execIrqStatusClear src mask s
  | .registerReadClear a => Sys2Proof.Machine.execRegisterReadClear a s
  | .registerWrite a data => Sys2Proof.Machine.execRegisterWrite a data s
  | .ping ch => Sys2Proof.Machine.execPing ch s
  | .getFeatures ch => Sys2Proof.Machine.execGetFeatures ch s
  | .loadLibrary ch => Sys2Proof.Machine.execLoadLibrary ch s
  | .loadProgram ch => Sys2Proof.Machine.execLoadProgram ch s
  | .verify ch => Sys2Proof.Machine.execVerify ch s
  | .arm ch => Sys2Proof.Machine.execArm ch s
  | .start ch => Sys2Proof.Machine.execStart ch s
  | .stopBath ch => Sys2Proof.Machine.execStopBath ch s
  | .sliceService ch => Sys2Proof.Machine.execSliceService ch s
  | .migrate ch => Sys2Proof.Machine.execMigrate ch s
  | .migrateDrainTimeout ch unacked => Sys2Proof.Machine.execMigrateDrainTimeout ch unacked s
  | .migrateCopyDone ch => Sys2Proof.Machine.execMigrateCopyDone ch s
  | .setSetting ch retries => Sys2Proof.Machine.execSetSetting ch retries s
  | .getSetting ch => Sys2Proof.Machine.execGetSetting ch s
  | .kvPoolConfig ch => Sys2Proof.Machine.execKvPoolConfig ch s
  | .kvSeqOpen ch => Sys2Proof.Machine.execKvSeqOpen ch s
  | .kvSeqClose ch => Sys2Proof.Machine.execKvSeqClose ch s
  | .kvSeqQuery ch => Sys2Proof.Machine.execKvSeqQuery ch s
  | .patchBracket ch => Sys2Proof.Machine.execPatchBracket ch s
  | .readContactSheet ch => Sys2Proof.Machine.execReadContactSheet ch s
  | .dumpSlice ch => Sys2Proof.Machine.execDumpSlice ch s
  | .setCut ch => Sys2Proof.Machine.execSetCut ch s
  | .powerCap ch retries => Sys2Proof.Machine.execPowerCap ch retries s
  | .thermalParams ch retries => Sys2Proof.Machine.execThermalParams ch retries s
  | .fwStage ch retries => Sys2Proof.Machine.execFwStage ch retries s
  | .fwActivate ch retries => Sys2Proof.Machine.execFwActivate ch retries s
  | .fwCommit ch retries => Sys2Proof.Machine.execFwCommit ch retries s
  | .fwRollback ch retries => Sys2Proof.Machine.execFwRollback ch retries s
  | .getCert ch => Sys2Proof.Machine.execGetCert ch s
  | .attest ch => Sys2Proof.Machine.execAttest ch s
  | .scrubStatus ch => Sys2Proof.Machine.execScrubStatus ch s
  | .repair ch retries => Sys2Proof.Machine.execRepair ch retries s
  | .timesync ch => Sys2Proof.Machine.execTimesync ch s
  | .fwBoot => Sys2Proof.Machine.execFwBoot s
  | .watchdogExpiry => Sys2Proof.Machine.execWatchdogExpiry s
  | .sliceEntryCheck k bad => Sys2Proof.Machine.execSliceEntryCheck k bad s
  | .wakeAdmit => Sys2Proof.Machine.execWakeAdmit s
  | .cfgScrubPass single double late => Sys2Proof.Machine.execCfgScrubPass single double late s
  | .spareCopyDone col retries => Sys2Proof.Machine.execSpareCopyDone col retries s
  | .emulPatrolPass ces ues => Sys2Proof.Machine.execEmulPatrolPass ces ues s
  | .emulThermalSample temps => Sys2Proof.Machine.execEmulThermalSample temps s
  | .emulHaltReport col => Sys2Proof.Machine.execEmulHaltReport col s
  | .emulTrainingDone failed lanes mapOk => Sys2Proof.Machine.execEmulTrainingDone failed lanes mapOk s
  | .emulInitDone => Sys2Proof.Machine.execEmulInitDone s
  | .powerSample quads hub emul => Sys2Proof.Machine.execPowerSample quads hub emul s
  | .capWindowClose => Sys2Proof.Machine.execCapWindowClose s
  | .powerEvaluation => Sys2Proof.Machine.execPowerEvaluation s
  | .thermalEvaluation => Sys2Proof.Machine.execThermalEvaluation s
  | .logicSensorSample temps hub => Sys2Proof.Machine.execLogicSensorSample temps hub s
  | .emulLimitStep => Sys2Proof.Machine.execEmulLimitStep s
  | .arrayClockGate k => Sys2Proof.Machine.execArrayClockGate k s
  | .dvfsAck => Sys2Proof.Machine.execDvfsAck s
  | .dvfsSwitch => Sys2Proof.Machine.execDvfsSwitch s
  | .dvfsTimeout => Sys2Proof.Machine.execDvfsTimeout s
  | .supplyWarn => Sys2Proof.Machine.execSupplyWarn s
  | .clampEnd => Sys2Proof.Machine.execClampEnd s
  | .enumAssign src data enumIn => Sys2Proof.Machine.execEnumAssign src data enumIn s
  | .resetAssert => Sys2Proof.Machine.execResetAssert s
  | .resetRelease => Sys2Proof.Machine.execResetRelease s
  | .pllLock lockUs => Sys2Proof.Machine.execPllLock lockUs s
  | .pllLockTimeout => Sys2Proof.Machine.execPllLockTimeout s
  | .zeroingDone => Sys2Proof.Machine.execZeroingDone s
  | .romBootDone => Sys2Proof.Machine.execRomBootDone s
  | .testInstructionLoad wir => Sys2Proof.Machine.execTestInstructionLoad wir s
  | .regulatorSettled => Sys2Proof.Machine.execRegulatorSettled s
  | .supplyWarnDeasserted => Sys2Proof.Machine.execSupplyWarnDeasserted s
  | .sportCreditReturn p vc => Sys2Proof.Machine.execSportCreditReturn p vc s
  | .reelCreditReturn port n => Sys2Proof.Machine.execReelCreditReturn port n s
  | .inboundVc2Beat p => Sys2Proof.Machine.execInboundVc2Beat p s
  | .ijtagInstrumentAccess inst => Sys2Proof.Machine.execIjtagInstrumentAccess inst s
  | .wrstnAssert => Sys2Proof.Machine.execWrstnAssert s

end Sys2Proof.Machine
end

