-- ==== Sys2Proof/Safety.lean ====
section
/-! DEFINITION. What counts as a safe run: the terms in which claims speak. -/

namespace Sys2Proof.Machine

/-- Every command that waits is well formed. -/
def State.queueOk (s : State) : Prop := s.pending.all Instr.wf = true

/-- Every memory of the block is in its canonical form. -/
def State.memOk (s : State) : Prop :=
  Mem.wf s.emul = true ∧ Mem.wf s.ext = true ∧
    ∀ k : Fin 32, Mem.wf (s.slices[k]).store = true ∧ Mem.wf (s.slices[k]).tiles = true ∧ Mem.wf (s.slices[k]).imem = true ∧
      Mem.wf (s.slices[k]).desc = true

/-- An element of a tile register, raw in a format (R133). -/
def Mem.element (m : Mem) (f : Fmt) (n i : Nat) : Nat :=
  if f = .mask1 then (m.read (n * 16384 + i / 8)).toNat / 2 ^ (i % 8) % 2
  else m.readLe (n * 16384 + i * (fmtBits f / 8)) (fmtBits f / 8)

/-! ### Sequencers -/

/-- The sequencer of a slice takes its next instruction now: the block is live, the slice runs with nothing that holds issue and its
clock runs, the instruction's configuration frame is whole (R498), and no cut is armed on it (R554). -/
def State.takes (s : State) (k : Nat) : Bool :=
  s.live && s.canIssue k && (s.fetchBad k).isNone && !(s.sl k).cutHits (s.sl k).seq.pc (s.sl k).seq.routine

/-- How far the routine in progress has issued in the frame, once the instruction at the pc has (R554). -/
def Slice.seenAfter (x : Slice) : List (Nat × Nat) :=
  match x.seq.routine with
  | none => x.seq.seen
  | some r => (r, max (((x.seq.seen.find? (·.1 == r)).map (·.2)).getD 0) (x.seq.pc + 1)) :: x.seq.seen.filter (·.1 != r)

/-- A slice whose sequencer has issued one more instruction and shows no stall (R154, R559); the pc is not moved. -/
def Slice.afterIssue (x : Slice) : Slice :=
  { x with
    perf := { x.perf with issued := x.perf.issued + 1, fetched := x.perf.fetched + 1 }
    seq := { x.seq with qfull := 0, interlock := false, predStall := false, seen := x.seenAfter } }

/-- The first check at issue that an engine instruction fails (R542). -/
def State.issueFault (s : State) (k op : Nat) (f : Fields) (grp : Bool) : Option IssueFault :=
  match s.issueCheck k op f grp with
  | .ok _ => none
  | .error e => some e

/-- Slice `k` becomes `y`; nothing else of the block changes. -/
def State.only (s : State) (k : SliceId) (y : Slice) : Host.Outcome State Fault Refusal := .next (s.setSl k.val y)

end Sys2Proof.Machine
end

