-- ==== Sys2Proof/Certificates/Slice0/Obligations.lean ====
section
/-! DEFINITION. The statements about the model, in the terms of the specification's numbered rules. -/

open Sys2Proof Sys2Proof.Machine

/-! ### Instruction words (R11, R113, R116, R156, R157) -/

/-- Every well-formed instruction, with every operand at every value that its fields admit, is what its 128-bit word decodes to, and no word
with a reserved opcode, a reserved bit that is not 0 or a reserved value decodes: what decodes is well formed and has that very word. -/
def Obligations.WordsRoundTrip : Prop :=
  (∀ (i : Instr) (w : BitVec 128), encodeWord i = some w → i.wf = true → ∃ k, decodeWord k w = some i) ∧
  (∀ (i : Instr) (k : SliceId) (w : BitVec 128), decodeWord k w = some i → i.wf = true ∧ encodeWord i = some w) ∧
  (∀ (i : Instr) (k : SliceId) (op : Nat) (f : Fields), i.engine? = some (k, op, f) →
    encodeWord i = some (BitVec.ofNat 8 op ++ f.func ++ f.dst ++ f.srcA ++ f.srcB ++ f.srcC ++ f.crec ++ BitVec.ofBool f.barrier ++
      BitVec.ofBool f.trace ++ 0#4 ++ f.imm)) ∧
  (∀ (k : SliceId) (n : Fin 8) (imm : W32) (p : Fin 64) (b : BitVec 48) (sem : Byte),
    encodeWord (.nop k) = some 0 ∧ encodeWord (.ret k) = some (0x02#8 ++ 0#120) ∧ encodeWord (.tickwait k) = some (0x07#8 ++ 0#120) ∧
    encodeWord (.signal k sem) = some (0x06#8 ++ sem ++ 0#112) ∧
    encodeWord (.cset k n imm) = some (0x10#8 ++ BitVec.ofFin (w := 3) n ++ 0#85 ++ imm) ∧
    encodeWord (.pset k p b) = some (0x17#8 ++ BitVec.ofFin (w := 6) p ++ 0#66 ++ b))

/-! ### The queue and the block as a whole -/

/-- The queue is served first in, first out: a step with a command at the front is that command's effect on the state with the rest
of the queue; with none waiting, one nanosecond passes once the time base runs and RESET_N is high, in which the reel ports carry what
waits in them, and nothing else changes where nothing does (the model's choice, log 4). -/
def Obligations.FrontCommandRuns : Prop :=
  (∀ (s : State) (c : Instr) (rest : List Instr), s.pending = c :: rest → step s = exec c { s with pending := rest }) ∧
  (∀ s : State, s.pending = [] → s.tb.running = true → s.pins.resetLow = false →
    step s = .next { s with tb := { s.tb with now := s.tb.now + 1 } }.reelFlow) ∧
  (∀ s : State, s.pending = [] → s.tb.running = true → s.pins.resetLow = false →
    s.reel.blocks = [] → s.reel.portA.cur = none → s.reel.portB.cur = none →
      step s = .next { s with tb := { s.tb with now := s.tb.now + 1 } }) ∧
  (∀ s : State, s.pending = [] → s.tb.running = false ∨ s.pins.resetLow = true → step s = .next s)

/-- No command stops the block: each answers a next state, with the queue and what manufacture fixed as they were (R540). -/
def Obligations.EveryCommandAnswers : Prop :=
  ∀ (c : Instr) (s : State), ∃ t, exec c s = .next t ∧ t.pending = s.pending ∧ t.chip = s.chip

/-- While RESET_N is low, or a test instruction has stopped functional operation, no command but the edges of RESET_N and
SUPPLY_WARN_N and test access changes anything, and SUPPLY_WARN_N changes only its pin (R401, R418, R419). -/
def Obligations.DeadBlockIgnoresCommands : Prop :=
  ∀ (c : Instr) (s : State), s.pins.resetLow = true ∨ s.pins.testStopped = true →
    (match c with
      | .resetAssert | .resetRelease | .testInstructionLoad _ | .ijtagInstrumentAccess _ | .wrstnAssert => True
      | .supplyWarn => exec c s = .next { s with pins := { s.pins with supplyWarn := true } }
      | .supplyWarnDeasserted => exec c s = .next { s with pins := { s.pins with supplyWarn := false } }
      | _ => exec c s = .next s)

/-! ### Scalar instructions (R156 to R159) -/

/-- The counter instructions write one counter and nothing else: CSET an immediate, CADD and CADDC a sum that wraps, CLDP the low half of
a register of the active bracket, CWRAP the counter less its immediate where it is at least that, unsigned (R156, R157). -/
def counterInstructions : Prop :=
  ∀ (s : State) (k : SliceId), s.takes k.val = true →
    let x := s.sl k.val
    let y := x.afterIssue
    let put (n : Fin 8) (v : W32) := s.only k { y with seq := { y.seq with cnt := x.seq.cnt.set n v, pc := x.seq.pc + 1 } }
    (∀ n imm, exec (.cset k n imm) s = put n imm) ∧
    (∀ n imm, exec (.cadd k n imm) s = put n (x.seq.cnt[n] + imm)) ∧
    (∀ n m, exec (.caddc k n m) s = put n (x.seq.cnt[n] + x.seq.cnt[m])) ∧
    (∀ n (p : Fin 64), exec (.cldp k n p) s = put n ((if x.bracket then x.brk1[p] else x.brk0[p]).setWidth 32)) ∧
    (∀ n imm, exec (.cwrap k n imm) s =
      put n (if imm.toNat ≤ x.seq.cnt[n].toNat then x.seq.cnt[n] - imm else x.seq.cnt[n]))

/-- The comparator instructions write one comparator, where it and those that CLOGIC reads are resolved; the predicates compare
counters unsigned or signed as the instruction says (R139, R156, R157, R158). -/
def Obligations.ComparatorInstructions : Prop :=
  ∀ (s : State) (k : SliceId), s.takes k.val = true →
    let x := s.sl k.val
    let y := x.afterIssue
    let put (c : Fin 4) (v : Bool) := s.only k { y with seq := { y.seq with
      cmp := x.seq.cmp.set c v, cmpOpen := x.seq.cmpOpen.set c false, pc := x.seq.pc + 1 } }
    let rel (pred : BitVec 3) (signed : Bool) (a b : W32) : Bool :=
      let lt := if signed then decide (a.toInt < b.toInt) else decide (a.toNat < b.toNat)
      if pred = 0 then a == b else if pred = 1 then a != b else if pred = 2 then lt else if pred = 3 then lt || a == b
      else if pred = 4 then !(lt || a == b) else !lt
    (∀ (c : Fin 4) n pred signed imm, x.seq.cmpOpen[c] = false → pred.toNat < 6 →
      exec (.ccmpi k c n pred signed imm) s = put c (rel pred signed x.seq.cnt[n] imm)) ∧
    (∀ (c : Fin 4) n pred signed m, x.seq.cmpOpen[c] = false → pred.toNat < 6 →
      exec (.ccmpc k c n pred signed m) s = put c (rel pred signed x.seq.cnt[n] x.seq.cnt[m])) ∧
    (∀ (c a b : Fin 4) (op : BitVec 3), x.seq.cmpOpen[a] = false → x.seq.cmpOpen[b] = false → x.seq.cmpOpen[c] = false →
      let p := x.seq.cmp[a]
      let q := x.seq.cmp[b]
      exec (.clogic k c a b op) s = put c (if op = 0 then p && q else if op = 1 then p || q else if op = 2 then p != q
        else if op = 3 then p && !q else if op = 4 then !p else if op = 5 then false else if op = 6 then true else p)) ∧
    (∀ (c a b : Fin 4) (op : BitVec 3), x.seq.cmpOpen[a] = true ∨ x.seq.cmpOpen[b] = true →
      exec (.clogic k c a b op) s = s.only k { x with seq := { x.seq with qfull := 0, interlock := false, predStall := true } })

/-- PSET, PADD and PFROMC write one register of the inactive bracket: a sign-extended immediate, a register of the active bracket plus
a sign-extended immediate, a zero-extended counter. The active bracket stays; the register's frame is whole again. Where the host has
written the register within a nanosecond before, its value may stand in its place, with the entry SAME_CYCLE, freely (R136, R137, R156,
R159, R499; log 47). -/
def parameterInstructions : Prop :=
  ∀ (s : State) (k : SliceId), s.takes k.val = true →
    let x := s.sl k.val
    let y := x.afterIssue
    let put (p : Fin 64) (v : W64) : Host.Outcome State Fault Refusal :=
      let t := (s.cleanInactive k.val p.val).setSl k.val { y with
        brk0 := if x.bracket then x.brk0.set p v else x.brk0
        brk1 := if x.bracket then x.brk1 else x.brk1.set p v
        progNs := (p.val, s.now) :: x.progNs.filter fun e => e.1 != p.val
        pwrites := if p.val ∈ x.pwrites then x.pwrites else p.val :: x.pwrites
        seq := { y.seq with pc := x.seq.pc + 1 } }
      .next (if x.hostNs.any fun e => e.1 == p.val && decide (s.now ≤ e.2 + 1) then
        t.sameCycle k.val p.val (if x.bracket then x.brk0[p] else x.brk1[p]) else t)
    (∀ p imm, exec (.pset k p imm) s = put p (imm.signExtend 64)) ∧
    (∀ p (q : Fin 64) imm, exec (.padd k p q imm) s = put p ((if x.bracket then x.brk1[q] else x.brk0[q]) + imm.signExtend 64)) ∧
    (∀ p n, exec (.pfromc k p n) s = put p (x.seq.cnt[n].setWidth 64))

/-- What the counter instructions and the parameter instructions write (R136, R156, R157). -/
def Obligations.ScalarRegisters : Prop := counterInstructions ∧ parameterInstructions

/-! ### Control instructions (R106, R116, R129, R130, R139 to R145) -/

/-- NOP only advances; TICKWAIT leaves the sequencer idle until its edge; STRIP opens a group with the shape that its handle names under
the call's base; ENDSTRIP, where no member's count differs from the shape's, closes it, and its members start at once unless one of
their units is busy or has another instruction first (R106, R116, R129, R130, R131). -/
def nopTickwaitAndGroups : Prop :=
  ∀ (s : State) (k : SliceId), s.takes k.val = true →
    let x := s.sl k.val
    let y := x.afterIssue
    exec (.nop k) s = s.only k { y with seq := { y.seq with pc := x.seq.pc + 1 } } ∧
    exec (.tickwait k) s = s.only k { y with seq := { y.seq with tickWait := true, pc := x.seq.pc + 1 } } ∧
    (∀ (shape : BitVec 11) (double : Bool), exec (.strip k shape double) s = s.only k { y with seq := { y.seq with
      group := some ⟨x.seq.groups, double, x.seq.hbase + shape.toNat⟩, groups := x.seq.groups + 1, pc := x.seq.pc + 1 } }) ∧
    (∀ g : Group, x.seq.group = some g →
      let b := bindPlain x g.shape
      b.bind = none → x.groupFault g.num b.t.count = none →
        let z : Slice := { y with
          flight := x.flight.map fun (e : Entry) =>
            if e.group = some g.num then { e with args := [b.t.count, if g.double then 1 else 0] } else e
          seq := { y.seq with group := none, pc := x.seq.pc + 1 } }
        exec (.endstrip k) s = .next (s.commit ((s.setSl k.val z).startGroup k.val g.num [])) ∧
        (z.groupReady g.num = false → exec (.endstrip k) s = s.only k z))

/-- A CALL that is not predicated, or whose comparator has the sense it asks for, pushes the pc, the routine and the bases and enters its
routine at index 0; one whose comparator has the other value only advances; one whose comparator is not resolved waits, and has not
issued. RET pops what CALL pushed (R116, R139, R140, R141, R143, R559). -/
def callAndReturn : Prop :=
  ∀ (s : State) (k : SliceId), s.takes k.val = true →
    let x := s.sl k.val
    let y := x.afterIssue
    (∀ f : CallFields, f.pred = false ∨ (x.seq.cmpOpen[f.cmp] = false ∧ x.seq.cmp[f.cmp] = f.sense) →
      exec (.call k f) s = s.only k { y with
        perf := { y.perf with callsTaken := x.perf.callsTaken + 1 }
        seq := { y.seq with
          stack := ⟨x.seq.pc + 1, x.seq.routine, x.seq.hbase, x.seq.tbase⟩ :: x.seq.stack
          pc := 0, routine := some f.routine.toNat, hbase := f.hbase.toNat, tbase := f.tbase.toNat } }) ∧
    (∀ f : CallFields, f.pred = true → x.seq.cmpOpen[f.cmp] = false → x.seq.cmp[f.cmp] ≠ f.sense →
      exec (.call k f) s = s.only k { y with seq := { y.seq with pc := x.seq.pc + 1 } }) ∧
    (∀ f : CallFields, f.pred = true → x.seq.cmpOpen[f.cmp] = true →
      exec (.call k f) s = s.only k { x with seq := { x.seq with
        qfull := 0, interlock := false, predStall := true, pred := some ⟨f, x.seq.pc⟩ } }) ∧
    (∀ (c : CallFrame) (rest : List CallFrame), x.seq.stack = c :: rest →
      exec (.ret k) s = s.only k { y with seq := { y.seq with
        stack := rest, pc := c.pc, routine := c.routine, hbase := c.hbase, tbase := c.tbase } })

/-- What NOP, TICKWAIT, STRIP and ENDSTRIP, CALL and RET do (R129, R140, R141, R157). -/
def Obligations.ControlInstructions : Prop := nopTickwaitAndGroups ∧ callAndReturn

/-- The comparators of a WAIT, unless it names none: HELD and then ABANDONED, both resolved. -/
def waitResult (f : WaitFields) (v : Vector Bool 4) (held aband : Bool) : Vector Bool 4 :=
  if f.cmpEn then (v.set f.cmpHeld held).set f.cmpAband aband else v

/-- A vector with a value at the comparators that a WAIT names. -/
def waitMarks (f : WaitFields) (v : Vector Bool 4) (b : Bool) : Vector Bool 4 :=
  if f.cmpEn then (v.set f.cmpHeld b).set f.cmpAband b else v

/-- WAIT ACQUIRE takes a free semaphore that nobody waits for at once, with its ABANDONED flag in the comparator; one that the slice holds
already it finds held; for any other it joins the queue, its comparators unresolved and its deadline set. WAIT DRAIN ends at once where
the units of QMASK are empty, and waits otherwise. It has issued: the pc names the next instruction while it waits (R144, R145, R154, R547,
R548). -/
def Obligations.WaitInstructions : Prop :=
  ∀ (s : State) (k : SliceId) (f : WaitFields), s.takes k.val = true →
    let x := s.sl k.val
    let y := x.afterIssue
    f.cmpEn = false ∨ (x.seq.cmpOpen[f.cmpHeld] = false ∧ x.seq.cmpOpen[f.cmpAband] = false) →
    let ends (aband : Bool) : Slice := { y with seq := { y.seq with
      pc := x.seq.pc + 1, cmp := waitResult f x.seq.cmp true aband, cmpOpen := waitMarks f x.seq.cmpOpen false } }
    let waits (kind : WaitKind) : Slice := { y with seq := { y.seq with
      wait := some ⟨kind, s.now, s.now + (if f.timeout = 0 then s.setting 0x0107 else f.timeout.toNat), f, x.seq.pc, x.seq.routine⟩
      pc := x.seq.pc + 1
      cmpOpen := waitMarks f x.seq.cmpOpen true } }
    let m := s.sem f.sem.toNat
    (m.held = false → m.waiters = [] →
      exec (.waitAcquire k f) s =
        ((s.modSem f.sem.toNat fun _ => ⟨true, 1, BitVec.ofNat 12 k.val, false, m.abandoned, [], m.acquires + 1⟩).only k
          (ends m.abandoned))) ∧
    (m.held = true → m.kind = 1 → m.owner.toNat = k.val → exec (.waitAcquire k f) s = s.only k (ends false)) ∧
    (m.held = true → ¬(m.kind = 1 ∧ m.owner.toNat = k.val) →
      exec (.waitAcquire k f) s =
        (s.modSem f.sem.toNat fun _ => { m with waiters := m.waiters ++ [k.val] }).only k (waits (.acquire f.sem.toNat))) ∧
    ((∀ e ∈ x.flight, f.qmask.toNat.testBit e.unit = false) → exec (.waitDrain k f) s = s.only k (ends false)) ∧
    ((∃ e ∈ x.flight, f.qmask.toNat.testBit e.unit = true) →
      exec (.waitDrain k f) s = s.only k (waits (.drain f.qmask.toNat)))

/-- SIGNAL waits while an earlier instruction of its slice has not completed; then it releases a semaphore that the slice holds, which
is free where nobody waits for it, and the next waiter's where one does (R145, R548, R549). -/
def Obligations.SignalReleases : Prop :=
  ∀ (s : State) (k : SliceId) (n : Byte), s.takes k.val = true →
    let x := s.sl k.val
    let y : Slice := { x.afterIssue with seq := { x.afterIssue.seq with pc := x.seq.pc + 1 } }
    let m := s.sem n.toNat
    (x.flight ≠ [] → exec (.signal k n) s = .next s) ∧
    (x.flight = [] → m.held = true → m.kind = 1 → m.owner.toNat = k.val →
      (m.waiters = [] →
        exec (.signal k n) s =
          .next ((s.setSl k.val y).modSem n.toNat fun _ => { m with held := false, kind := 0, owner := 0, acqAband := false })) ∧
      (∀ j rest, m.waiters = j :: rest → (s.sl j).seq.wait = none → j ≠ k.val →
        exec (.signal k n) s = .next ((s.setSl k.val y).modSem n.toNat fun _ =>
          ⟨true, 1, BitVec.ofNat 12 j, false, m.abandoned, m.waiters.filter (· != j), m.acquires + 1⟩)) ∧
      (∀ j rest w, m.waiters = j :: rest → (s.sl j).seq.wait = some w → w.fields.cmpEn = false → j < 32 → j ≠ k.val →
        exec (.signal k n) s = .next (((s.setSl k.val y).modSem n.toNat fun _ =>
          ⟨true, 1, BitVec.ofNat 12 j, false, m.abandoned, m.waiters.filter (· != j), m.acquires + 1⟩).mod j fun z =>
            { z with seq := { z.seq with wait := none } })))

/-! ### Engine instructions (R115 to R128, R158, R542) -/

/-- What the interlock compares for an engine instruction at the pc of a slice: the resources that it reads, and those that it writes
(R126, R127, R134). -/
def readsWrites (x : Slice) (op : Nat) (f : Fields) : List Res × List Res :=
  x.accesses op f (bindAll x op f).1 (((if op < 0x90 then x.seq.group else none).map (·.double)).getD false)

/-- The queue entry of an engine instruction that has passed its checks. -/
def newEntry (x : Slice) (op : Nat) (f : Fields) (ok : IssueOk) (now : Nat) : Entry :=
  let rw := readsWrites x op f
  ⟨x.seq.nextKey, op, f, x.seq.pc, x.seq.routine, (if op < 0x90 then x.seq.group else none).map (·.num), x.seq.frame.toNat, ok.opds,
    ok.attn, ok.early, ok.args, rw.1, rw.2, cmpTarget op f, now, .queued⟩

/-- An engine instruction that nothing holds back and that passes its checks enters the queue of its unit; with the unit busy, others
before it, or in a STRIP group that is all; otherwise the unit starts it at once, as INSTRUCTION_START does (the model's choice, log 6).
It pins the KV contexts that a KV_SEQ ATTN reads (R115, R125, R131, R158, R270). -/
def Obligations.EngineInstructionsIssue : Prop :=
  ∀ (i : Instr) (s : State) (k : SliceId) (op : Nat) (f : Fields), i.engine? = some (k, op, f) → s.takes k.val = true →
    let x := s.sl k.val
    let rw := readsWrites x op f
    let u := unitOf op
    let grp := if op < 0x90 then x.seq.group else none
    x.stall op f rw.1 rw.2 = none → s.descBad k.val op f = none →
    ∀ ok : IssueOk, (s.issueCheck k.val op f grp.isSome).toOption = some ok →
      let e := newEntry x op f ok s.now
      let t : State := s.setSl k.val { x.afterIssue with
        flight := x.flight ++ [e]
        seq := { x.afterIssue.seq with
          nextKey := x.seq.nextKey + 1, pc := x.seq.pc + 1
          cmpOpen := match e.cmpW with | some c => x.seq.cmpOpen.set c true | none => x.seq.cmpOpen } }
      let pins := (ok.attn.map attnPins).getD []
      let t : State := { t with kv := (pins.foldl (fun (t : State) p => t.kvPin p.1 p.2 k.val x.seq.nextKey false) s).kv }
      ((grp.isSome || x.busy u || !(x.queue u).isEmpty) = true → exec i s = .next t) ∧
      ((grp.isSome || x.busy u || !(x.queue u).isEmpty) = false →
        ∀ v : Fin 6, v.val = u → exec i s = exec (.instructionStart k v x.soft) t)

/-- An engine instruction issues only when, for every earlier instruction of the slice that has not completed, none of what the earlier
one writes is read or written by the new one, and none of what it reads is written by the new one; members of one STRIP group excepted.
Where it is held back only the stall shows (R126, R127, R154). -/
def interlockHolds : Prop :=
  ∀ (i : Instr) (s : State) (k : SliceId) (op : Nat) (f : Fields), i.engine? = some (k, op, f) → s.takes k.val = true →
    let x := s.sl k.val
    let rw := readsWrites x op f
    ∀ e ∈ x.flight, ((op < 0x90 ∧ ∃ g, x.seq.group = some g ∧ e.group = some g.num) → False) →
      ((∃ r, r ∈ e.writes ∧ (r ∈ rw.1 ∨ r ∈ rw.2)) ∨ (∃ r, r ∈ e.reads ∧ r ∈ rw.2)) →
        exec i s = s.only k { x with seq := { x.seq with qfull := 0, interlock := true, predStall := false } }

/-- An instruction with BARRIER waits for every earlier one; one that writes an unresolved comparator waits for it; one whose queue is
full waits for a slot, and the queue's bit shows (R115, R125, R128, R154, R158). -/
def issueStalls : Prop :=
  ∀ (i : Instr) (s : State) (k : SliceId) (op : Nat) (f : Fields), i.engine? = some (k, op, f) → s.takes k.val = true →
    let x := s.sl k.val
    let rw := readsWrites x op f
    let held := s.only k { x with seq := { x.seq with qfull := 0, interlock := true, predStall := false } }
    (f.barrier = true → x.flight ≠ [] → exec i s = held) ∧
    (∀ c : Fin 4, cmpTarget op f = some c → x.seq.cmpOpen[c] = true → exec i s = held) ∧
    (f.barrier = false → x.flight.any (·.blocks ((if op < 0x90 then x.seq.group else none).map (·.num)) rw.1 rw.2) = false →
      (match cmpTarget op f with | some c => x.seq.cmpOpen[c] | none => false) = false →
      ([16, 16, 8, 8, 4, 8][unitOf op]?).getD 0 ≤ (x.queue (unitOf op)).length →
        exec i s = s.only k { x with seq := { x.seq with qfull := 1#6 <<< unitOf op, interlock := false, predStall := false } })

/-- When an instruction stalls at issue: the interlock, a full queue, an unresolved comparator (R124, R126, R128). -/
def Obligations.StallsAtIssue : Prop := interlockHolds ∧ issueStalls

/-- An instruction that fails a check at issue has issued; its slice drains to FAULTED with the fault's code and issues no more; the
instructions that wait in its queues are discarded; the active bracket, the counters and the other slices keep what they hold (R146,
R148, R468, R540, R542). -/
def Obligations.IssueFaultAborts : Prop :=
  ∀ (i : Instr) (s : State) (k : SliceId) (op : Nat) (f : Fields), i.engine? = some (k, op, f) → s.takes k.val = true →
    let x := s.sl k.val
    let rw := readsWrites x op f
    let grp := if op < 0x90 then x.seq.group else none
    x.stall op f rw.1 rw.2 = none → s.descBad k.val op f = none →
    ∀ bad : IssueFault, s.issueFault k.val op f grp.isSome = some bad → ∃ t, exec i s = .next t ∧
      let y := t.sl k.val
      y.state = .draining ∧ y.drain = some ⟨5, .faulted, bad.code⟩ ∧ y.cause = 5 ∧ y.seq.halted = true ∧ y.canIssue = false ∧ (∀ e ∈ y.flight, e.run?.isSome = true) ∧
        y.perf.issued = x.perf.issued + 1 ∧ y.seq.cnt = x.seq.cnt ∧ y.bracket = x.bracket ∧ y.brk0 = x.brk0 ∧ y.brk1 = x.brk1 ∧
        y.mtr = x.mtr ∧ ∀ j, j ≠ k.val → (t.sl j).store = (s.sl j).store ∧ (t.sl j).state = (s.sl j).state

/-! ### Units (R125, R139, R149, R163 to R180) -/

/-- A free unit of the vector, move, gather/scatter or attention kind whose head of queue meets no error runs it: its units of progress
are done, the memories hold what they write, and nothing else of the slice's registers changes (R125, R147). -/
def Obligations.UnitStartsHead : Prop :=
  ∀ (s : State) (k : SliceId) (u : Fin 6) (e : Entry), s.live = true → s.clockStopped k.val = false → u.val < 4 →
    let x := s.sl k.val
    x.busy u.val = false → (x.queue u.val).head? = some e → e.group = none → s.attnReady e = true →
    (∀ y ∈ x.flight, y.key = e.key → y = e) →
    let base := s.mkRun k.val (ownCount e.op e.opds) false false
    let m := runMembers (s.waitingRun base) e.units [e]
    ∀ r : Run, m.2 = [(e, r)] → r.fault = none → r.kvErrs = [] → ∃ t, exec (.instructionStart k u []) s = .next t ∧
      let y := t.sl k.val
      y.store = m.1.store ∧ y.tiles = m.1.tiles ∧ t.emul = m.1.emul ∧ t.ext = m.1.ext ∧
        y.flight = (x.flight.map fun z =>
          if z.key = e.key then { e with phase := .running (Run.running e r e.units s.now r.extra) } else z) ∧ y.seq.cnt = x.seq.cnt ∧ y.seq.cmp = x.seq.cmp ∧ y.brk0 = x.brk0 ∧ y.brk1 = x.brk1 ∧
        y.seq.pc = x.seq.pc ∧ y.mtr = x.mtr ∧ y.state = x.state ∧ (∀ j, j ≠ k.val → t.sl j = s.sl j) ∧ t.semu = s.semu ∧
        t.mbox = s.mbox ∧ t.reel = s.reel

/-- An element-wise instruction on whole tile registers puts into its destination, at every position, its function of the elements that
its sources held there; every other byte of the tile registers, the slice store and the memories stay (R133, R163, R164, R166). -/
def Obligations.ElementwiseOnTiles : Prop :=
  ∀ (s : State) (k : SliceId) (e : Entry) (d : Fin 32) (a b c : Operand), s.live = true → s.clockStopped k.val = false →
    let x := s.sl k.val
    let f := immFmt e.fields.imm.toNat
    let rf := elemOutFmt e.op f
    let imm := e.fields.imm.toNat
    x.busy 0 = false → (x.queue 0).head? = some e → e.group = none →
    (∀ y ∈ x.flight, y.key = e.key → y = e) →
    0x20 ≤ e.op ∧ e.op < 0x60 ∧ e.op ≠ 0x2C ∧ e.op ≠ 0x2D ∧ e.op ≠ 0x42 → e.opds = ⟨.tile d.val, a, b, c, .none, none, none, []⟩ →
    (∀ o ∈ [a, b, c], o = .none ∨ ∃ n : Fin 32, o = .tile n.val) → fmtBits f = 1 ∨ fmtBits f = 8 ∨ fmtBits f = 16 ∨ fmtBits f = 32 →
    Mem.wf x.tiles = true →
      let at' (o : Operand) (i : Nat) : Nat := match o with | .tile n => x.tiles.element f n i | _ => 0
      ∃ t, exec (.instructionStart k 0 []) s = .next t ∧
        let y := t.sl k.val
        (∀ i, i < 4096 → y.tiles.element rf d.val i =
          (elemFn e.op e.fields.func.toNat ⟨f, e.fields.func.toNat, imm % 2 ^ 32, at' a i, at' b i, at' c i, i⟩).out % 2 ^ fmtBits rf) ∧
        (∀ p, (p < d.val * 16384 ∨ d.val * 16384 + 512 * fmtBits rf ≤ p) → y.tiles.read p = x.tiles.read p) ∧
        y.store = x.store ∧ t.emul = s.emul ∧ t.ext = s.ext ∧ y.seq.cnt = x.seq.cnt ∧ y.seq.cmp = x.seq.cmp

/-- An instruction that has done its work, and waits for no external access, leaves its unit; its comparator is then resolved, whatever
read-modify-writes it still does at its end, where no granule of theirs has become uncorrectable; with CREC 0, status OK and no trace
nothing is recorded. One whose external accesses are not answered stays (R139, R149, R331, R397). -/
def unitCompletes : Prop :=
  ∀ (s : State) (k : SliceId) (u : Fin 6) (e : Entry) (r : Running), s.live = true → s.clockStopped k.val = false →
    let x := s.sl k.val
    let c := Instr.instructionComplete k u
    x.flight.find? (fun y => y.unit == u.val && y.run?.isSome) = some e → e.run? = some r → e.op < 0xA0 →
    (s.tagged k.val e.key = true → r.status = 0 → exec c s = .next s) ∧
    (s.tagged k.val e.key = false → r.status = 0 → r.feeds = [] → e.fields.crec ≠ 1 → e.fields.crec ≠ 2 → e.fields.trace = false →
      e.group = none → r.pend = Pend.none → s.keptBytes ≤ 50331648 →
      x.seq.wait = none → s.kv.waiters = [] → (∀ q ∈ s.kv.ctxs, ∀ p ∈ q.pins, ¬(p.slice = k.val ∧ p.key = e.key)) →
      exec c s = s.only k { x with
        flight := x.flight.filter fun y => y.key != e.key
        seq := match e.cmpW with
          | some n => { x.seq with cmp := x.seq.cmp.set n (e.cmpResult r), cmpOpen := x.seq.cmpOpen.set n false }
          | none => x.seq }) ∧
    (s.tagged k.val e.key = false → r.status = 0 → (∀ w ∈ r.pend.rmws, w.bad s.ectl.poisoned = false) →
      x.seq.wait = none → s.kv.waiters = [] → (∀ q ∈ s.kv.ctxs, ∀ p ∈ q.pins, ¬(p.slice = k.val ∧ p.key = e.key)) →
      ∃ t, exec c s = .next t ∧ (∀ y ∈ (t.sl k.val).flight, y.key ≠ e.key) ∧
        (∀ n, e.cmpW = some n → (t.sl k.val).seq.cmp = x.seq.cmp.set n (e.cmpResult r) ∧
          (t.sl k.val).seq.cmpOpen = x.seq.cmpOpen.set n false) ∧
        (e.cmpW = none → (t.sl k.val).seq = x.seq))

/-- A completion record goes to the entry of the ring that WR names; WR counts up, and the record lies there; with the ring full LOST
counts instead and WR stays (R149, R150, R151, R155). -/
def completionRecords : Prop :=
  ∀ (s : State) (k : SliceId) (u : Fin 6) (e : Entry) (r : Running), s.live = true → s.clockStopped k.val = false →
    let x := s.sl k.val
    let c := Instr.instructionComplete k u
    x.flight.find? (fun y => y.unit == u.val && y.run?.isSome) = some e → e.run? = some r → e.op < 0xA0 → r.status = 0 →
    s.tagged k.val e.key = false → e.fields.crec = 1 → r.pend = Pend.none → x.recOut = [] → s.kv.waiters = [] →
    x.cring.virt = false → x.cring.base + x.cring.entries * 128 ≤ 25165824 → Mem.wf x.store = true →
    ∃ t, exec c s = .next t ∧
    let y := t.sl k.val
    ((x.cring.wr - x.cring.rd).toNat < x.cring.entries →
      y.cring = { x.cring with wr := x.cring.wr + 1 } ∧
      y.store.readN (x.cring.base + x.cring.wr.toNat % x.cring.entries * 128) 128 =
        recordBytes s.now (e.recInfo r.status r.done r.total r.fault (r.countsAt r.done) 0 r.extra)) ∧
    (x.cring.entries ≤ (x.cring.wr - x.cring.rd).toNat →
      y.cring = { x.cring with lost := sat16 x.cring.lost 1 } ∧ y.store = x.store)

/-- What the end of a running instruction does: its unit is free, its comparator resolved, its record written (R126, R145, R151). -/
def Obligations.UnitsComplete : Prop := unitCompletes ∧ completionRecords

/-- A WAIT that reaches its deadline fails: in TO_MODE 1 it ends with HELD and ABANDONED 0 and issue goes on; in TO_MODE 0 it faults and
the slice drains. It leaves the semaphore's queue and counts; before its deadline nothing happens (R144, R548, R552). -/
def waitsTimeOut : Prop :=
  ∀ (s : State) (k : SliceId) (w : WaitRec), s.live = true →
    let x := s.sl k.val
    let c := Instr.waitTimeout k
    x.seq.wait = some w →
    (s.now < w.deadline → exec c s = .next s) ∧
    (w.deadline ≤ s.now → w.fields.toMode = true →
      let sems := s.semu.sems.map fun m => { m with waiters := m.waiters.filter (· != k.val) }
      exec c s = .next ({ s with semu := { s.semu with sems := sems, timeouts := sat16 s.semu.timeouts 1 } }.setSl k.val { x with
        seq := { x.seq with
          wait := none
          cmp := waitResult w.fields x.seq.cmp false false, cmpOpen := waitMarks w.fields x.seq.cmpOpen false } })) ∧
    (w.deadline ≤ s.now → w.fields.toMode = false → x.state = .running →
      ∃ t, exec c s = .next t ∧ (t.sl k.val).state = .draining ∧ ((t.sl k.val).drain.map (·.fault)) = some 0x0401 ∧
        (t.sl k.val).seq.wait = none ∧ t.semu.timeouts = sat16 s.semu.timeouts 1)

/-- At a multiple of 100,000 ns firmware fails one wait of every cycle of waiting slices: of two slices that each wait for a semaphore
that the other holds, the one whose wait started later, or the higher slice of two that started together. Where the deadline of a wait of
the cycle has come, that wait fails by it alone, and no cycle counts. At any other time nothing happens (R551). -/
def waitCyclesBreak : Prop :=
  ∀ s : State, s.live = true →
    (s.now % 100000 ≠ 0 ∨ s.fw.running = false → exec .waitForScan s = .next s) ∧
    (s.now % 100000 = 0 → (∀ k : SliceId, (s.sl k.val).seq.wait = none) → exec .waitForScan s = .next s) ∧
    (∀ (j k : SliceId) (wj wk : WaitRec) (m n : Fin 256), s.now % 100000 = 0 → s.fw.running = true → s.chip.model = .v32 → j ≠ k →
      let kept (t : State) : Prop := t.semu.timeouts = sat16 s.semu.timeouts 1 ∧ ∀ i : SliceId, (t.sl i.val).seq.pc = (s.sl i.val).seq.pc
      (s.sl j.val).seq.wait = some wj → (s.sl k.val).seq.wait = some wk → (∀ i : SliceId, i ≠ j → i ≠ k → (s.sl i.val).seq.wait = none) →
      wj.kind = .acquire m.val → wk.kind = .acquire n.val → wj.startNs * 32 + j.val < wk.startNs * 32 + k.val →
      s.sem m.val = { s.sem m.val with held := true, kind := 1, owner := BitVec.ofNat 12 k.val } →
      s.sem n.val = { s.sem n.val with held := true, kind := 1, owner := BitVec.ofNat 12 j.val } →
      (s.now < wj.deadline → s.now < wk.deadline → wk.fields.toMode = true →
        ∃ t, exec .waitForScan s = .next t ∧ (t.sl k.val).seq.wait = none ∧ t.sl j.val = s.sl j.val ∧
          t.semu.cycles = sat16 s.semu.cycles 1 ∧ kept t) ∧
      (wj.deadline ≤ s.now → s.now < wk.deadline → wj.fields.toMode = true →
        ∃ t, exec .waitForScan s = .next t ∧ (t.sl j.val).seq.wait = none ∧ t.sl k.val = s.sl k.val ∧
          t.semu.cycles = s.semu.cycles ∧ kept t))

/-- How waits for semaphores end without a release: at their deadline, or as the victim of a cycle (R549, R550). -/
def Obligations.WaitsEnd : Prop := waitsTimeOut ∧ waitCyclesBreak

/-- A predicated CALL whose comparator is resolved issues, taken or not; what was fetched of the other path counts as discarded. While
the comparator is not resolved it waits (R143, R545, R559). -/
def Obligations.PredicatedCallsResolve : Prop :=
  ∀ (s : State) (k : SliceId) (p : PredWait) (fall into : Fin 9), s.live = true →
    let x := s.sl k.val
    let c := Instr.predicateResolve k fall into
    x.seq.pred = some p →
    (x.seq.cmpOpen[p.call.cmp] = true → exec c s = .next s) ∧
    (x.seq.cmpOpen[p.call.cmp] = false → p.call.pred = true → x.cutHits x.seq.pc x.seq.routine = false →
      s.sheet.trace.getLsbD 1 = false →
        let taken := x.seq.cmp[p.call.cmp] == p.call.sense
        let n := BitVec.ofNat 64 (if taken then fall.val else into.val)
        let y := x.afterIssue
        let perf := { y.perf with fetched := y.perf.fetched + n, discarded := x.perf.discarded + n }
        exec c s = s.only k (if taken then { y with
            perf := { perf with callsTaken := x.perf.callsTaken + 1 }
            seq := { y.seq with
              stack := ⟨x.seq.pc + 1, x.seq.routine, x.seq.hbase, x.seq.tbase⟩ :: x.seq.stack, pred := none
              pc := 0, routine := some p.call.routine.toNat, hbase := p.call.hbase.toNat, tbase := p.call.tbase.toNat } }
          else { y with perf := perf, seq := { y.seq with pred := none, pc := x.seq.pc + 1 } }))

/-! ### The block tick and the time base (R107, R350 to R363) -/

/-- A slice faulted in this nanosecond, perhaps in the core cycle of an edge (R364). -/
def justFaulted (s : State) (k : Nat) : Bool := (s.sl k).state == .draining && (s.sl k).faultNs == some s.now

/-- Nothing that a tick edge would act on: no slice runs, waits for a start or has just faulted, no command is in progress, no trace of
edges is asked for, and no new period waits. -/
def quiet (s : State) : Bool :=
  (List.range 32).all (fun k => (s.sl k).state != .running && (s.sl k).startAt.isNone && !justFaulted s k) && s.cmds.isEmpty &&
    !s.sheet.trace.getLsbD 2 && s.tick.pending.isNone && decide (0 < s.tick.period)

/-- The state after an edge stamped `e` with no work: the edge is counted, the next multiple of the period is due, and trays of contexts
that no instruction pinned in the frame, and no hint keeps, are marked for parking (R284, R357, R360). -/
def quietEdge (s : State) (e : Nat) : State :=
  { s with
    tick := { s.tick with last := BitVec.ofNat 64 e, count := s.tick.count + 1, next := (e / s.tick.period + 1) * s.tick.period }
    kv := { s.kv with ctxs := s.kv.ctxs.map fun c =>
      { (if c.usedFrame || c.keep then c else { c with layers := c.layers.map KvLayer.startPark }) with
        usedFrame := !c.pins.isEmpty, keep := false } } }

/-- The internal generator takes an edge once the time base reaches it; a rising TICK_IN makes one stamped 3 ns before, unless it comes
within 1,000 ns of the last, which is a glitch and counts; a missing external edge is generated a tolerance after it was due. With no
source active, or before their time, nothing happens (R356, R357, R358, R360, R380; the entry of a glitch is the model's reading, log 35). -/
def Obligations.TickEdges : Prop :=
  ∀ s : State, s.live = true → quiet s = true →
    let ext : Bool := s.setting 0x0102 == 1
    let due := s.tick.last.toNat + s.tick.period + s.setting 0x0103
    ((s.tick.active = false ∨ ext = true ∨ s.now < s.tick.next) → exec .blockTickEdge s = .next s) ∧
    (s.tick.active = true → ext = false → s.tick.next ≤ s.now → exec .blockTickEdge s = .next (quietEdge s s.tick.next)) ∧
    ((s.tick.active = false ∨ ext = false) → exec .tickInEdge s = .next s ∧ exec .flywheelEdge s = .next s) ∧
    (s.tick.active = true → ext = true → 3 ≤ s.now →
      (s.tick.count ≠ 0 → s.now - 3 < s.tick.last.toNat + 1000 →
        exec .tickInEdge s = .next ({ s with tick := { s.tick with glitch := sat16 s.tick.glitch 1 } }.log 0x0105 4 4 false
          (tickData 0 4 0 (s.now - 3)))) ∧
      ((s.tick.count = 0 ∨ s.tick.last.toNat + 1000 ≤ s.now - 3) → s.tick.flywheel = false →
        exec .tickInEdge s = .next (quietEdge s (s.now - 3))) ∧
      ((s.tick.count = 0 ∨ s.tick.last.toNat + 1000 ≤ s.now - 3) → s.tick.flywheel = true →
        exec .tickInEdge s = .next (quietEdge ({ s with tick := { s.tick with flywheel := false } }.log 0x0105 4 6 false
          (tickData 0 6 0 (s.now - 3))) (s.now - 3))) ∧
      (s.tick.count ≠ 0 → s.now < s.tick.last.toNat + s.tick.period → exec .flywheelEdge s = .next s) ∧
      (s.tick.count ≠ 0 → s.tick.flywheel = false → s.now < due → exec .flywheelEdge s = .next s) ∧
      (s.tick.count ≠ 0 → s.tick.flywheel = false → due ≤ s.now →
        let t := ({ s with tick := { s.tick with missed := sat16 s.tick.missed 1, flywheel := true } }.log 0x0105 4 5 false
          (tickData 0 5 0 due))
        exec .flywheelEdge s = .next (quietEdge t due)))

/-- A slice that runs, alone, with its frame complete and nothing else asked of it. -/
def frameEnds (s : State) (k : SliceId) : Bool :=
  let x := s.sl k.val
  (List.range 32).all (fun j => (j == k.val || (s.sl j).state != .running) && (s.sl j).startAt.isNone && !justFaulted s j) && s.cmds.isEmpty &&
    s.tick.pending.isNone && x.state == .running && x.frameDone && !x.overexp && !x.held && x.drain.isNone && !s.scrubDue k.val &&
    x.sticky.isEmpty && !x.switchReq && decide (k.val < s.chip.model.slices)

/-- At the edge of a complete frame the slots close into their registers, the brackets swap, the frame counts, and the sequencer starts at
index 0 of the active bank with an empty call stack. Counters, comparators, the slice store and the tile registers stay. A publishing
slot that saw a value writes its proposal into its register of the bracket that becomes active; the other registers stay (R73, R75, R107,
R136, R360). -/
def Obligations.FrameEdge : Prop :=
  ∀ (s : State) (k : SliceId) (edge : Nat), s.live = true → frameEnds s k = true →
    s.tick.active = true → s.setting 0x0102 ≠ 1 → s.tick.next = edge → edge ≤ s.now →
    let x := s.sl k.val
    ∃ t, exec .blockTickEdge s = .next t ∧
      let y := t.sl k.val
      t.tick.last = BitVec.ofNat 64 edge ∧ t.tick.count = s.tick.count + 1 ∧
      y.bracket = !x.bracket ∧ y.seq.frame = x.seq.frame + 1 ∧ y.seq.pc = 0 ∧ y.seq.routine = none ∧ y.seq.stack = [] ∧
      y.state = .running ∧ y.canIssue = true ∧ y.bank = x.bank ∧ y.seq.cnt = x.seq.cnt ∧ y.seq.cmp = x.seq.cmp ∧
      y.store = x.store ∧ y.tiles = x.tiles ∧
      (∀ i : Fin 8, y.mtr[i].amax = BitVec.ofNat 32 x.slots[i].amax ∧ y.mtr[i].seen = x.slots[i].seen ∧
        y.mtr[i].nonfin = x.slots[i].nonfin ∧ y.slots[i].amax = 0 ∧ y.slots[i].seen = false ∧ y.slots[i].nonfin = false) ∧
      ((∀ i : Fin 8, ∀ m, x.slotCtl i.val = some m → m.pub = false) → y.brk0 = x.brk0 ∧ y.brk1 = x.brk1) ∧
      (∀ (i : Fin 8) (m : MeterCtl) (p : Fin 64), x.slotCtl i.val = some m → m.pub = true → m.preg = p.val → x.slots[i].seen = true →
        x.slots[i].amax ≠ 0 → (∀ j : Fin 8, j ≠ i → ∀ n, x.slotCtl j.val = some n → n.pub = false) →
        let kk := proposalK (f32 x.slots[i].amax) (fmtTop m.fmt) m.head
        (if y.bracket then y.brk1 else y.brk0)[p] = BitVec.ofNat 64 (toF32 (.fin false 1 (max (-126) (min 126 kk)))) ∧
        (if y.bracket then y.brk0 else y.brk1) = (if x.bracket then x.brk1 else x.brk0))

/-- A frame that is not complete at its edge is overexposed and counts: a slice whose HOLD bit is set keeps its work and its edge is held;
the work of any other aborts with OVEREXPOSED, and its units stop (R146, R361, R362, R363, R406). -/
def overexposedFrames : Prop :=
  ∀ (s : State) (k : SliceId), s.live = true → quiet (s.mod k.val fun x => { x with state := .ready }) = true →
    k.val < s.chip.model.slices → s.tick.active = true → s.setting 0x0102 ≠ 1 → s.tick.next ≤ s.now →
    let x := s.sl k.val
    x.state = .running → x.frameDone = false → x.overexp = false → x.held = false → x.drain = none → s.scrubDue k.val = false →
    x.flight.any (·.run?.isSome) = true → ∃ t, exec .blockTickEdge s = .next t ∧
      let y := t.sl k.val
      y.state = .running ∧ y.overexps = sat16 x.overexps 1 ∧ t.tick.overexp = sat16 s.tick.overexp 1 ∧
        t.irq.status.getLsbD 4 = true ∧ y.seq.frame = x.seq.frame ∧ y.seq.pc = x.seq.pc ∧ y.bracket = x.bracket ∧
      ((s.setting 0x0106).testBit k.val = true →
        y = { x with overexps := sat16 x.overexps 1, held := true, heldNs := s.tick.next, heldTicks := sat16 x.heldTicks 1 }) ∧
      ((s.setting 0x0106).testBit k.val = false → y.seq.halted = true ∧ y.canIssue = false ∧
        ∀ e ∈ y.flight, ∀ r, e.run? = some r → stoppedStatus r.status = true)

/-- The held edge of a slice takes effect once its frame is complete, and then as any edge of a frame; before that nothing happens
(R107, R363). -/
def heldEdges : Prop :=
  ∀ (s : State) (k : SliceId), s.live = true →
    let x := s.sl k.val
    (¬(x.state = .running ∧ x.held = true ∧ x.frameDone = true) → exec (.heldEdge k) s = .next s) ∧
    (x.state = .running → x.held = true → x.frameDone = true → x.drain = none → s.scrubDue k.val = false → s.cmds = [] → x.sticky = [] →
      x.switchReq = false → (∀ i : Fin 8, ∀ m, x.slotCtl i.val = some m → m.pub = false) →
        ∃ t, exec (.heldEdge k) s = .next t ∧
          let y := t.sl k.val
          y.held = false ∧ y.bracket = !x.bracket ∧ y.seq.frame = x.seq.frame + 1 ∧ y.seq.pc = 0 ∧ y.state = .running ∧
            y.brk0 = x.brk0 ∧ y.brk1 = x.brk1 ∧ y.seq.cnt = x.seq.cnt ∧ y.store = x.store ∧ t.tick = s.tick)

/-- What an edge does to a slice that has not ended its frame: it overexposes, or holds (R360, R361). -/
def Obligations.EdgesMissed : Prop := overexposedFrames ∧ heldEdges

/-- TIMESYNC captures the time base, and a second edge within 1,000 ns is a glitch that captures nothing; a slew step moves the time base
by 1 ns the way the offset asks, and the next one is due so that the steps come once every slew interval (R352, R353). -/
def Obligations.TimeSynchronisation : Prop :=
  ∀ s : State, s.live = true →
    (s.tb.running = false → exec .timesyncEdge s = .next s) ∧
    (s.tb.running = true → (∀ c, s.tb.lastCap = some c → c + 1000 ≤ s.now) →
      exec .timesyncEdge s = .next { s with tb := { s.tb with
        capture := s.tb.now, seq := s.tb.seq + 1, lastCap := some s.now, capAdj := 0 } }) ∧
    (∀ c, s.tb.running = true → s.tb.lastCap = some c → s.now < c + 1000 →
      ∃ t, exec .timesyncEdge s = .next t ∧ t.tb = s.tb ∧ t.tick.glitch = sat16 s.tick.glitch 1) ∧
    ((s.tb.slewRemain = 0 ∨ s.now < s.tb.nextSlew) → exec .slewStep s = .next s) ∧
    (0 < s.tb.slewRemain → s.tb.nextSlew ≤ s.now → exec .slewStep s = .next { s with tb := { s.tb with
      now := s.tb.now + 2, slewRemain := s.tb.slewRemain - 1, capAdj := s.tb.capAdj + 1
      nextSlew := (s.tb.now + 2).toNat + s.setting 0x0105 - 1 } }) ∧
    (s.tb.slewRemain < 0 → s.tb.nextSlew ≤ s.now → exec .slewStep s = .next { s with tb := { s.tb with
      slewRemain := s.tb.slewRemain + 1, capAdj := s.tb.capAdj - 1, nextSlew := s.now + s.setting 0x0105 - 1 } })

/-- A slice leaves DRAINING when its last unit has stopped: it takes the state and the fault code that its drain set; before that
nothing happens (R468, R474). -/
def Obligations.DrainsEnd : Prop :=
  ∀ (s : State) (k : SliceId) (d : Drain), s.live = true →
    let x := s.sl k.val
    ((x.state ≠ .draining ∨ x.flight ≠ [] ∨ x.seq.wait ≠ none) → exec (.sliceDrainDone k) s = .next s) ∧
    (x.state = .draining → x.drain = some d → x.flight = [] → x.seq.wait = none → s.cmds = [] →
      ∃ t, exec (.sliceDrainDone k) s = .next t ∧
        let y := t.sl k.val
        y.state = d.target ∧ y.drain = none ∧ y.fault = (if d.target = .faulted then d.fault else x.fault) ∧
          y.armed = (x.armed && d.cause != 4) ∧ y.store = x.store ∧ y.seq = x.seq ∧ y.brk0 = x.brk0 ∧ y.brk1 = x.brk1 ∧
          y.mtr = x.mtr ∧ ∀ j, j ≠ k.val → t.sl j = s.sl j)

/-! ### Timed streams (R366 to R372, R390) -/

/-- The schedule's stream of a slice in one direction with an ID. -/
def streamOf (x : Slice) (inbound : Bool) (id : Nat) : Option TimedStream :=
  x.schedule.find? fun t => t.inbound == inbound && t.id == id

/-- A running slice's next outbound beat leaves with the bytes of its place in the stream's window, to the SPORT or towards the peer
slice; a halted slice, or a stream that has sent its count, sends nothing (R366, R367, R390). -/
def timedBeatsLeave : Prop :=
  ∀ (s : State) (k : SliceId) (id : W12) (t : TimedStream), s.live = true →
    let x := s.sl k.val
    let b := x.beatsDone t.id
    streamOf x false id.toNat = some t →
    ((x.sendsBeats = false ∨ s.clockStopped k.val = true ∨ t.count ≤ b) → exec (.timedBeatSend k id) s = .next s) ∧
    (x.sendsBeats = true → s.clockStopped k.val = false → b < t.count →
      let data := x.store.readN (t.window + 256 * b % max 1 t.winBytes) 256
      let z := s.setSl k.val { x with timed := { x.timed with done := (t.id, b + 1) :: x.timed.done.filter (·.1 != t.id) } }
      (t.peerSlice = true → exec (.timedBeatSend k id) s = .next (z.mod t.peer fun y =>
        { y with timed := { y.timed with fly := y.timed.fly ++ [⟨t.id, b, k.val, data⟩] } })) ∧
      (t.peerSlice = false → t.peer < s.chip.model.sports → exec (.timedBeatSend k id) s = .next (z.modSport t.peer fun p =>
        { p with last := some ⟨0, b % 4, BitVec.ofNat 64 t.id, data⟩ })))

/-- A beat of a strict stream that arrives in its slot lands in its window; one with another phase, or of no slot, slips: its slice faults
and drains, and the slip counts and interrupts (R366, R369, R370, R372, R390). -/
def timedBeatsArrive : Prop :=
  ∀ (s : State) (k : SliceId) (t : TimedStream) (b : TimedBeat), s.live = true → b.sport = true →
    b.port.val < s.chip.model.sports → t.peer = b.port.val → t.peerSlice = false → t.tolerant = false → 0 < t.interval →
    (s.present.find? fun j => ((s.sl j).inbound b.stream.toNat false).any fun t => t.peer == b.port.val) = some k.val →
    let x := s.sl k.val
    x.inbound b.stream.toNat false = some t → x.state = .running →
    (∀ n : Nat, t.start + n * t.interval ≤ b.cycle.toNat → b.cycle.toNat < t.start + (n + 1) * t.interval → n < t.count →
      b.phase.toNat = n % 4 → x.beatsDone t.id = n → (∀ y ∈ x.timed.skid, y.stream ≠ t.id) →
      s.pastEdge (b.cycle.toNat + t.landing k.val) = false →
        exec (.timedBeatArrive b) s = .next (s.setSl k.val { x with
          timed := { x.timed with done := (t.id, n + 1) :: x.timed.done.filter (·.1 != t.id) }
          store := x.store.writeN (t.window + 256 * n % max 1 t.winBytes) ((b.data ++ List.replicate 256 0).take 256) })) ∧
    ((t.start ≤ b.cycle.toNat → b.phase.toNat ≠ (b.cycle.toNat - t.start) / t.interval % 4) →
      ∃ u, exec (.timedBeatArrive b) s = .next u ∧ (u.sl k.val).state = .draining ∧
        ((u.sl k.val).drain.map (·.fault)) = some 0x0502 ∧ u.tick.slips = sat16 s.tick.slips 1 ∧ u.irq.status.getLsbD 4 = true ∧
        (u.sl k.val).timed.slipFault = true ∧ (x.flight = [] → (u.sl k.val).store = x.store))

/-- The end of the slot after a beat that has not come makes the stream slip; of the beats of a stream in the skid the one whose slot of
release comes first leaves it and lands in its window (R369, R370, R371). -/
def lostAndTolerated : Prop :=
  ∀ (s : State) (k : SliceId) (id : W12) (slot : W32) (t : TimedStream), s.live = true →
    let x := s.sl k.val
    (streamOf x true id.toNat = some t →
      ((x.state ≠ .running ∨ slot.toNat ≠ x.beatsDone t.id + 1 ∨ t.count ≤ x.beatsDone t.id) →
        exec (.beatLost k id slot) s = .next s) ∧
      (x.state = .running → slot.toNat = x.beatsDone t.id + 1 → x.beatsDone t.id < t.count →
        ∃ u, exec (.beatLost k id slot) s = .next u ∧ (u.sl k.val).state = .draining ∧
          ((u.sl k.val).drain.map (·.fault)) = some 0x0502 ∧ u.tick.slips = sat16 s.tick.slips 1)) ∧
    ((∀ y ∈ x.timed.skid, y.stream ≠ id.toNat) → exec (.skidRelease k id) s = .next s) ∧
    (∀ y ∈ x.timed.skid, y.stream = id.toNat → (∀ z ∈ x.timed.skid, z.stream = id.toNat → z ≠ y → y.due < z.due) →
      x.inbound id.toNat false = some t ∨ (x.inbound id.toNat false = none ∧ x.inbound id.toNat true = some t) →
      exec (.skidRelease k id) s = .next (s.setSl k.val { x with
        timed := { x.timed with skid := x.timed.skid.erase y }
        store := x.store.writeN (t.window + 256 * y.index % max 1 t.winBytes) ((y.data ++ List.replicate 256 0).take 256) }))

/-- The beats of timed streams: they leave, they arrive, or they are lost (R364 to R372). -/
def Obligations.TimedStreams : Prop := timedBeatsLeave ∧ timedBeatsArrive ∧ lostAndTolerated

/-! ### Registers written through CPORT (R223, R400, R401, R534 to R537, R547 to R550) -/

/-- The block presents the answer to a register write: WRITE_RESP, or ERR_RESP where a register rule refuses it (R400, R401). -/
def answered (s : State) (dst : W12) (off : Nat) (ok : Bool) : State :=
  { s with ports := { s.ports with cpResp := some ⟨if ok then 4 else 5, dst, BitVec.ofNat 16 off, 0⟩ } }

/-- A node takes a semaphore that is free with no waiter, and releases the one that it holds; a write of RELEASE by any other node is
refused; FORCE_RELEASE frees a held one with ABANDONED and its entry, and is refused to a node that the registered owner excludes. An
unaddressed block ignores all three (R401, R549, R550, R552). -/
def Obligations.HostSemaphores : Prop :=
  ∀ (s : State) (src : W12) (n : Byte), s.live = true →
    let m := s.sem n.toNat
    let owned : Bool := m.held && m.kind == 2 && m.owner == src
    let excluded : Bool := s.sec.ownerValid && s.sec.owner != src
    (s.node.valid = false →
      exec (.semTryAcquire src n) s = .next s ∧ exec (.semRelease src n) s = .next s ∧ exec (.semForceRelease src n) s = .next s) ∧
    (s.node.valid = true →
      (m.held = false → m.waiters = [] → exec (.semTryAcquire src n) s = .next (answered (s.modSem n.toNat fun _ => { m with
        held := true, kind := 2, owner := src, abandoned := false, acqAband := m.abandoned, acquires := m.acquires + 1 }) src 0xA800
        true)) ∧
      ((m.held = true ∨ m.waiters ≠ []) → exec (.semTryAcquire src n) s = .next (answered s src 0xA800 true)) ∧
      (owned = true → m.waiters = [] → exec (.semRelease src n) s = .next (answered (s.modSem n.toNat fun _ => { m with
        held := false, kind := 0, owner := 0, acqAband := false }) src 0xA800 true)) ∧
      (owned = false → exec (.semRelease src n) s = .next (answered s src 0xA800 false)) ∧
      (excluded = true → exec (.semForceRelease src n) s = .next (answered s src 0xA800 false)) ∧
      (excluded = false → m.held = false → exec (.semForceRelease src n) s = .next (answered s src 0xA800 true)) ∧
      (excluded = false → m.held = true → m.waiters = [] → ∃ t, exec (.semForceRelease src n) s = .next t ∧
        t.sem n.toNat = { m with held := false, kind := 0, owner := 0, acqAband := false, abandoned := true } ∧
        t.semu.aband = sat16 s.semu.aband 1 ∧ (∀ j, j ≠ n.toNat → t.sem j = s.sem j)))

/-- The writes of TLB_INVAL queue an invalidation of a range from TLB_INVAL_VA, of a domain, or of everything, and count it; with 16
waiting they are refused. The oldest one completes once no access that was translated through what it covers is unanswered: no cached
translation that it covers is left, and no other is lost (R223, R227). -/
def invalidations : Prop :=
  ∀ (s : State) (src dom : W12) (pages : W32), s.live = true → s.node.valid = true →
    let queued (i : Inval) : Host.Outcome State Fault Refusal :=
      if s.xl.invals.length < 16 then
        .next (answered { s with xl := { s.xl with invals := s.xl.invals ++ [i], issued := s.xl.issued + 1 } } src 0x6010 true)
      else .next (answered s src 0x6010 false)
    exec (.tlbInvalRange src dom pages) s = queued (.range dom.toNat (s.xl.invalVa.toNat * 4096) pages.toNat) ∧
    exec (.tlbInvalWhole src dom) s = queued (.whole dom.toNat) ∧ exec (.tlbInvalAll src) s = queued .all ∧
    (s.xl.invals = [] → exec .tlbInvalDone s = .next s) ∧
    (∀ i rest, s.xl.invals = i :: rest → s.inFlight i = true → exec .tlbInvalDone s = .next s) ∧
    (∀ i rest, s.xl.invals = i :: rest → s.inFlight i = false → ∃ t, exec .tlbInvalDone s = .next t ∧ t.xl.invals = rest ∧ t.xl.done = s.xl.done + 1 ∧
      (∀ e ∈ s.xl.hub.tlb, e ∈ t.xl.hub.tlb ∨ i.meets e.domain e.va (2 ^ e.log2) = true) ∧
      (∀ e ∈ t.xl.hub.tlb, e ∈ s.xl.hub.tlb ∧ i.meets e.domain e.va (2 ^ e.log2) = false) ∧
      (∀ k : SliceId, ∀ e ∈ (t.sl k.val).micro, e ∈ (s.sl k.val).micro ∧ i.meets e.domain e.va (2 ^ e.log2) = false) ∧
      t.xl.hub.domains = s.xl.hub.domains)

/-- DOM_SEL stages the current entry of a domain; DOM_COMMIT copies the staged fields into it and starts an invalidation of the domain;
it is refused for domain 0, while a commit is unfinished, to a node that the registered owner excludes, and where it would move the
table of a domain that an open KV context names; the commit's invalidation ends it, once no access translated in the domain is unanswered
(R534, R535, R538). -/
def domainEntries : Prop :=
  ∀ (s : State) (src : W12) (data : W64), s.live = true → s.node.valid = true →
    let id : W12 := data.setWidth 12
    let d := (s.xl.hub.domains.find? fun d => d.id == id.toNat).getD ⟨id.toNat, false, 0, 0, false, false⟩
    let new := s.staged
    let old := (s.xl.hub.domains.find? fun d => d.id == new.id).getD ⟨new.id, false, 0, 0, false, false⟩
    let moves : Bool := new.root != old.root || new.target != old.target
    let ok : Bool := s.xl.domSel != 0 && s.xl.commit.isNone && !(s.sec.ownerValid && s.sec.owner != src) &&
      !(moves && s.kv.ctxs.any fun c => c.domain == new.id)
    exec (.domSel src data) s = .next (answered { s with xl := { s.xl with
        domSel := id, domRoot := if id = 0 then 0 else BitVec.ofNat 32 (d.root / 2 ^ 20), domCtl := if id = 0 then 0 else d.ctl } } src
      0xD018 true) ∧
    (ok = false → exec (.domCommit src) s = .next (answered s src 0xD030 false)) ∧
    (ok = true → ∃ t, exec (.domCommit src) s = .next t ∧ t.xl.hub.domains.find? (fun d => d.id == new.id) = some new ∧
      (∀ n, n ≠ new.id → t.xl.hub.domains.find? (fun d => d.id == n) = s.xl.hub.domains.find? fun d => d.id == n) ∧
      t.xl.commit = some new.id ∧ t.xl.domIssued = s.xl.domIssued + 1 ∧ (t.ports.cpResp.map (·.op)) = some 4) ∧
    (s.xl.commit = none → exec .domCommitDone s = .next s) ∧
    (∀ n, s.xl.commit = some n → s.inFlight (.whole n) = true → exec .domCommitDone s = .next s) ∧
    (∀ n, s.xl.commit = some n → s.inFlight (.whole n) = false → ∃ t, exec .domCommitDone s = .next t ∧ t.xl.commit = none ∧ t.xl.domDone = s.xl.domDone + 1 ∧
      (∀ e ∈ t.xl.hub.tlb, e ∈ s.xl.hub.tlb ∧ e.domain ≠ n) ∧ ∀ e ∈ s.xl.hub.tlb, e.domain ≠ n → e ∈ t.xl.hub.tlb)

/-- The first write of SEC_CFG.OWNER registers the owner and every later one is refused. A write of SEC_UNLOCK_GO with a valid token
unlocks its scope; with another it counts a failure, and the eighth locks the unit out; each draws a new nonce. A locked-out unit checks
nothing, and a node that the owner excludes is refused (R535, R537). -/
def ownerAndUnlock : Prop :=
  ∀ (s : State) (src : W12) (data : W64) (scope : Byte), s.live = true → s.node.valid = true →
    let excluded : Bool := s.sec.ownerValid && s.sec.owner != src
    (s.sec.ownerValid = false → exec (.secCfgOwner src data) s =
      .next (answered { s with sec := { s.sec with owner := data.setWidth 12, ownerValid := true } } src 0xD008 true)) ∧
    (s.sec.ownerValid = true → exec (.secCfgOwner src data) s = .next (answered s src 0xD008 false)) ∧
    (excluded = true → exec (.secUnlockGo src scope) s = .next (answered s src 0xD0C0 false)) ∧
    (excluded = false → s.sec.lockedOut = true → exec (.secUnlockGo src scope) s = .next (answered s src 0xD0C0 true)) ∧
    (excluded = false → s.sec.lockedOut = false → ∃ t, exec (.secUnlockGo src scope) s = .next t ∧
      t.sec.nonce = s.sec.nonce + 1 ∧
      (s.tokenValid scope = true → t.sec.unlocked = true ∧ t.sec.scope = scope ∧ t.sec.fails = s.sec.fails) ∧
      (s.tokenValid scope = false → t.sec.unlocked = s.sec.unlocked ∧ t.sec.fails = s.sec.fails + 1 ∧
        t.sec.lockedOut = decide (8 ≤ s.sec.fails + 1)))

/-- The domain entries, the owner of the block and its debug unlock (R530 to R538). -/
def Obligations.DomainRegisters : Prop := domainEntries ∧ ownerAndUnlock

/-- A completed walk of a page caches its leaf in the hub's TLB, where the walk finds one; the tables and every memory stay. A set of
the TLB holds eight entries, and its least recently used one leaves for a ninth. A walk that meets a column in HALT waits (R221, R222,
R338, R560; which set an entry is in is free, log 3). -/
def walksCache : Prop :=
  ∀ (s : State) (dom : W12) (va : BitVec 56) (errs : List SoftErr), s.live = true →
    let set (e : TlbEntry) : Nat := Config.tlbSet e.domain e.va e.log2 % 8192
    (s.xl.hub.domains.find? (fun d => d.id == dom.toNat && d.valid) = none → exec (.translationWalkDone dom ⟨va, errs⟩) s = .next s) ∧
    (∀ d, s.xl.hub.domains.find? (fun d => d.id == dom.toNat && d.valid) = some d →
      (∀ e ∈ s.xl.hub.tlb, e.covers dom.toNat va.toNat = false) → d.target < 2 →
      let walk := walkFrom (s.waitingRun (s.mkRun 0 0 false false)).env s.emul s.ext dom.toNat va.toNat 4 (d.target == 1) d.root
        s.xl.hub.walkc
      (∀ level entry, walk.1 = .stop 0 level entry → exec (.translationWalkDone dom ⟨va, []⟩) s = .next s) ∧
      (∀ leaf, walk.1 = .leaf leaf → ∃ tlb, exec (.translationWalkDone dom ⟨va, []⟩) s = .next { s with xl := { s.xl with
          hub := { s.xl.hub with tlb := leaf :: tlb, walkc := walk.2, walks := s.xl.hub.walks + 1 }
          walks := BitVec.ofNat 48 (satAdd (2 ^ 48 - 1) s.xl.walks.toNat 1) } } ∧
        (∀ e ∈ tlb, e ∈ s.xl.hub.tlb) ∧ (∀ e ∈ s.xl.hub.tlb, set e ≠ set leaf → e ∈ tlb) ∧
        ((s.xl.hub.tlb.filter fun e => set e == set leaf).length < 8 → tlb = s.xl.hub.tlb) ∧
        (8 ≤ (s.xl.hub.tlb.filter fun e => set e == set leaf).length →
          tlb.filter (fun e => set e == set leaf) = (s.xl.hub.tlb.filter fun e => set e == set leaf).take 7)))

/-- What fills and empties the translation caches (R221 to R230). -/
def Obligations.TranslationCaches : Prop := invalidations ∧ walksCache

/-! ### SPORTs and MPORTs (R389 to R397) -/

/-- A SPORT that comes up, once the ports run, opens 16 inbound credits of each channel; one that goes down loses every credit; a returned
credit counts, up to 255, and one more is an overflow; a beat on VC2 is dropped and counted. A port that is absent, or in the other state,
changes nothing (R389, R391). -/
def sportCredits : Prop :=
  ∀ (s : State) (p : Fin 16) (vc : Fin 4), s.live = true →
    let there : Bool := decide (p.val < s.chip.model.sports)
    let up : Bool := there && s.ports.spUp.getLsbD p.val
    let x := s.sport p.val
    let c := if vc.val = 1 then x.out1 else x.out3
    (there = true → up = false → s.start.done.length = 4 → exec (.sportUp p) s =
      .next ({ s with ports := { s.ports with spUp := s.ports.spUp ||| (1#16 <<< p.val) } }.modSport p.val fun _ =>
        { x with in1 := 16, in3 := 16 })) ∧
    ((there = false ∨ up = true) → exec (.sportUp p) s = .next s) ∧
    (up = true → exec (.sportDown p) s =
      .next ({ s with ports := { s.ports with spUp := s.ports.spUp &&& ~~~(1#16 <<< p.val) } }.modSport p.val fun _ =>
        { x with out1 := 0, out3 := 0, in1 := 0, in3 := 0 })) ∧
    (up = false → exec (.sportDown p) s = .next s) ∧
    ((up = false ∨ (vc.val ≠ 1 ∧ vc.val ≠ 3)) → exec (.sportCreditReturn p vc) s = .next s) ∧
    (up = true → vc.val = 1 ∨ vc.val = 3 →
      (255 ≤ c → exec (.sportCreditReturn p vc) s =
        .next { s with ports := { s.ports with credOvf := sat16 s.ports.credOvf 1 } }) ∧
      (c < 255 → (∀ b ∈ x.wait, b.vc ≠ vc.val) → exec (.sportCreditReturn p vc) s = .next (s.modSport p.val fun _ =>
        if vc.val = 1 then { x with out1 := c + 1 } else { x with out3 := c + 1 }))) ∧
    (there = true → exec (.inboundVc2Beat p) s = .next { s with ports := { s.ports with dropped := sat16 s.ports.dropped 1 } }) ∧
    (there = false → exec (.inboundVc2Beat p) s = .next s)

/-- The host's aperture reads and writes 256 bytes of a slice store whose APERTURE bit is set and whose slice is supplied and loaded
past COLD; anything else it answers with ERROR and changes nothing. An answer takes an outbound credit, or waits for one; a beat that the
host had no credit for is dropped and counted (R391, R392, R393, R471). -/
def Obligations.ApertureAccesses : Prop :=
  ∀ (s : State) (p : Fin 16) (b : SpBeat) (k : SliceId) (line tag : Nat), s.live = true → p.val < s.chip.model.sports →
    s.start.done.length = 4 → b.vc = 1 ∨ b.vc = 3 →
    let x := s.sport p.val
    let y := s.sl k.val
    let vc := b.vc.toNat
    let h (op : Nat) : W64 := BitVec.ofNat 64 (op + tag * 2 ^ 4 + k.val * 2 ^ 16 + line * 2 ^ 24)
    let open' : Bool := s.ports.aperture.getLsbD k.val && decide (k.val < s.chip.model.slices) && y.state != .off && y.state != .cold
    let c := if vc = 1 then x.out1 else x.out3
    let reply (op : Nat) (data : List Byte) : Sport :=
      let beat : Beat := ⟨vc, 0, BitVec.ofNat 64 (op + tag * 16), data⟩
      if c = 0 then { x with wait := [beat] }
      else if vc = 1 then { x with out1 := c - 1, last := some beat } else { x with out3 := c - 1, last := some beat }
    exec (.apertureRead p b) s = exec (.apertureWrite p b) s ∧
    ((if vc = 1 then x.in1 else x.in3) = 0 → ∃ t, exec (.apertureWrite p b) s = .next t ∧ t.slices = s.slices ∧
      t.ports = { s.ports with credOvf := sat16 s.ports.credOvf 1 }) ∧
    ((if vc = 1 then x.in1 else x.in3) ≠ 0 → x.wait = [] → tag < 4096 → line < 98304 →
      (open' = true → b.hdr = h 1 → exec (.apertureWrite p b) s = .next ((s.setSl k.val { y with
        store := y.store.writeN (line * 256) ((b.data ++ List.replicate 256 0).take 256) }).modSport p.val fun _ => reply 4 [])) ∧
      (open' = true → b.hdr = h 2 → exec (.apertureRead p b) s =
        .next (s.modSport p.val fun _ => reply 3 (y.store.readN (line * 256) 256))) ∧
      (open' = false → b.hdr = h 1 ∨ b.hdr = h 2 →
        exec (.apertureWrite p b) s = .next (s.modSport p.val fun _ => reply 5 [])))

/-- A response to an outstanding tag frees it for an access of its quadrant that waits for one, and with ERROR or POISON its instruction
faults with EXT_ERROR or EXT_POISON; a response that nothing waits for is counted as stray; a failed copy of a contact-sheet entry ends
spill, and changes external memory in the ring alone (R26, R382, R397, R541). -/
def mportResponses : Prop :=
  ∀ (s : State) (n : W12) (kind status : BitVec 2) (t : MTag), s.live = true → kind ≠ 3 → status ≠ 3 →
    let c := Instr.mportResponse ⟨.tag n, kind, status⟩
    let freed : Ports := { s.ports with tags := s.ports.tags.filter fun x => x.tag != n }
    (s.ports.tags.find? (fun t => t.tag == n) = none →
      exec c s = .next { s with ports := { s.ports with mpStray := sat16 s.ports.mpStray 1 } }) ∧
    (s.ports.tags.find? (fun t => t.tag == n) = some t →
      (status = 0 → s.ports.waits = [] → exec c s = .next { s with ports := freed }) ∧
      (∀ w : MTag, status = 0 → s.ports.waits = [w] → w.slice / 8 = n.toNat / 1024 → n.toNat % 1024 < 768 → ∃ m : W12,
        exec c s = .next { s with ports := { freed with tags := freed.tags ++ [{ w with tag := m }], waits := [] } } ∧
          m.toNat / 1024 = n.toNat / 1024 ∧ ∀ x ∈ freed.tags, x.tag ≠ m) ∧
      (status ≠ 0 → s.ports.waits = [] → ∀ (e : Entry) (r : Running), s.running t.slice t.key = some (e, r) →
        stoppedStatus r.status = false → (s.sl t.slice).state = .running → t.slice < 32 → ∃ u, exec c s = .next u ∧
          u.ports.tags = freed.tags ∧ u.ports.mpErr = sat16 s.ports.mpErr 1 ∧ (u.sl t.slice).state = .draining ∧
          ((u.sl t.slice).drain.map (·.fault)) = some (if status = 1 then 0x0302 else 0x0303))) ∧
    (s.sheet.spillOn = true → status ≠ 0 → ∃ u, exec (.mportResponse ⟨.spill, kind, status⟩) s = .next u ∧
      u.ports = { s.ports with mpErr := sat16 s.ports.mpErr 1 } ∧ u.sheet = { s.sheet with spillOn := false, spillErr := true } ∧
      u.slices = s.slices ∧ u.emul = s.emul ∧
      ∀ a, (a < s.sheet.base.toNat * 4096 ∨ s.sheet.base.toNat * 4096 + 2 ^ s.sheet.log2.toNat * 32 ≤ a) → u.ext.read a = s.ext.read a)

/-- Credits of the SPORTs and the responses of the MPORTs (R388 to R400). -/
def Obligations.PortsAnswer : Prop := sportCredits ∧ mportResponses

/-! ### The register window (R11 to R13, R38, R401) -/

/-- An unaddressed block ignores reads and writes. An access of another width or alignment is answered with an error and changes nothing.
A read answers with the register's value; the error counters read their fields and are clear afterwards; the identity area, and a
reserved offset, are not changed by reads or writes (R11, R12, R13, R38, R401, R407). -/
def Obligations.RegisterAccesses : Prop :=
  ∀ (s : State) (a : RegAcc) (d : W64), s.live = true →
    let off := a.offset.toNat
    let bad : Bool := a.size != 3 || decide (off % 8 ≠ 0)
    let got (t : State) (v : Nat) : Host.Outcome State Fault Refusal :=
      .next { t with ports := { t.ports with cpResp := some ⟨3, a.src, a.offset, BitVec.ofNat 64 v⟩ } }
    (s.node.valid = false → exec (.registerReadClear a) s = .next s ∧ exec (.registerWrite a d) s = .next s) ∧
    (s.node.valid = true → bad = true →
      exec (.registerReadClear a) s = .next (answered s a.src off false) ∧
      exec (.registerWrite a d) s = .next (answered s a.src off false)) ∧
    (s.node.valid = true → bad = false →
      (∃ t, exec (.registerReadClear a) s = .next t ∧
        t.ports.cpResp = some ⟨3, a.src, a.offset, BitVec.ofNat 64 (s.readReg off)⟩) ∧
      (off < 0x1000 ∨ 0xF000 ≤ off → exec (.registerReadClear a) s = got s (s.readReg off) ∧
        exec (.registerWrite a d) s = .next (answered s a.src off true)) ∧
      (0xF000 ≤ off → s.readReg off = 0) ∧
      (off = 0x2030 → exec (.registerReadClear a) s =
        got { s with tick := { s.tick with glitch := 0, missed := 0, overexp := 0, slips := 0 } }
          (s.tick.glitch.toNat + s.tick.missed.toNat * 2 ^ 16 + s.tick.overexp.toNat * 2 ^ 32 + s.tick.slips.toNat * 2 ^ 48)) ∧
      (off = 0x3020 → exec (.registerWrite a d) s =
        .next (answered { s with irq := { s.irq with route := d.setWidth 27 } } a.src off true)) ∧
      (off = 0x3038 → exec (.registerWrite a d) s =
        .next (answered { s with ports := { s.ports with aperture := d.setWidth 32 } } a.src off true)) ∧
      (∀ (c : Channel) (i : Fin 8), off = 0x1000 + c.val * 0x100 + i.val * 8 → exec (.registerWrite a d) s =
        .next (answered (s.modChan c.val fun x => { x with stage := x.stage.set i d }) a.src off true)) ∧
      (∀ i : Fin 12, off = 0xD060 + i.val * 8 → (s.sec.ownerValid = false ∨ s.sec.owner = a.src) → exec (.registerWrite a d) s =
        .next (answered { s with sec := { s.sec with data := s.sec.data.set i d } } a.src off true)))

/-- No command changes what the identity registers read, SLICE_AVAIL apart (R38, R39). -/
def Obligations.IdentityIsFixed : Prop :=
  ∀ (c : Instr) (s t : State) (off : Nat), exec c s = .next t → off < 0x1000 → off ≠ 0x18 → t.readReg off = s.readReg off

/-- The registered owner: the first write sets it and every later one is refused; from then on only that node commits domain entries or
writes the unlock registers (R535). -/
def Obligations.OwnerAlone : Prop :=
  ∀ (s : State) (src : W12) (data : W64) (scope : Byte), s.live = true → s.node.valid = true →
    (s.sec.ownerValid = false → exec (.secCfgOwner src data) s =
      .next (answered { s with sec := { s.sec with owner := data.setWidth 12, ownerValid := true } } src 0xD008 true)) ∧
    (s.sec.ownerValid = true →
      exec (.secCfgOwner src data) s = .next (answered s src 0xD008 false) ∧
      (src ≠ s.sec.owner →
        exec (.domCommit src) s = .next (answered s src 0xD030 false) ∧
        exec (.secUnlockGo src scope) s = .next (answered s src 0xD0C0 false) ∧
        ∀ (i : Fin 12) (a : RegAcc), a.src = src → a.size = 3 → a.offset.toNat = 0xD060 + i.val * 8 →
          exec (.registerWrite a data) s = .next (answered s src a.offset.toNat false)))

/-! ### Interrupts, the contact sheet and completion rings (R155, R382, R383, R406) -/

/-- Writing 1 to bits of IRQ_STATUS clears them; a write of CRING_PTR.RD or CS_RD moves the read pointer, CS_RD at most the sheet's capacity
behind WR; each is acknowledged, and an unaddressed block ignores it (R155, R383, R401, R406). -/
def pointersAndInterrupts : Prop :=
  ∀ (s : State) (src : W12) (k : SliceId) (rd : W16) (mask : BitVec 9) (d : W64), s.live = true → s.node.valid = true →
    let rd' : W32 := d.setWidth 32
    let cap : Nat := if s.sheet.spillOn then 2 ^ s.sheet.log2.toNat else 32768
    exec (.irqStatusClear src mask) s =
      .next (answered { s with irq := { s.irq with status := s.irq.status &&& ~~~mask } } src 0x3018 true) ∧
    (k.val < s.chip.model.slices → exec (.cringPtrRd src k rd) s = .next (answered (s.setSl k.val { s.sl k.val with
      cring := { (s.sl k.val).cring with rd := rd } }) src (0x8018 + k.val * 0x100) true)) ∧
    exec (.csRd src d) s = .next (answered { s with sheet := { s.sheet with
      rd := if (s.sheet.wr - rd').toNat ≤ cap then rd' else s.sheet.wr - BitVec.ofNat 32 cap } } src 0xC008 true)

/-- Spill is switched on with a ring of 2^12 to 2^25 entries aligned to its size, and off; a bad size or base, or a change of an enabled
ring, is refused. Enabling it copies the entries that wait (R382, R383). -/
def spillControl : Prop :=
  ∀ (s : State) (src : W12) (d : W64), s.live = true → s.node.valid = true →
    let lg : BitVec 5 := (d >>> 1).setWidth 5
    let base : BitVec 40 := (d >>> 12).setWidth 40
    let moved : Bool := base != s.sheet.base || lg != s.sheet.log2
    let fits : Bool := decide (12 ≤ lg.toNat ∧ lg.toNat ≤ 25) && decide (base.toNat * 4096 % 2 ^ (lg.toNat + 5) = 0)
    (s.sheet.spillOn = true → moved = true → exec (.csSpill src d) s = .next (answered s src 0xC018 false)) ∧
    (d.getLsbD 0 = true → fits = false → exec (.csSpill src d) s = .next (answered s src 0xC018 false)) ∧
    ((s.sheet.spillOn = false ∨ moved = false) → d.getLsbD 0 = false → exec (.csSpill src d) s =
      .next (answered { s with sheet := { s.sheet with spillOn := false, log2 := lg, base := base } } src 0xC018 true)) ∧
    (s.sheet.spillOn = false → d.getLsbD 0 = true → fits = true → s.sheet.ring = [] → exec (.csSpill src d) s =
      .next (answered { s with sheet := { s.sheet with spillOn := true, log2 := lg, base := base, spillErr := false } } src 0xC018
        true))

/-- The registers with commands of their own: interrupts, ring pointers, the contact sheet's spill ring (R155, R382, R383, R406). -/
def Obligations.InterruptsAndPointers : Prop := pointersAndInterrupts ∧ spillControl

/-! ### Mailbox rings (R415, R424 to R435) -/

/-- A doorbell pushes the staged request, is refused while the ring holds 64, and has no effect before READY; a pop takes the oldest
completion, posts one that waits, and does nothing on an empty ring (R415, R425, R426, R427). -/
def doorbellsAndPops : Prop :=
  ∀ (s : State) (src : W12) (ch : Channel), s.live = true → s.node.valid = true →
    let x := s.chan ch.val
    let bell := 0x1040 + ch.val * 0x100
    let pop := 0x1050 + ch.val * 0x100
    (s.start.phase ≠ .ready → exec (.mbDoorbell src ch) s = .next (answered s src bell true)) ∧
    (s.start.phase = .ready → 64 ≤ x.reqs.length → exec (.mbDoorbell src ch) s = .next (answered s src bell false)) ∧
    (s.start.phase = .ready → x.reqs.length < 64 → exec (.mbDoorbell src ch) s = .next (answered (s.modChan ch.val fun _ => { x with
      reqs := x.reqs ++ [x.stage.toList.flatMap fun w => leBytes 8 w.toNat], reqWr := x.reqWr + 1 }) src bell true)) ∧
    (x.cpls = [] → exec (.mbCplPop src ch) s = .next (answered s src pop true)) ∧
    (∀ c rest, x.cpls = c :: rest → x.held = [] → exec (.mbCplPop src ch) s =
      .next (answered (s.modChan ch.val fun _ => { x with cpls := rest, cplRd := x.cplRd + 1 }) src pop true)) ∧
    (∀ c rest m more, x.cpls = c :: rest → rest.length < 64 → x.held = m :: more → exec (.mbCplPop src ch) s =
      .next (answered (({ s with irq := { s.irq with status := s.irq.status ||| 1#9 } }).modChan ch.val fun _ => { x with
        cpls := rest ++ [leBytes 8 s.now ++ m.drop 8], cplRd := x.cplRd + 1, cplWr := x.cplWr + 1, held := more }) src pop true))

/-- A completion posted into a ring with room and nothing waiting before it: the entry is stamped, WR counts, and the mailbox source
interrupts (R426, R427, R431). -/
def posted (s : State) (ch : Nat) (m : List Byte) : State :=
  { s with
    mbox := s.mbox.setIfInBounds ch { s.chan ch with
      cpls := (s.chan ch).cpls ++ [leBytes 8 s.now ++ m.drop 8], cplWr := (s.chan ch).cplWr + 1 }
    irq := { s.irq with status := s.irq.status ||| 1#9 } }

/-- Firmware starts requests in turn, channel by channel after the one served last: the request leaves its ring, its timeout runs from
now, and one that fails a check common to all commands, or whose fields pass but that needs an object which a command in progress holds,
completes at once, the latter BUSY. A command that starts holds what it needs. With no channel that can start, nothing happens (R426,
R430, R433, R434, R562). -/
def requestsStart : Prop :=
  ∀ (s : State) (ch : Channel) (m : List Byte) (rest : List (List Byte)), s.live = true →
    let x := s.chan ch.val
    let y : Chan := { x with reqs := rest, reqRd := x.reqRd + 1 }
    let z : State := { s with fw := { s.fw with rrLast := ch.val } }
    let ms := if fieldOf m 8 4 = 0 then s.setting 0x0701 else fieldOf m 8 4
    (s.fw.running = false → exec .mailboxRequestStart s = .next s) ∧
    ((∀ c : Channel, (s.chan c.val).canStart = false) → exec .mailboxRequestStart s = .next s) ∧
    (s.fw.running = true → s.fw.rrLast < 16 → x.reqs = m :: rest → x.running = none → x.cpls.length < 64 → x.held = [] →
      (∀ c : Channel, (c.val + 15 - s.fw.rrLast) % 16 < (ch.val + 15 - s.fw.rrLast) % 16 → (s.chan c.val).canStart = false) →
      let popped := z.modChan ch.val fun _ => y
      let cmd : Cmd := ⟨ch.val, m, s.now, s.now + ms * 1000000, false, false, [], 0, 0, 0, 0, 0, none⟩
      let need := popped.needOf (fieldOf m 0 2)
      (s.headerBad ch.val m = none → (need.fields cmd).isSome = true → exec .mailboxRequestStart s =
        .next (z.modChan ch.val fun _ => { y with running := some cmd })) ∧
      (s.headerBad ch.val m = none → need.fields cmd = none → need.limit cmd = none →
        (∀ o ∈ need.objs cmd, ∀ x ∈ popped.cmds, o ∉ x.objs) → exec .mailboxRequestStart s =
          .next (z.modChan ch.val fun _ => { y with running := some { cmd with objs := need.objs cmd } })) ∧
      (∀ o more x, s.headerBad ch.val m = none → need.fields cmd = none → need.objs cmd = o :: more → x ∈ popped.cmds → x ≠ cmd →
        o ∈ x.objs → exec .mailboxRequestStart s = .next (posted popped ch.val (cplMsg (fieldOf m 4 4) (fieldOf m 0 2) 4 0 o.num 0 []))) ∧
      (∀ e, s.headerBad ch.val m = some e → exec .mailboxRequestStart s = .next (posted popped ch.val
        (cplMsg (fieldOf m 4 4) (fieldOf m 0 2) e.status 0 e.a e.b e.res))))

/-- A command that runs past its deadline ends TIMEOUT; one that goes on posts TIMEOUT and is no longer the command that its channel
runs. Before the deadline, or with none running, nothing happens (R433, R546). -/
def commandsTimeOut : Prop :=
  ∀ (s : State) (ch : Channel) (m : Cmd), s.live = true →
    let x := s.chan ch.val
    (x.running = none → exec (.commandTimeout ch) s = .next s) ∧
    (x.running = some m → s.now < m.deadline → exec (.commandTimeout ch) s = .next s) ∧
    (x.running = some m → m.chan = ch.val → m.late = false → s.fw.running = true → m.deadline ≤ s.now → x.cpls.length < 64 → x.held = [] →
      let z := s.log (0x0200 + ch.val) 10 2 false (objData ch.val m.code (m.f 4 4) 0)
      let z := if continuing m.code m.msg then { z with fw := { z.fw with conts := z.fw.conts ++ [{ m with late := true }] } } else z
      exec (.commandTimeout ch) s = .next (posted (z.modChan ch.val fun _ => { x with running := none }) ch.val
        (cplMsg (m.f 4 4) m.code 10 0 0 0 [])))

/-- The mailbox rings, the start and the timeout of requests (R425 to R427, R433). -/
def Obligations.MailboxService : Prop := doorbellsAndPops ∧ requestsStart ∧ commandsTimeOut

/-! ### KV pages, trays and fading (R282 to R303) -/

/-- No column of the emulsion is being retired. -/
def noRetiring (s : State) : Bool := (List.range 32).all fun c => (s.col c).state != .retiring

/-- A fix that ends makes its page LIVE and its tray empty, and the frame's place holds the tray's tokens; a park or a restore that ends
leaves the tray in its park slot, or in the hub as it was. A park makes the slot's granules whole, a restore of tokens from an
uncorrectable one loses them, and firmware is to fade the layer. Where the slot's column is in HALT they wait; a tray that is in no such
transition does not change (R284, R285, R292, R331, R332, R338; which length a lost tray leaves is the model's reading, log 19). -/
def trayTransitionsEnd : Prop :=
  ∀ (s : State) (n : BitVec 15) (l : BitVec 6) (x : KvLayer), s.live = true → s.layer n.toNat l.toNat = some x →
    let slot := s.slotGranules n.toNat l.toNat
    let halted : Bool := s.haltColumns.contains x.column
    ((x.tray ≠ .parking ∨ halted = true) → exec (.trayParkDone n l) s = .next s) ∧
    (x.tray = .parking → halted = false → s.keptBytes ≤ 50331648 →
      exec (.trayParkDone n l) s = .next ({ s with ectl := { s.ectl with poisoned := s.ectl.poisoned.filter fun g => !slot.contains g } }.modLayer
        n.toNat l.toNat fun y => { y with tray := .parked })) ∧
    (∀ errs : List SoftErr, (x.tray ≠ .restoring ∨ 50331648 < s.trayBytes ∨ halted = true) →
      exec (.trayRestoreDone n ⟨l, errs⟩) s = .next s) ∧
    (x.tray = .restoring → s.trayBytes ≤ 50331648 → halted = false →
      (∀ w ∈ s.kv.waiters, ¬(w.kind = .restore ∧ w.ctx = n.toNat ∧ w.layer = l.toNat)) →
      (x.tokens = [] ∨ ∀ g ∈ slot, g ∉ s.ectl.poisoned) →
      exec (.trayRestoreDone n ⟨l, []⟩) s = .next (s.modLayer n.toNat l.toNat fun y =>
        { y with tray := if y.wasFull then .full else .resident, wasFull := false })) ∧
    (∀ g, x.tray = .restoring → s.trayBytes ≤ 50331648 → halted = false → x.tokens ≠ [] → g ∈ slot → g ∈ s.ectl.poisoned →
      (∀ w ∈ s.kv.waiters, ¬(w.kind = .restore ∧ w.ctx = n.toNat ∧ w.layer = l.toNat)) →
      ∃ t, exec (.trayRestoreDone n ⟨l, []⟩) s = .next t ∧ (⟨n.toNat, x.k * 16, some l.toNat⟩ : ErrFade) ∈ t.kv.errFades ∧
        (t.layer n.toNat l.toNat).map (fun y => (y.len, y.tokens.length, y.tray)) =
          some (x.len, x.tokens.length, if x.wasFull then .full else .resident)) ∧
    (x.tray ≠ .fixing → exec (.trayFixDone n l) s = .next s) ∧
    (∀ (g : KvGroup) (p : KvPool), x.tray = .fixing → s.groupOf n.toNat l.toNat x.k = some (g, p) → s.haltColumns = [] →
      s.kv.waiters = [] → noRetiring s = true → s.keptBytes ≤ 50331648 → ∃ t, exec (.trayFixDone n l) s = .next t ∧
        t.layer n.toNat l.toNat = some { x with
          tray := .resident, wasFull := false, tokens := [], faded := x.faded.filter fun f => f.1 != x.k } ∧
        t.kv.groups = (s.kv.groups.map fun y => if y = g then { y with frames := y.frames.set (x.k % p.z) .live } else y) ∧
        (p.emul = true → t.ext = s.ext) ∧ (p.emul = false → s.kv.tabs = [] → t.emul = s.emul) ∧ t.slices = s.slices ∧
        (p.streams = 1 → p.emul = false → p.planar = false → fmtBits p.fmt = 8 → fmtMx p.fmt = false →
          (∀ v ∈ x.tokens, v.s0.codes.length = p.width ∧ ∀ c ∈ v.s0.codes, c < 256) →
          t.ext = s.ext.writeN (p.elemPa g.column g.num 0 (x.k % p.z))
            (x.tokens.flatMap fun v => v.s0.codes.map fun c => BitVec.ofNat 8 c)))

/-- The fix of a slice that waits for a free group gives up at its deadline: its instruction ends POOL_EMPTY with what it did (R293,
R295). -/
def fixWaitsTimeOut : Prop :=
  ∀ (s : State) (k : SliceId), s.live = true →
    let w? := s.kv.waiters.find? fun w => w.slice == k.val && w.kind == .group
    (w? = none → exec (.fixWaitTimeout k) s = .next s) ∧
    (∀ w, w? = some w → (∀ d, w.deadline = some d → s.now < d) → exec (.fixWaitTimeout k) s = .next s) ∧
    (∀ w d e r, w? = some w → w.deadline = some d → d ≤ s.now → s.running k.val w.key = some (e, r) → ∃ t,
      exec (.fixWaitTimeout k) s = .next t ∧
        t.kv = { s.kv with waiters := s.kv.waiters.filter fun v => !(v.slice == k.val && v.key == w.key) } ∧
        ((t.running k.val w.key).map fun x => (x.2.status, x.2.done)) = some (7, r.done) ∧
        (t.sl k.val).store = (s.sl k.val).store ∧ (t.sl k.val).seq = (s.sl k.val).seq ∧ ∀ j, j ≠ k.val → t.sl j = s.sl j)

/-- How the transitions of a tray and the waits of a fix end (R284, R285, R292, R293). -/
def Obligations.TraysAndFixes : Prop := trayTransitionsEnd ∧ fixWaitsTimeOut

/-- KV_HINT brings a context's parked trays back, or keeps its trays through the next tick edge; one for a context that is not open only
writes its entry. A closing context that no instruction pins and no fade step works on gives back its groups and its page tables and is no longer open;
until then it stays (R301, R303, R401, R563). -/
def Obligations.HintsAndCloses : Prop :=
  ∀ (s : State) (src : W12) (n : BitVec 15), s.live = true → s.node.valid = true →
    (s.kv.ctx n.toNat = none →
      exec (.kvHintUnpark src n) s = .next (answered (s.log 0x0101 6 5 false (objData n.toNat 0 0 0)) src 0x4010 true) ∧
      exec (.kvHintKeep src n) s = .next (answered (s.log 0x0101 6 5 false (objData n.toNat 0 0 0)) src 0x4010 true) ∧
      exec (.kvCloseFinish n) s = .next s) ∧
    (∀ c, s.kv.ctx n.toNat = some c →
      exec (.kvHintKeep src n) s = .next (answered (s.modCtx n.toNat fun c => { c with keep := true }) src 0x4010 true) ∧
      (∃ t, exec (.kvHintUnpark src n) s = .next t ∧ (t.ports.cpResp.map (·.op)) = some 4 ∧
        ∀ l, (s.layer n.toNat l).map (·.tray) = some .parked → (t.layer n.toNat l).map (·.tray) = some .restoring) ∧
      ((c.closing = false ∨ c.pins ≠ [] ∨ s.kv.fades.any (·.ctx == n.toNat) = true ∨ s.fw.running = false) →
        exec (.kvCloseFinish n) s = .next s) ∧
      (s.fw.running = true → c.closing = true → c.pins = [] → s.kv.fades.any (·.ctx == n.toNat) = false →
        c.layers.any (fun l => l.tray == .fixing) = false → s.cmds = [] → s.kv.waiters = [] → noRetiring s = true →
        s.keptBytes ≤ 50331648 →
        ∃ t, exec (.kvCloseFinish n) s = .next t ∧ t.kv.ctx n.toNat = none ∧
          t.kv.groups = (s.kv.groups.filter fun g => g.ctx != n.toNat) ∧ (∀ m, m ≠ n.toNat → t.kv.ctx m = s.kv.ctx m) ∧
          t.kv.pools = s.kv.pools ∧
          (∀ b ∈ t.kv.tabs, b ∈ s.kv.tabs ∧ ∀ i j, b.use ≠ .layer n.toNat i ∧ b.use ≠ .fine n.toNat i j) ∧
          (∀ b ∈ s.kv.tabs, b ∉ t.kv.tabs → (∃ i j, b.use = .layer n.toNat i ∨ b.use = .fine n.toNat i j) ∨
            b.use = .group c.domain (n.toNat / 8)) ∧
          (s.kv.tabs = [] → t.emul = s.emul ∧ t.ext = s.ext)))

/-- A fade step begins for an error that waits, else for the first victim of a chain under pressure that names the pool, with at most
four at once (R297, R299, R300). -/
def fadeStepsBegin : Prop :=
  ∀ (s : State) (pool : Fin 8), s.live = true → noRetiring s = true → s.kv.waiters = [] →
    (s.fw.running = false ∨ 4 ≤ s.kv.fades.length → ∃ t, exec (.fadeStepStart pool) s = .next t ∧ t.kv.fades = s.kv.fades ∧
      t.kv.ctxs = s.kv.ctxs ∧ t.kv.groups = s.kv.groups) ∧
    (∀ n f layer c, s.fw.running = true → s.kv.fades.length < 4 → s.kv.errFades = [⟨n, f, layer⟩] → s.kv.ctx n = some c →
      s.canFade c f layer = true →
      ∃ t, exec (.fadeStepStart pool) s = .next t ∧ t.kv.fades = s.kv.fades ++ [⟨n, f, layer, 2, 1, [], []⟩] ∧ t.kv.errFades = [] ∧
        t.kv.ctxs = s.kv.ctxs ∧ t.kv.groups = s.kv.groups) ∧
    (∀ chain c rest, s.fw.running = true → s.kv.fades.length < 4 → s.kv.errFades = [] → s.kv.press = [chain] →
      chain.contains pool.val = true → s.relieved chain = false → s.victims chain = c :: rest →
      ∃ t, exec (.fadeStepStart pool) s = .next t ∧ t.kv.fades = s.kv.fades ++ [⟨c.num, s.fadeLength c, none, 1, 1, [], []⟩] ∧
        t.kv.ctxs = s.kv.ctxs ∧ t.kv.groups = s.kv.groups)

/-- A fade step to F, of every layer or of the one that it names, lowers the length of every layer that is longer, empties its tray and
raises the generation, once no APPEND or FIX is left; once no older pin is left, every page from F on below the high-water mark that is
not held LIVE reads FADED, and the LIVE frames of the lost pages drain; at its end they can be taken again, groups not in use are free, and no translation of the context is cached
(R269, R275, R288, R299). -/
def fadeStepsRun : Prop :=
  ∀ (s : State) (n : BitVec 15) (f : FadeStep) (c : KvCtx), s.live = true → s.fw.running = true → s.kv.ctx n.toNat = some c →
    s.kv.waiters = [] → s.kv.fades = [f] → f.ctx = n.toNat →
    let takes (l : Nat) : Prop := f.layer = none ∨ f.layer = some l
    (f.step = 1 → (c.pins.any (·.write) = true ∨ c.layers.any (fun l => l.tray == .fixing) = true) →
      exec (.fadeStepRecord n) s = .next s) ∧
    (f.step = 1 → c.pins.any (·.write) = false → c.layers.any (fun l => l.tray == .fixing) = false →
      ∃ t, exec (.fadeStepRecord n) s = .next t ∧
        (t.kv.ctx n.toNat).map (fun d => (d.fadeGen, d.layers.length)) = some ((c.fadeGen + 1) % 256, c.layers.length) ∧
        (∃ gone, t.kv.fades = [{ f with step := 2, oldLen := c.layers.map (·.len), doomed := gone }] ∧
          ∀ g ∈ s.kv.groups, g.ctx = n.toNat → takes g.layer → (g.pool, g.column, g.num) ∈ gone) ∧
        (∀ (l : Nat) (x y : KvLayer), s.layer n.toNat l = some x → t.layer n.toNat l = some y → y.high = x.high ∧
          ((x.len ≤ f.len ∨ ¬takes l) → y = x) ∧ (f.len < x.len → takes l → y.len = f.len ∧ y.tokens = [] ∧ y.tray ≠ .full)) ∧
        t.kv.groups = s.kv.groups) ∧
    (f.step = 2 → c.pins.any (fun p => p.gen != c.fadeGen) = true → exec (.fadeStepWrite n) s = .next s) ∧
    (∀ p, f.step = 2 → s.ctxPool c = some p → c.pins.any (fun p => p.gen != c.fadeGen) = false → ∃ t,
      exec (.fadeStepWrite n) s = .next t ∧ t.kv.fades = [{ f with step := 4 }] ∧
      (∀ g ∈ t.kv.groups, g.ctx = n.toNat → (g.pool, g.column, g.num) ∈ f.doomed → ∀ i, g.frames[i]? = some .live →
        (g.index * p.z + i) * 16 < f.len) ∧
      (∀ l x page, t.layer n.toNat l = some x → takes l → f.len ≤ page * 16 → page * 16 < x.high →
        (∀ g ∈ t.kv.groups, g.ctx = n.toNat → g.layer = l → g.index = page / p.z → g.frames[page % p.z]? ≠ some .live) →
        (page, f.cause) ∈ x.faded)) ∧
    (f.step = 4 → noRetiring s = true → c.notice < 16 → (s.chan c.notice).cpls.length < 64 → (s.chan c.notice).held = [] → ∃ t,
      exec (.fadeStepFinish n) s = .next t ∧ t.kv.fades = [] ∧ t.kv.ctxs = s.kv.ctxs ∧
      (∀ g ∈ t.kv.groups, g.ctx = n.toNat → g.inUse = true ∧ .draining ∉ g.frames) ∧
      (∀ g ∈ s.kv.groups, g.ctx ≠ n.toNat → g ∈ t.kv.groups) ∧
      (t.chan c.notice).cpls.length = (s.chan c.notice).cpls.length + 1 ∧
      (∀ e ∈ t.xl.hub.tlb, e.domain = c.domain → e.va + 2 ^ e.log2 ≤ s.layerBase n.toNat 0 ∨ s.layerBase n.toNat 0 + 2 ^ 36 ≤ e.va))

/-- Fade steps: when one begins, and what each of its parts does (R297, R299, R300). -/
def Obligations.FadeSteps : Prop := fadeStepsBegin ∧ fadeStepsRun

/-! ### The reels (R306 to R327, R403, R404) -/

/-- A port: REEL_A 0, REEL_B 1. -/
def portOf (p : Bool) : Nat := if p then 1 else 0

/-- A header that arrives on a link that is down is not seen; one with a bad CRC is counted and dropped; a good one of a channel with no
open round is held for REEL_HOLD_NS; one of a step of the open round that no mask excludes, with its slot free, begins to land. Units of
its payload may have arrived with it (R314, R316, R317, R318, R321, R324; how many is free, log 50). -/
def Obligations.ReelHeaders : Prop :=
  ∀ (s : State) (p : Bool) (h : List Byte), s.live = true →
    let q := s.rport (portOf p)
    let rch := fieldOf h 4 1 % 4
    let r := s.round rch
    let k := r.stepOf (fieldOf h 6 2)
    let good : Bool := fieldOf h 60 4 == crc32 (h.take 60)
    (q.up = false → exec (.reelHeaderArrive p h) s = .next s) ∧
    (q.up = true → good = false → ∃ t, exec (.reelHeaderArrive p h) s = .next t ∧ t.reel.hdrCrc = sat16 s.reel.hdrCrc 1 ∧
      t.irq.status.getLsbD 5 = true ∧ t.reel.rounds = s.reel.rounds ∧ t.reel.nextId = s.reel.nextId ∧
      (s.inProgress (portOf p) = none → t.reel.blocks = s.reel.blocks ∧
        ∃ n, t.rport (portOf p) = { q with rx := q.rx + 64 + BitVec.ofNat 64 (64 * n) })) ∧
    (q.up = true → good = true → r.opened = false → ∃ t n, exec (.reelHeaderArrive p h) s = .next t ∧
      (⟨s.reel.nextId, portOf p, h, .held (s.now + s.setting 0x0302), 1 + n, 0⟩ : Blk) ∈ t.reel.blocks ∧
      n ≤ payloadBytes h / 64 ∧ t.reel.rounds = s.reel.rounds ∧ t.reel.nextId = s.reel.nextId + 1 ∧
      (s.inProgress (portOf p) = none → (t.rport (portOf p)).rx = q.rx + 64 + BitVec.ofNat 64 (64 * n))) ∧
    (q.up = true → good = true → r.opened = true → fieldOf h 16 4 = r.round → fieldOf h 8 2 = r.n →
      (if fieldOf h 5 1 / 2 % 2 = 1 then 2 else 1) = r.mode → k ≠ 0 → (r.step k).outcome = none → r.fwdOnly = false →
      r.disagrees h = false → r.maskPasses (fieldOf h 20 4) (fieldOf h 24 4) = true → r.slotFree k = true →
      ∃ t n, exec (.reelHeaderArrive p h) s = .next t ∧
        (⟨s.reel.nextId, portOf p, h, .landing k, 1 + n, 0⟩ : Blk) ∈ t.reel.blocks ∧ n ≤ payloadBytes h / 64)

/-- The 64-byte units of an item that can leave with `c` credits: of a block that is forwarded no more than have arrived of it. -/
def sendable (s : State) (o : OutItem) (c : Nat) : Nat :=
  let here := match o.isFwd, s.reel.blocks.find? (fun b => b.id == o.id) with
    | true, some b => b.got - (b.total - o.units)
    | _, _ => o.units
  min c (min here o.units)

/-- An idle outbound direction with credits starts the next block: 64 bytes for each credit, of a block that is forwarded as far as it has
arrived, its header a hop on; a forward that has left counts, an injection that has left ends for this direction. Credits that come back
let a block that waits for them go on, and an injection at the head of an idle direction start (R312, R313, R315, R316, R318, R403). -/
def reelSends : Prop :=
  ∀ (s : State) (p : Bool) (n : BitVec 5), s.live = true →
    let q := s.rport (portOf p)
    ((q.up = false ∨ q.credits = 0 ∨ q.cur ≠ none ∨ q.queue = []) → exec (.reelForwardStart p) s = .next s) ∧
    (∀ o rest, q.up = true → q.cur = none → q.queue = o :: rest → 0 < q.credits → 0 < o.units →
      let m := sendable s o q.credits
      let hdr := if o.isFwd then hopHeader (((s.reel.blocks.find? (fun b => b.id == o.id)).map (·.hdr)).getD [])
        else (s.round o.round).header o.round (portOf p) s.now
      let sent (cur : Option OutItem) : ReelPort := { q with
        credits := q.credits - m, tx := q.tx + BitVec.ofNat 64 (64 * m), aborted := q.aborted && m == 0, queue := rest
        lastHdr := hdr, cur := cur }
      (m < o.units → exec (.reelForwardStart p) s =
        .next ((if o.isFwd then s else s.modRound o.round fun r => { r with began := true }).modRport (portOf p) fun _ =>
          sent (some { o with units := o.units - m }))) ∧
      (m = o.units → o.isFwd = true → ∃ t, exec (.reelForwardStart p) s = .next t ∧
        t.reel.forwarded = sat32 s.reel.forwarded 1 ∧ t.rport (portOf p) = sent none ∧ t.reel.rounds = s.reel.rounds) ∧
      (m = o.units → o.isFwd = false → o.round < 4 → ∃ t, exec (.reelForwardStart p) s = .next t ∧ t.rport (portOf p) = sent none ∧
        t.reel.forwarded = s.reel.forwarded ∧ t.reel.blocks = s.reel.blocks ∧
        let r := s.round o.round
        let left := r.left.filter (· != portOf p)
        (t.round o.round).began = true ∧ (t.round o.round).left = left ∧
          (t.round o.round).opened = (r.opened && !(left.isEmpty && r.steps.all (·.outcome.isSome))))) ∧
    (q.up = false → exec (.reelCreditReturn p n) s = .next s) ∧
    (q.up = true → q.cur = none → (∀ o, q.queue.head? = some o → o.isFwd = true) → exec (.reelCreditReturn p n) s =
      .next (s.modRport (portOf p) fun _ => { q with credits := min 65535 (q.credits + n.toNat) })) ∧
    (∀ o rest, q.up = true → q.cur = none → q.queue = o :: rest → o.isFwd = false → exec (.reelCreditReturn p n) s =
      exec (.reelForwardStart p) (s.modRport (portOf p) fun _ => { q with credits := min 65535 (q.credits + n.toNat) })) ∧
    (∀ o, q.up = true → q.cur = some o → q.credits = 0 → sendable s o n.toNat < o.units →
      let m := sendable s o n.toNat
      exec (.reelCreditReturn p n) s = .next (s.modRport (portOf p) fun _ => { q with
        credits := n.toNat - m, tx := q.tx + BitVec.ofNat 64 (64 * m), aborted := q.aborted && m == 0
        cur := some { o with units := o.units - m } }))

/-- The payload of a landing block lies, from then on, in the slot of its step; the step ends LANDED where the payload's CRC agrees, and
CORRUPT where it does not. A hold or a wait that lasts too long ends: the step of a held block will be MISSED, that of a waiting one is
(R317, R319, R321, R324). -/
def reelLandings : Prop :=
  ∀ (s : State) (p : Bool) (pay : List Byte) (b : Blk) (k : Nat) (land : Tensor), s.live = true →
    let h := b.hdr
    let rch := fieldOf h 4 1 % 4
    let r := s.round rch
    let on (f : BlkState → Bool) : Option Blk := s.reel.blocks.find? fun b => b.port == portOf p && f b.state
    let landing := on fun t => match t with | .landing _ => true | _ => false
    let held := on fun t => match t with | .held n => decide (n ≤ s.now) | _ => false
    let waiting := on fun t => match t with | .waiting _ n => decide (n ≤ s.now) | _ => false
    let c := Instr.reelLandingDone p pay
    (landing = none → exec c s = .next s) ∧
    (landing = some b → b.state = .landing k → pay.length = payloadBytes h → r.opened = true → (r.steps.any (·.k == k)) = true →
      (r.step k).outcome = none → s.haltColumns = [] → r.land0 = some land → land.virt = false → land.limit = none →
      fieldOf h 5 1 / 4 % 2 = 0 → 0 ≤ land.base → 0 ≤ land.scaleBase → r.slice < 32 →
      let off := r.seq k % max 1 r.nslot * r.stride
      let eb := fieldOf h 32 4
      let sb := fieldOf h 36 4
      land.base.toNat + off + eb ≤ 25165824 → land.scaleBase.toNat + off + sb ≤ 25165824 → ∃ t, exec c s = .next t ∧
        ((t.round rch).step k).outcome = some (if crc32 pay = fieldOf h 48 4 then 0 else 3) ∧
        (t.sl r.slice).store = (((s.sl r.slice).store.writeN (land.base.toNat + off) (pay.take eb)).writeN
          (land.scaleBase.toNat + off) ((pay.drop (padded eb)).take sb)) ∧
        ∀ j, j ≠ r.slice → t.sl j = s.sl j) ∧
    (held = none → exec (.reelHoldExpire p) s = .next s) ∧
    (held = some b → ∃ t, exec (.reelHoldExpire p) s = .next t ∧
      t.reel.expired = s.reel.expired ++ [h] ∧ t.reel.rounds = s.reel.rounds ∧
      ∀ x ∈ t.reel.blocks, x.id = b.id → x.state = .passing) ∧
    (waiting = none → exec (.landingWaitExpire p) s = .next s) ∧
    (waiting = some b → (∃ m, b.state = .waiting k m) → r.opened = true → (r.steps.any (·.k == k)) = true → (r.step k).outcome = none →
      ∃ t, exec (.landingWaitExpire p) s = .next t ∧ ((t.round rch).step k).outcome = some 4 ∧ t.irq.status.getLsbD 5 = true ∧
        ((∀ i : Fin 4, (s.round i.val).fwdOnly = false) → t.reel.missed = sat16 s.reel.missed 1))

/-- A TAKE that has waited to its deadline ends its step TIMEOUT and has that outcome; before that nothing happens (R319, R320). -/
def takesTimeOut : Prop :=
  ∀ (s : State) (k : SliceId) (e : Entry) (r : Running) (by' : Nat), s.live = true →
    let c := Instr.takeTimeout k
    let x := s.sl k.val
    let e? := x.flight.find? fun e => e.op == 0xA1 && e.run?.isSome && e.args.length == 2
    let rd := s.round e.takeStep.1
    (e? = none → exec c s = .next s) ∧
    (e? = some e → e.args[1]? = some by' → s.now < by' → exec c s = .next s) ∧
    (e? = some e → e.run? = some r → e.args[1]? = some by' → by' ≤ s.now → rd.opened = true →
      (rd.steps.any (·.k == e.takeStep.2)) = true → (rd.step e.takeStep.2).outcome = none → stoppedStatus r.status = false →
      (∀ y ∈ x.flight, y.key = e.key → y = e) → ∃ t, exec c s = .next t ∧
        ((t.round e.takeStep.1).step e.takeStep.2).outcome = some 2 ∧ t.irq.status.getLsbD 5 = true ∧
        ((t.running k.val e.key).bind fun y => y.1.args[2]?) = some 2)

/-- A RELEASE that nothing holds back, of a step of an open round, runs at once where its unit is free: the slot of a step that has landed
is free for the step NSLOT after it, and a step with another outcome, or with none yet, keeps it (R115, R309, R320, R321). -/
def releaseRuns : Prop :=
  ∀ (s : State) (k : SliceId) (f : Fields) (ok : IssueOk), s.takes k.val = true →
    let x := s.sl k.val
    let rw := readsWrites x 0xA2 f
    let rch := f.imm.toNat / 2 ^ 54 % 4
    let n := ((x.seq.cnt.toList[f.imm.toNat / 2 ^ 51 % 8]?).getD 0).toNat
    let r := s.round rch
    x.stall 0xA2 f rw.1 rw.2 = none → s.descBad k.val 0xA2 f = none → (s.issueCheck k.val 0xA2 f false).toOption = some ok →
    x.busy 4 = false → x.queue 4 = [] → s.clockStopped k.val = false → (∀ e ∈ x.flight, e.key ≠ x.seq.nextKey) →
    r.opened = true → 1 ≤ n → n < r.n →
      ∃ t, exec (.release k f) s = .next t ∧ (t.sl k.val).seq.pc = x.seq.pc + 1 ∧
        ((t.running k.val x.seq.nextKey).map fun y => (y.1.op, y.2.status, y.2.done)) = some (0xA2, 0, 1) ∧
        (∀ o, (r.step n).outcome = some o → ((t.round rch).step n).outcome = some o ∧
          ((t.round rch).step n).released = ((r.step n).released || o == 0)) ∧
        (t.sl k.val).seq.cnt = x.seq.cnt ∧ (t.sl k.val).store = x.store ∧ t.emul = s.emul ∧ t.ext = s.ext

/-- Landings, expiries of held and waiting blocks, TAKEs that wait too long, and RELEASE (R317 to R324). -/
def Obligations.ReelArrivals : Prop := reelLandings ∧ takesTimeOut ∧ releaseRuns

/-- A link that comes up is entered; one that goes down loses its credits and what it was sending, and the steps that had still to arrive on
it end LINK_DOWN, but for those whose block has arrived whole. An abort marker discards the block in progress on its port, and a forward
of it already begun is aborted as well; with none in progress nothing changes (R324, R403, R404). -/
def reelLinks : Prop :=
  ∀ (s : State) (p : Bool) (b : Blk), s.live = true →
    let q := s.rport (portOf p)
    let last := (s.reel.blocks.filter fun b => b.port == portOf p).getLast?
    (q.up = true → exec (.reelLinkUp p) s = .next s) ∧
    (q.up = false → exec (.reelLinkUp p) s =
      .next ((s.modRport (portOf p) fun _ => { q with up := true }).logReel 2 0 (portOf p) 0 0 0)) ∧
    (q.up = false → exec (.reelLinkDown p) s = .next s) ∧
    (q.up = true → ∃ t, exec (.reelLinkDown p) s = .next t ∧
      t.rport (portOf p) = { q with up := false, credits := 0, cur := none, queue := [], down := sat16 q.down 1 } ∧
      t.irq.status.getLsbD 5 = true ∧
      (∀ (r : Fin 4) (k : Nat), (s.round r.val).opened = true → (s.round r.val).portOf k = portOf p →
        ((s.round r.val).steps.any (·.k == k)) = true → ((s.round r.val).step k).outcome = none →
        (∀ b ∈ s.reel.blocks, b.port = portOf p → b.whole = true → fieldOf b.hdr 4 1 % 4 = r.val →
          b.state ≠ .landing k ∧ ∀ m, b.state ≠ .waiting k m) →
          ((t.round r.val).step k).outcome = some 5)) ∧
    ((last = none ∨ (last = some b ∧ b.whole = true)) → exec (.reelAbortMarker p) s = .next s) ∧
    (last = some b → b.whole = false → ∃ t, exec (.reelAbortMarker p) s = .next t ∧ t.reel.rounds = s.reel.rounds ∧
      t.reel.blocks = (s.reel.blocks.filter fun y => y.id != b.id) ∧
      (∀ (d : Bool) (o : OutItem), (s.rport (portOf d)).cur = some o → o.isFwd = true → o.id = b.id →
        (t.rport (portOf d)).cur = none ∧ (t.rport (portOf d)).aborted = true))

/-- The directions of the reel's ports and their links (R315, R318, R324, R403, R404). -/
def Obligations.ReelPorts : Prop := reelSends ∧ reelLinks

/-! ### Emulsion (R328 to R347) -/

/-- The measured thermal state at a temperature in 0.25 °C, from the state before: 85, 95 and 105 °C, cooler 2 °C below (R336). -/
def thermAfter (old : Nat) (h : Int) : Nat :=
  let warm (h : Int) : Nat := if 420 ≤ h then 3 else if 380 ≤ h then 2 else if 340 ≤ h then 1 else 0
  max (warm h) (min old (warm (h + 8)))

/-- A sample stores the temperatures of each column present and moves its measured state by its hottest tier; one that changes the state it
runs in raises THERMAL. HALT is timed, and a column in HALT is entered once per 10 ms. Where no completion record waits for a column,
nothing else changes (R336, R337, R338, R339). -/
def Obligations.EmulsionSamples : Prop :=
  ∀ (s : State) (temps : List (BitVec 10)) (c : Fin 32), s.live = true →
    let x := s.col c.val
    let read (i : Nat) : Int := ((temps[c.val * 4 + i]?).getD 0).toInt
    let h := max (max (read 0) (read 1)) (max (read 2) (read 3))
    (∃ t, exec (.emulThermalSample temps) s = .next t ∧ t.settings = s.settings ∧
      ((∀ k : SliceId, (s.sl k.val).recOut = []) → t.slices = s.slices ∧ t.emul = s.emul ∧ t.kv = s.kv ∧
        (c.val ∉ s.present → t.col c.val = x) ∧ (t.col c.val).state = x.state ∧ (t.col c.val).copy = x.copy) ∧
      (c.val ∈ s.present → (t.col c.val).temps = #v[read 0, read 1, read 2, read 3] ∧
        (t.col c.val).thermal = thermAfter x.thermal h ∧
        (thermAfter x.thermal h ≠ 3 → (t.col c.val).haltNs = none) ∧
        (x.thermal ≠ 3 → thermAfter x.thermal h = 3 → (t.col c.val).haltNs = some s.now ∧ (t.col c.val).reportNs = s.now) ∧
        ((t.col c.val).runs ≠ x.runs → t.irq.status.getLsbD 3 = true))) ∧
    ((x.haltNs = none ∨ s.now < x.reportNs + 10000000) → exec (.emulHaltReport c) s = .next s) ∧
    (x.haltNs.isSome = true → x.reportNs + 10000000 ≤ s.now → exec (.emulHaltReport c) s =
      .next ((s.modCol c.val fun x => { x with reportNs := x.reportNs + 10000000 }).log 0x0102 8 3 false (objData c.val 0 0 0)))

/-- A sparing copy that ends maps its bank to the spare and counts it; where the map cannot be written the old bank stays (R340, R341,
R495). -/
def sparesEnd (s : State) (c : Fin 32) : Prop :=
  ∀ (k : SpareCopy) (n : BitVec 4) (errs : List SoftErr),
    let x := s.col c.val
    ((x.copy = none ∨ x.state ≠ .sparing ∨ x.thermal = 3) → exec (.spareCopyDone c ⟨n, errs⟩) s = .next s) ∧
    (x.copy = some k → x.state = .sparing → x.thermal ≠ 3 → s.cmds = [] → ∃ t, exec (.spareCopyDone c ⟨n, errs⟩) s = .next t ∧
      (8 < n.toNat → (t.col c.val).map = x.map ∧ (t.col c.val).spared = x.spared) ∧
      (n.toNat ≤ 8 → (t.col c.val).spared = x.spared + 1 ∧
        (t.col c.val).map = (k.tier, k.bank, k.new) :: x.map.filter fun p => !(p.1 == k.tier && p.2.1 == k.bank)) ∧
      (s.setting 0x0403 = 0 → (t.col c.val).state = .live ∧ (t.col c.val).copy = none) ∧ t.slices = s.slices ∧
      (errs = [] → t.emul = s.emul))

/-- A patrol pass runs when due, counts, and sets the time of the next; a corrected error it finds counts, an uncorrectable one counts and
raises EMUL, and so does a granule that is known as uncorrectable (R332, R334, R335). -/
def patrolRuns (s : State) (c : Fin 32) : Prop :=
  ∀ (ces ues wrong : List EmulErr) (e : EmulErr),
    let held := s.columns.any fun c => (s.col c).thermal == 3
    ((s.ectl.initDone = false ∨ s.now < s.ectl.passNs ∨ held = true) → exec (.emulPatrolPass ces ⟨ues, wrong⟩) s = .next s) ∧
    (s.ectl.initDone = true → s.ectl.passNs ≤ s.now → held = false →
      (∃ t, exec (.emulPatrolPass ces ⟨ues, wrong⟩) s = .next t ∧ t.ectl.passes = s.ectl.passes + 1 ∧
        t.ectl.passNs = s.now + s.setting 0x0401 * 1000000000 ∧ t.slices = s.slices ∧
        (ues = [] → wrong = [] → s.ectl.poisoned = [] → t.emul = s.emul)) ∧
      (∀ g, s.ectl.poisoned = [g] → g % 64 = 0 → g / 2 ^ 31 = c.val → (s.col c.val).state = .live →
        ∃ t, exec (.emulPatrolPass [] ⟨[], []⟩) s = .next t ∧ t.ectl.ue = sat32 s.ectl.ue 1 ∧ t.irq.status.getLsbD 6 = true) ∧
      (e.col = c → (s.col c.val).state = .live → e.offset.toNat < 0x70000000 → s.ectl.poisoned = [] →
        (∃ t, exec (.emulPatrolPass [e] ⟨[], []⟩) s = .next t ∧ t.ectl.ce = sat32 s.ectl.ce 1 ∧ t.ectl.ue = s.ectl.ue ∧
          (t.col c.val).ce = sat16 (s.col c.val).ce 1) ∧
        (∃ t, exec (.emulPatrolPass [] ⟨[e], []⟩) s = .next t ∧ t.ectl.ue = sat32 s.ectl.ue 1 ∧ t.ectl.ce = s.ectl.ce ∧
          (t.col c.val).ue = sat16 (s.col c.val).ue 1 ∧ t.irq.status.getLsbD 6 = true)))

/-- What the emulsion controller does: sparing copies end, patrol passes run; training makes columns LIVE or FAILED, once, and
initialisation leaves zeros (R334, R340, R341, R344, R345, R347). -/
def Obligations.EmulsionEvents : Prop :=
  ∀ (s : State) (c : Fin 32) (failed : W32) (lanes : List (BitVec 4)) (mapOk : Bool), s.live = true →
    sparesEnd s c ∧ patrolRuns s c ∧
    (s.start.phase ≠ .training → exec (.emulTrainingDone failed lanes mapOk) s = .next s) ∧
    (s.start.phase = .training → ∃ t, exec (.emulTrainingDone failed lanes mapOk) s = .next t ∧ t.ectl.trained = true ∧
      t.start.phase = .boot ∧ t.ectl.mapLost = !mapOk ∧ (c.val ∉ s.present → t.col c.val = s.col c.val) ∧
      (c.val ∈ s.present → (t.col c.val).lanes = min 8 ((lanes[c.val]?).getD 0).toNat ∧
        (t.col c.val).state = (if failed.getLsbD c.val ∨ (mapOk = true ∧ s.ectl.retired.getLsbD c.val = true) then .failed else .live) ∧
        (t.col c.val).map = (if mapOk then (s.col c.val).map else []))) ∧
    ((s.ectl.trained = false ∨ s.ectl.initDone = true) → exec .emulInitDone s = .next s) ∧
    (s.ectl.trained = true → s.ectl.initDone = false → ∃ t, exec .emulInitDone s = .next t ∧ t.emul = [] ∧ t.ectl.initDone = true ∧
      t.ectl.poisoned = [] ∧ t.ectl.passNs = s.now ∧ t.ectl.cols = s.ectl.cols ∧
      (s.start.phase = .verify → s.fw.running = true → t.start.phase = .ready ∧ t.start.readyNs = s.now ∧ t.tick.active = true ∧
        t.power.winStart = s.now) ∧
      ((s.start.phase ≠ .verify ∨ s.fw.running = false) → t.start = s.start ∧ t.tick = s.tick))

/-! ### Power (R502 to R525) -/

/-- A telemetry sample joins the last 100, and the energy of the window that runs; a window that ends is held against its cap, and one over
it counts, raises THERMAL and is entered; sensors set each quadrant's temperature, and a quadrant halts at OP0 10 °C above its limit and
goes on below it (R502, R504, R505, R506, R511, R515). -/
def powerMeasurement : Prop :=
  ∀ (s : State) (quads : List W32) (hub emul : W32) (temps : List (BitVec 10)) (hubT : BitVec 10) (q : Fin 4), s.live = true →
    let p := s.power
    let x : PwrSample := ⟨(List.range s.chip.model.quads).map fun q => ((quads.map (·.toNat))[q]?).getD 0, hub.toNat, emul.toNat⟩
    let sum := x.quads.foldl (· + ·) 0 + x.hub + x.emul
    let len := p.windowMs * 1000000
    (s.tb.running = false → exec (.powerSample quads hub emul) s = .next s) ∧
    (s.tb.running = true → (s.start.phase ≠ .ready ∨ s.now < p.winStart + len) → exec (.powerSample quads hub emul) s =
      .next { s with power := { p with
        hist := (p.hist ++ [x]).drop (p.hist.length + 1 - 100)
        energy := if s.start.phase = .ready then p.energy + sum else p.energy
        samples := if s.start.phase = .ready then p.samples + 1 else p.samples } }) ∧
    ((s.start.phase ≠ .ready ∨ s.now < p.winStart + len) → exec .capWindowClose s = .next s) ∧
    (s.start.phase = .ready → p.winStart + len ≤ s.now → ∃ t, exec .capWindowClose s = .next t ∧
      t.power.lastAvg = p.energy / (len * 100) ∧ t.power.lastCap = p.capW ∧
      t.power.lastOver = decide (p.capW * 1000 * len < p.energy) ∧ t.power.winStart = p.winStart + len ∧ t.power.energy = 0 ∧
      t.power.samples = 0 ∧ t.power.capW = (if p.nextCap = 0 then p.capW else p.nextCap) ∧ t.power.op = p.op ∧
      (t.power.lastOver = true → t.irq.status.getLsbD 3 = true ∧ t.power.overruns = sat16 p.overruns 1) ∧
      (t.power.lastOver = false → t.irq = s.irq ∧ t.sheet = s.sheet ∧ t.power.overruns = p.overruns)) ∧
    (∃ t, exec (.logicSensorSample temps hubT) s = .next t ∧ t.power.hubTemp = hubT.toInt ∧ t.power.op = p.op ∧
      (s.chip.model.quads ≤ q.val → t.quad q.val = s.quad q.val) ∧
      (q.val < s.chip.model.quads →
        let read (i : Nat) : Int := ((temps[q.val * 4 + i]?).getD 0).toInt
        let tm := max (max (read 0) (read 1)) (max (read 2) (read 3))
        t.quad q.val = { s.quad q.val with tm := tm } ∧
        t.power.qhalt.getLsbD q.val = (if p.qhalt.getLsbD q.val then !decide (tm < (s.quad q.val).limit)
          else decide (p.op = 0 ∧ ((s.quad q.val).limit : Int) + 40 ≤ tm))))

/-- Firmware's model of each quadrant takes its step; the emulsion limit falls below the point when a column has been hot for 1 ms, by one
more with each 1 ms, and lifts one step for each 1 ms without a hot column (R512, R513, R517). -/
def thermalSteps : Prop :=
  ∀ (s : State) (q : Fin 4) (k : SliceId), s.live = true →
    let p := s.power
    let go := s.fw.running && s.start.phase == .ready
    let limit (n : Nat) (since cool : Option Nat) := (∃ t, exec .emulLimitStep s = .next t ∧ t.power.emulLimit = n ∧
      t.power.emulHotNs = since ∧ t.power.emulCoolNs = cool ∧ t.power.op = p.op ∧ t.slices = s.slices)
    let old (t : Option Nat) : Bool := t.any fun t => decide (t + 1000000 ≤ s.now)
    let hot := (List.range 32).any fun c => decide (2 ≤ (s.col c).thermal)
    let anyOld := (List.range 32).any fun c => old (s.col c).hotNs
    (go = false → exec .thermalEvaluation s = .next s) ∧
    (go = true → ∃ t, exec .thermalEvaluation s = .next t ∧ t.power.op = p.op ∧ t.slices = s.slices ∧
      (q.val < s.chip.model.quads →
        let x := (s.quad q.val).calibrate
        let w : Int := (p.quadMean q.val : Nat)
        (t.quad q.val).tref = x.tref ∧ (t.quad q.val).tm = x.tm ∧ (t.quad q.val).t1 = some (x.after w 100) ∧
        (t.quad q.val).target = x.thermal p.op (p.quadMean q.val))) ∧
    (hot = true → p.emulHotNs = none → anyOld = true → limit (p.op - 1) (some s.now) none) ∧
    (hot = true → p.emulHotNs.isSome = true → old p.emulHotNs = true → limit (p.emulLimit - 1) (some s.now) none) ∧
    (hot = true → (if p.emulHotNs.isSome then old p.emulHotNs else anyOld) = false → exec .emulLimitStep s = .next s) ∧
    (hot = false → p.emulHotNs.isSome = true → old p.emulCoolNs = true → 3 ≤ p.emulLimit → limit 4 none none) ∧
    (hot = false → p.emulHotNs.isSome = true → old p.emulCoolNs = true → p.emulLimit < 3 →
      limit (p.emulLimit + 1) p.emulHotNs (some s.now)) ∧
    (hot = false → (p.emulHotNs = none ∨ old p.emulCoolNs = false) → exec .emulLimitStep s = .next s) ∧
    ((s.sl k.val).flight.any (fun e => e.unit == 3) = true → exec (.arrayClockGate k) s = .next s) ∧
    ((s.sl k.val).flight.any (fun e => e.unit == 3) = false →
      exec (.arrayClockGate k) s = .next (s.setSl k.val { s.sl k.val with arrayGated := true }))

/-- What samples, windows, sensors and the thermal model do (R502 to R520). -/
def Obligations.PowerAndHeat : Prop := powerMeasurement ∧ thermalSteps

/-- The manager's target is the cap target, no less than the floor, no more than the thermal limits, and OP0 under the clamp; a raise waits
for the regulator before DVFS_REQ, a lowering does not. The point changes at the switch instant, or at an edge where timed streams are
armed; one with no DVFS_ACK in 100 µs is given up, and so is a lowering that no limit forces once a program is armed whose clock it would
undercut (R34, R35, R36, R394, R508, R509; the last the model's reading, log 48). -/
def operatingPoints : Prop :=
  ∀ (s : State), s.live = true →
    let p := s.power
    let d := s.ports.dvfs
    let ack (t : State) := t.ports.dvfs
    (s.start.phase ≠ .ready → exec .powerEvaluation s = .next s) ∧
    (s.start.phase = .ready →
      let want := min (max s.capTarget s.floor) (min s.thermTarget p.emulLimit)
      ∃ t, exec .powerEvaluation s = .next t ∧ t.power.op = p.op ∧ t.power.voltMv = p.voltMv ∧ t.slices = s.slices ∧
        t.power.target = (if p.clamp then 0 else want) ∧ t.power.capLimited = decide (s.capTarget < s.floor) ∧
        ((p.clamp = true ∨ want = p.op ∨ d.req = true ∨ d.settle.isSome = true) → t.ports = s.ports) ∧
        (p.clamp = false → d.req = false → d.settle = none → want ≠ p.op →
          (ack t).req = decide (want < p.op) ∧ (p.op < want → (ack t).settle = some want) ∧ (want < p.op → (ack t).op = want) ∧
            (ack t).reqAt = s.now)) ∧
    (d.settle = none → exec .regulatorSettled s = .next s) ∧
    (∀ op, d.settle = some op → ∃ t, exec .regulatorSettled s = .next t ∧ t.power = { p with voltMv := opMv op } ∧ (ack t).req = true ∧
      (ack t).op = op ∧ (ack t).settle = none ∧ (ack t).reqAt = s.now) ∧
    ((d.req = false ∨ d.switchAt ≠ none ∨ d.reqAt + 100000 < s.now) → exec .dvfsAck s = .next s) ∧
    (d.req = true → d.switchAt = none → s.now ≤ d.reqAt + 100000 → exec .dvfsAck s =
      .next { s with ports := { s.ports with dvfs := { d with switchAt := some (s.now + 2000), atEdge := s.timedArmed } } }) ∧
    ((d.req = false ∨ d.switchAt ≠ none ∨ s.now < d.reqAt + 100000) → exec .dvfsTimeout s = .next s) ∧
    (d.req = true → d.switchAt = none → d.reqAt + 100000 ≤ s.now → ∃ t, exec .dvfsTimeout s = .next t ∧ ack t = Dvfs.reset ∧
      t.power = { p with voltMv := opMv p.op }) ∧
    ((d.req = false ∨ d.switchAt = none) → exec .dvfsSwitch s = .next s) ∧
    (∀ n, d.req = true → d.switchAt = some n →
      let due := if d.atEdge || s.timedArmed then s.tick.count != 0 && decide (n ≤ s.tick.last.toNat) else decide (n ≤ s.now)
      (due = false → exec .dvfsSwitch s = .next s) ∧
      let tooFar : Bool := !d.therm && decide (d.op < p.op) && decide (d.op < s.floor)
      (due = true → tooFar = true → ∃ t, exec .dvfsSwitch s = .next t ∧ ack t = Dvfs.reset ∧ t.power = p) ∧
      (due = true → tooFar = false → ∃ t, exec .dvfsSwitch s = .next t ∧ ack t = Dvfs.reset ∧ t.power = { p with
        op := d.op, voltMv := opMv d.op, thermSteps := if d.therm then sat16 p.thermSteps 1 else p.thermSteps }))

/-- A supply warning before READY is only recorded; from READY on it clamps the block to OP0 at once, gives up a pending change and raises
THERMAL; the clamp ends 100 µs after the warning does (R394, R414, R522). -/
def supplyWarnings : Prop :=
  ∀ (s : State), s.live = true →
    let p := s.power
    let pins (b : Bool) := { s.pins with supplyWarn := b }
    (s.start.phase ≠ .ready → exec .supplyWarn s =
      .next { s with pins := pins true, start := { s.start with warnSeen := true } }) ∧
    (s.start.phase = .ready → ∃ t, exec .supplyWarn s = .next t ∧ t.pins = pins true ∧ t.ports.dvfs = Dvfs.reset ∧
      t.irq.status.getLsbD 3 = true ∧ t.slices = s.slices ∧ t.power = { p with
        op := 0, target := 0, voltMv := opMv 0, clamp := true, clampUntil := none, clamps := sat16 p.clamps 1 }) ∧
    (s.pins.supplyWarn = false → exec .supplyWarnDeasserted s = .next s) ∧
    (s.pins.supplyWarn = true → exec .supplyWarnDeasserted s = .next { s with
      pins := pins false, power := { p with clampUntil := if p.clamp then some (s.now + 100000) else none } }) ∧
    (p.clampUntil = none → exec .clampEnd s = .next s) ∧
    (∀ n, p.clampUntil = some n → s.now < n → exec .clampEnd s = .next s) ∧
    (∀ n, p.clampUntil = some n → n ≤ s.now → ∃ t, exec .clampEnd s = .next t ∧ t.power = { p with clamp := false, clampUntil := none } ∧
      t.slices = s.slices)

/-- How the operating point is chosen and changes, and the clamp of a supply warning (R34, R394, R508, R522). -/
def Obligations.PowerPoints : Prop := operatingPoints ∧ supplyWarnings

/-! ### Reset and start-up (R407 to R419) -/

/-- Right after RESET_N is released nothing has run: the block has no address, no store holds anything, no interrupt is pending, no step of
start-up is done, firmware does not run; the point is OP0, every slice is COLD and not armed, every column untrained, every semaphore and
counter 0, every setting at its default. Stores that the specification does not clear at that instant hold zeros by the model's choice
(R33, R355, R383, R405, R407, R411, R414, R417, R470, R538; logs 2 and 3). -/
def Obligations.ResetState : Prop :=
  let s := State.reset
  s.node.addr = 0 ∧ s.node.valid = false ∧ s.node.enumOut = false ∧ s.tb.now = 0 ∧ s.tb.running = false ∧ s.tick.active = false ∧
  s.irq.status = 0 ∧ s.irq.route = 0 ∧ s.start.phase = .steps ∧ s.start.done = [] ∧ s.power.op = 0 ∧ s.power.voltMv = 500 ∧
  s.fw.running = false ∧ s.sheet.ring = [] ∧ s.sheet.spillOn = false ∧ s.kv.ctxs = [] ∧ s.reel.blocks = [] ∧ s.sec.ownerValid = false ∧
  s.emul = [] ∧ s.ext = [] ∧ s.pending = [] ∧ s.cmds = [] ∧ s.settings = settingDefaults .v32 ∧
  (∀ k : Fin 32, (s.sl k.val).state = .cold ∧ (s.sl k.val).armed = false ∧ (s.sl k.val).flight = [] ∧ (s.sl k.val).store = [] ∧
    (s.sl k.val).tiles = [] ∧ (s.sl k.val).desc = [] ∧ (s.sl k.val).imem = [] ∧ (s.sl k.val).seq.cnt = Vector.replicate 8 0) ∧
  (∀ c : Fin 32, (s.col c.val).state = .absent) ∧ (∀ n : Fin 256, s.sem n.val = Sem.reset) ∧
  (∀ c : Fin 16, (s.chan c.val).reqs = [] ∧ (s.chan c.val).cpls = []) ∧ ∀ p : Fin 16, s.sport p.val = Sport.reset

/-- RESET_N keeps the settings store, the spare maps, the boot record and both firmware slots, and external memory; all else resets, and
slices retired by REPAIR or in manufacture are OFF. Its release takes a legal order, the entry's only if the strap says so, and does its
steps up to LOCK. A block takes an address once, after 1 µs of ENUM_IN, and answers with its identity; test instructions load only where
the block is unlocked, and those that stop it hold until RESET_N (R340, R408, R411, R412, R418, R419, R485). -/
def Obligations.ResetAndTest : Prop :=
  ∀ (s : State) (k : SliceId) (src : W12) (data : W64) (enumIn : Bool) (wir inst : BitVec 3),
    (∃ t, exec .resetAssert s = .next t ∧ t.pins.resetLow = true ∧ t.pins.testStopped = false ∧ t.stored = s.stored ∧ t.ext = s.ext ∧
      t.fw.boot = s.fw.boot ∧ t.fw.slotA = s.fw.slotA ∧ t.fw.slotB = s.fw.slotB ∧ t.sec.minSvn = s.sec.minSvn ∧ t.emul = [] ∧
      t.kv = Kv.reset ∧ t.reel = Reel.reset ∧ t.sheet = Sheet.reset ∧ t.tb = TimeBase.reset ∧ t.semu = SemUnit.reset ∧
      t.node = Node.reset ∧ t.irq = Irq.reset ∧ t.fw.running = false ∧ t.settings = settingDefaults s.chip.model ∧
      (t.col k.val).map = (s.col k.val).map ∧ (t.col k.val).state = .absent ∧
      (let off := s.fw.boot.retired.getLsbD k.val || s.chip.mfgRetired.getLsbD k.val
       t.sl k.val = { Slice.reset with
         state := if off then .off else .cold, retired := s.fw.boot.retired.getLsbD k.val })) ∧
    (s.pins.resetLow = false → exec .resetRelease s = .next s) ∧
    (s.pins.resetLow = true → ∃ t, exec .resetRelease s = .next t ∧ t.pins = { s.pins with resetLow := false } ∧
      t.start.phase = s.start.phase ∧ orderLegal t.start.order = true ∧ t.start.warnSeen = s.pins.supplyWarn ∧
      t.start.done = (orderSteps t.start.order).takeWhile (· != 0) ∧
      (s.chip.strapSrc = false → orderLegal s.chip.strapOrder = true → t.start.order = s.chip.strapOrder ∧ t.start.orderSrc = 0) ∧
      (orderLegal s.chip.strapOrder = false → s.stored.find? (fun p => p.1 == 0x0801) = none →
        t.start.order = 0xE4 ∧ t.start.strapsRefused = true)) ∧
    (let take := !s.node.valid && enumIn && data.setWidth 12 != (0 : W12) && data.setWidth 12 != (0xFFF : W12)
     s.live = true → (take = false → exec (.enumAssign src data enumIn) s = .next s) ∧
      (take = true → exec (.enumAssign src data enumIn) s = .next { s with
        node := ⟨data.setWidth 12, true, true⟩
        ports := { s.ports with cpResp := some ⟨7, src, 0, BitVec.ofNat 64 s.chip.blockId⟩ } })) ∧
    exec .wrstnAssert s = .next { s with pins := { s.pins with wir := 0 } } ∧
    (let w := if wir = 6 ∨ (s.sec.unlocked = true ∧ wir ≠ 7) then wir.toNat else 0
     exec (.testInstructionLoad wir) s = .next { s with pins := { s.pins with
      wir := w, testStopped := s.pins.testStopped || decide (w = 2 ∨ w = 3 ∨ w = 4 ∨ w = 5) } }) ∧
    (exec (.ijtagInstrumentAccess inst) s = .next
      (if s.pins.wir = 6 ∧ s.sec.unlocked = true ∧ (inst = 0 ∨ inst = 5) then { s with pins := { s.pins with testStopped := true } }
       else s))

/-- LOCK that ends within 200 µs starts the time base at 0 and does the remaining steps; one that does not stops start-up for good, with the
steps done still done and none more. Then come the zeroing and the training of every column present (R347, R350, R412, R413, R414). -/
def Obligations.StartUpSteps : Prop :=
  ∀ (s : State) (us : W16) (c : Fin 32), s.live = true →
    let locking := s.start.phase == .steps && !s.start.done.contains 0
    ((locking = false ∨ 200 < us.toNat) → exec (.pllLock us) s = .next s) ∧
    (locking = true → us.toNat ≤ 200 → ∃ t, exec (.pllLock us) s = .next t ∧ t.tb = { s.tb with now := 0, running := true } ∧
      t.start = { s.start with lockUs := us, done := orderSteps s.start.order } ∧
      (∀ p : Fin 16, t.sport p.val = if p.val < s.chip.model.sports ∧ s.ports.spUp.getLsbD p.val = true
        then { s.sport p.val with in1 := 16, in3 := 16 } else s.sport p.val) ∧ t.slices = s.slices ∧ t.power = s.power) ∧
    (locking = false → exec .pllLockTimeout s = .next s) ∧
    (locking = true → exec .pllLockTimeout s = .next { s with start := { s.start with phase := .stoppedLock, lockUs := 0xFFFF } }) ∧
    (s.start.phase = .stoppedLock → exec (.pllLock us) s = .next s ∧ exec .pllLockTimeout s = .next s ∧ exec .zeroingDone s = .next s ∧
      exec .romBootDone s = .next s ∧ ∀ f l m, exec (.emulTrainingDone f l m) s = .next s) ∧
    ((s.start.phase ≠ .steps ∨ s.start.done.length ≠ 4) → exec .zeroingDone s = .next s) ∧
    (s.start.phase = .steps → s.start.done.length = 4 → ∃ t, exec .zeroingDone s = .next t ∧
      t.start = { s.start with phase := .training } ∧
      t.col c.val = (if c.val < s.chip.model.slices then { s.col c.val with state := .training } else s.col c.val) ∧
      t.slices = s.slices ∧ t.tb = s.tb)

/-! ### Firmware and maintenance (R469, R485 to R499, R518, R529) -/

/-- ROM verifies the preferred slot, then the other: the first that passes runs, and with none start-up stops; the block is READY once
firmware runs and the emulsion is initialised. After a Tamosh reset firmware boots the same way and raises FW; an expired watchdog makes
the previous slot the preferred one, COMMITTED, and resets Tamosh (R414, R415, R487, R492, R529). -/
def Obligations.FirmwareBoots : Prop :=
  ∀ (s : State), s.live = true →
    let want := s.fw.boot.preferred
    let boots (c : Instr) (slot : Nat) := (∃ t, exec c s = .next t ∧ t.fw.running = true ∧ t.fw.slot = slot ∧
      t.start.slotFallback = decide (slot ≠ want) ∧ t.slices = s.slices ∧ t.emul = s.emul ∧
      (c = .romBootDone → t.start.phase = (if s.ectl.initDone then .ready else .verify)) ∧
      (c = .fwBoot → t.irq.status.getLsbD 8 = true ∧ t.start.phase = .ready))
    let fails (c : Instr) := (∃ t, exec c s = .next t ∧ t.fw.running = false ∧ t.start.phase = .stoppedBoot ∧ t.slices = s.slices)
    let runs (c : Instr) : Prop :=
      (s.slotCheck want = none → boots c want) ∧
      (s.slotCheck want ≠ none → s.slotCheck (3 - want) = none → boots c (3 - want)) ∧
      (s.slotCheck want ≠ none → s.slotCheck (3 - want) ≠ none → fails c)
    (s.start.phase ≠ .boot → exec .romBootDone s = .next s) ∧
    (s.start.phase = .boot → runs .romBootDone) ∧
    ((s.fw.running = true ∨ s.start.phase ≠ .ready) → exec .fwBoot s = .next s) ∧
    (s.fw.running = false → s.start.phase = .ready → runs .fwBoot) ∧
    (s.fw.dogUntil = none → exec .watchdogExpiry s = .next s) ∧
    (∀ n, s.fw.dogUntil = some n → s.now < n → exec .watchdogExpiry s = .next s) ∧
    (∀ n, s.fw.dogUntil = some n → n ≤ s.now → s.cmds = [] → ∃ t, exec .watchdogExpiry s = .next t ∧ t.fw.running = false ∧
      t.fw.dogUntil = none ∧ t.slices = s.slices ∧ t.kv = s.kv ∧
      t.fw.boot = { s.fw.boot with preferred := s.fw.boot.previous, previous := s.fw.boot.preferred, state := .committed })

/-- A COLD slice whose configuration memory was cleared and reads back is READY, else it is faulted; a wake-up is admitted unless the clamp
holds or two are still settling; a scrub pass, one a period, counts, and a frame that it finds uncorrectable raises FAULT and, in the loadable bank,
unloads the program there (R469, R497, R498, R518). -/
def Obligations.MaintenanceSteps : Prop :=
  ∀ (s : State) (k : SliceId) (bad : Option W12) (single : List CfgErr) (e : CfgErr) (late : Bool), s.live = true →
    let x := s.sl k.val
    let check := s.fw.running && s.start.phase == .ready && decide (k.val < s.chip.model.slices) && x.state == .cold
    (check = false → exec (.sliceEntryCheck k bad) s = .next s) ∧
    (check = true → s.cmds = [] → ∃ t, exec (.sliceEntryCheck k bad) s = .next t ∧ (∀ j, j ≠ k.val → t.sl j = s.sl j) ∧
      t.sl k.val = { x with
        imem := [], desc := [], brk0 := Vector.replicate 64 0, brk1 := Vector.replicate 64 0
        state := if bad = none then .ready else .faulted, fault := if bad = none then x.fault else 0x0601 } ∧
      (bad ≠ none → (s.sheet.occ < s.sheet.capacity → t.irq.status.getLsbD 1 = true))) ∧
    ((s.power.wakes = [] ∨ s.power.clamp = true ∨ 2 ≤ (s.power.admits.filter fun n => decide (s.now ≤ n + 4000)).length) →
      exec .wakeAdmit s = .next s) ∧
    (∀ rest, s.power.wakes = k.val :: rest → s.power.clamp = false →
      (s.power.admits.filter fun n => decide (s.now ≤ n + 4000)).length < 2 → ∃ t, exec .wakeAdmit s = .next t ∧
        t.sl k.val = { Slice.reset with state := .cold } ∧ (∀ j, j ≠ k.val → t.sl j = s.sl j) ∧ t.power.wakes = rest ∧
        t.power.admits = (s.power.admits.filter fun n => decide (s.now ≤ n + 4000)) ++ [s.now]) ∧
    ((s.start.phase ≠ .ready ∨ ∃ n, s.scrub.startNs = some n ∧ s.now < n) → ∀ double, exec (.cfgScrubPass single double late) s = .next s) ∧
    (s.start.phase = .ready → (∀ n, s.scrub.startNs = some n → n ≤ s.now) →
      (∃ t, exec (.cfgScrubPass single [] late) s = .next t ∧ t.scrub.passes = s.scrub.passes + 1 ∧
        t.scrub.startNs = some (s.scrub.startNs.getD s.now + s.setting 0x0704 * 1000000) ∧ t.scrub.uncorr = s.scrub.uncorr ∧ t.slices = s.slices ∧
        t.scrub.late = (if late then s.scrub.late + 1 else s.scrub.late)) ∧
      (e.slice = k → k.val < s.chip.model.slices → x.state ≠ .off → x.state ≠ .cold → e.frame.toNat < 3140 →
        ∃ t, exec (.cfgScrubPass [] [e] late) s = .next t ∧ t.scrub.uncorr = s.scrub.uncorr + 1 ∧ t.scrub.lastSlice = k.val ∧
          t.scrub.lastFrame = e.frame.toNat ∧ (k.val, e.frame.toNat) ∈ t.scrub.bad ∧
          (s.sheet.occ < s.sheet.capacity → t.irq.status.getLsbD 1 = true) ∧ (∀ j, j ≠ k.val → t.sl j = s.sl j) ∧
          t.sl k.val = (if (if x.bank then e.frame.toNat < 1024 else 1024 ≤ e.frame.toNat ∧ e.frame.toNat < 2048)
            then { x with loaded := false } else x)))

/-! ### The mailbox: what every command checks, and reports (R429 to R434, R439, R449 to R454) -/

/-- Firmware is to serve a command of this code on a channel: it has not begun, nothing else is in progress, and its completion finds
room. -/
def serving (s : State) (ch : Channel) (m : Cmd) (code : Nat) : Bool :=
  s.live && s.fw.running && (s.chan ch.val).running == some m && m.chan == ch.val && m.code == code && !m.late && !m.begun &&
    s.fw.conts.isEmpty && ((List.range 16).all fun c => c == ch.val || (s.chan c).running.isNone) &&
    decide ((s.chan ch.val).cpls.length < 64) && (s.chan ch.val).held.isEmpty

/-- A byte of a request belongs to one of the fields given. -/
def covered (fields : List (Nat × Nat)) (i : Nat) : Bool := fields.any fun (d : Nat × Nat) => decide (d.1 ≤ i ∧ i < d.1 + d.2)

/-- Every byte of a request from offset 16 on that no field covers is 0 (R430). -/
def clean (m : Cmd) (fields : List (Nat × Nat)) : Bool :=
  (List.range' 16 48).all fun i => covered fields i || (m.msg[i]?).getD 0 == 0

/-- The command has ended, with its completion posted (R431). -/
def ended (s : State) (ch : Channel) (m : Cmd) (status a b : Nat) (res : List Byte) : State :=
  posted (s.modChan ch.val fun x => { x with running := none }) ch.val (cplMsg (m.f 4 4) m.code status 0 a b res)

/-- The channel runs nothing more, and the last completion posted answers the command with a status (R431). -/
def completed (t : State) (ch : Channel) (m : Cmd) (status : Nat) : Bool :=
  (t.chan ch.val).running.isNone && (match (t.chan ch.val).cpls.getLast? with
    | some c => fieldOf c 8 4 == m.f 4 4 && fieldOf c 12 2 == m.code && fieldOf c 14 2 == status
    | none => false)

/-- A mailbox command: its row, its code, and the fields of its request from offset 16 on. -/
abbrev MailRow := Instr × Nat × List (Nat × Nat)

/-- The commands on programs, slices and settings (R439 to R446, R450). -/
def mailRows1 (ch : Channel) (r : BitVec 4) : List MailRow :=
  [(Instr.ping ch, 0x01, [(16, 8)]), (Instr.getFeatures ch, 0x02, []), (Instr.loadLibrary ch, 0x03, [(16, 1), (24, 8), (32, 4)]),
    (Instr.loadProgram ch, 0x04, [(16, 1), (24, 8), (32, 4)]),
    (Instr.verify ch, 0x05, [(16, 1), (20, 1), (24, 8), (32, 4), (40, 8), (48, 4)]), (Instr.arm ch, 0x06, [(16, 4), (20, 1)]),
    (Instr.start ch, 0x07, [(16, 4), (24, 8)]), (Instr.stopBath ch, 0x08, [(16, 4), (20, 1)]),
    (Instr.sliceService ch, 0x09, [(16, 1), (17, 1)]), (Instr.migrate ch, 0x0A, [(16, 2), (20, 4)]),
    (Instr.setSetting ch r, 0x0B, [(16, 2), (18, 1), (24, 8)])]

/-- The commands on the KV page manager, debug and power (R447 to R452, R553, R556). -/
def mailRows2 (ch : Channel) (r : BitVec 4) : List MailRow :=
  [(Instr.getSetting ch, 0x0C, [(16, 2), (18, 1)]), (Instr.kvPoolConfig ch, 0x0D, [(16, 5), (22, 39)]),
    (Instr.kvSeqOpen ch, 0x0E, [(16, 7), (24, 8)]), (Instr.kvSeqClose ch, 0x0F, [(16, 2)]),
    (Instr.kvSeqQuery ch, 0x10, [(16, 5), (24, 14)]), (Instr.patchBracket ch, 0x11, [(16, 8), (24, 32)]),
    (Instr.readContactSheet ch, 0x12, [(16, 4), (20, 1), (24, 8)]),
    (Instr.dumpSlice ch, 0x13, [(16, 1), (20, 4), (24, 8), (32, 4)]),
    (Instr.setCut ch, 0x14, [(16, 1), (17, 1), (18, 2), (20, 4), (24, 8)]),
    (Instr.powerCap ch r, 0x15, [(16, 2), (18, 1), (20, 4)]),
    (Instr.thermalParams ch r, 0x16, [(16, 1), (17, 1), (18, 2), (20, 4), (24, 4), (28, 2)])]

/-- The commands on firmware, identity, repair and time (R353, R453 to R455). -/
def mailRows3 (ch : Channel) (r : BitVec 4) : List MailRow :=
  [(Instr.fwStage ch r, 0x17, [(16, 4), (20, 1), (24, 8), (32, 4)]), (Instr.fwActivate ch r, 0x18, [(16, 1)]),
    (Instr.fwCommit ch r, 0x19, []), (Instr.fwRollback ch r, 0x1A, []), (Instr.getCert ch, 0x1B, [(16, 1), (24, 8), (32, 4)]),
    (Instr.attest ch, 0x1C, [(24, 8), (32, 4), (40, 8), (48, 4)]), (Instr.scrubStatus ch, 0x1D, []),
    (Instr.repair ch r, 0x1E, [(16, 1), (17, 1), (18, 1), (19, 1)]), (Instr.timesync ch, 0x1F, [(16, 2), (18, 1), (24, 8)])]

/-- The mailbox commands (R438). -/
def mailCommands (ch : Channel) (r : BitVec 4) : List MailRow := mailRows1 ch r ++ mailRows2 ch r ++ mailRows3 ch r

/-- A mailbox command that its channel does not run, or while firmware does not run, changes nothing. One with a byte set that no field
of its request covers ends BAD_FIELD with the lowest such offset, and does nothing else (R430, R432, R488, R562). -/
def Obligations.MailboxChecks : Prop :=
  ∀ (s : State) (ch : Channel) (r : BitVec 4) (m : Cmd) (i : Nat) (c : MailRow), s.live = true →
    c ∈ mailCommands ch r →
    (s.fw.running = false ∨ ((s.chan ch.val).running = none ∧ s.fw.conts = []) → exec c.1 s = .next s) ∧
    (serving s ch m c.2.1 = true → noRetiring s = true → 16 ≤ i → i < 64 → covered c.2.2 i = false → (m.msg[i]?).getD 0 ≠ 0 →
      ((List.range' 16 (i - 16)).all fun j => covered c.2.2 j || (m.msg[j]?).getD 0 == 0) = true →
      exec c.1 s = .next (ended s ch m 2 i 0 []))

/-- The commands that only report: PING, GET_FEATURES, SCRUB_STATUS, GET_SETTING, KV_SEQ_QUERY, READ_CONTACT_SHEET, GET_CERT and ATTEST
answer as their descriptions say, and change nothing but the buffer that they fill; an SPDM request that the responder does not support, or
one other than GET_VERSION after the state was lost, gets ERROR (its codes are the model's, log 26) (R296, R382, R439, R449, R450, R451, R454, R531). -/
def Obligations.MailboxReports : Prop :=
  ∀ (s : State) (ch : Channel) (m : Cmd) (i : SettingInfo) (x : KvCtx),
    let end_ := ended s ch m
    let w (n : Int) : List Byte := leBytes 8 (BitVec.ofInt 64 n).toNat
    let buf (off len : Nat) : Bool := decide (m.f off 8 % 64 = 0 ∧ m.f off 8 + len ≤ 2 ^ 52)
    let fill (off : Nat) (l : List Byte) (t : State) : State := { t with ext := t.ext.writeN (m.f off 8) l }
    (serving s ch m 0x01 = true → clean m [(16, 8)] = true → exec (.ping ch) s = .next (end_ 0 0 0
      (leBytes 8 (m.f 16 8) ++ leBytes 4 s.fw.current.version.toNat ++ leBytes 1 s.fw.slot ++ leBytes 1 s.fw.state.code))) ∧
    (serving s ch m 0x02 = true → clean m [] = true → exec (.getFeatures ch) s = .next (end_ 0 0 0
      (leBytes 8 s.chip.features ++ leBytes 4 s.fw.current.version.toNat ++ leBytes 2 s.fw.current.schema ++
        leBytes 2 s.fw.current.oldest ++ leBytes 4 s.fw.libVersion.toNat ++ leBytes 2 s.fw.library.length ++ leBytes 2 0 ++
        leBytes 4 0xFFFFFFFE))) ∧
    (serving s ch m 0x1D = true → clean m [] = true → exec (.scrubStatus ch) s = .next (end_ 0 0 0
      (leBytes 4 s.scrub.passes.toNat ++ leBytes 4 s.scrub.corrected.toNat ++ leBytes 4 s.scrub.uncorr.toNat ++
        leBytes 1 (if s.scrub.lastValid then s.scrub.lastSlice else 0xFF) ++ leBytes 3 0 ++ leBytes 8 s.scrub.lastNs.toNat))) ∧
    (serving s ch m 0x0C = true → clean m [(16, 2), (18, 1)] = true →
      (settingInfo s.chip.model (m.f 16 2) = none → exec (.getSetting ch) s = .next (end_ 6 (m.f 16 2) 0 [])) ∧
      (settingInfo s.chip.model (m.f 16 2) = some i → 2 < m.f 18 1 → exec (.getSetting ch) s = .next (end_ 2 18 0 [])) ∧
      (settingInfo s.chip.model (m.f 16 2) = some i → m.f 18 1 ≤ 2 → (m.f 18 1 = 1 → s.fw.state ≠ .limited) →
        exec (.getSetting ch) s = .next (end_ 0 0 0 (
          (if m.f 18 1 = 0 then leBytes 8 (((s.settings.find? fun (p : Nat × W64) => p.1 == i.id).map Prod.snd).getD 0).toNat
            else if m.f 18 1 = 1 then leBytes 8 ((s.storedOf i.id).getD (BitVec.ofInt 64 i.dflt)).toNat else w i.dflt) ++
          w i.lo ++ w i.hi ++ w i.dflt ++ leBytes 2 1 ++
          leBytes 1 ((if (s.storedOf i.id).isSome then 1 else 0) + (if i.signed then 2 else 0)))))) ∧
    (serving s ch m 0x10 = true → clean m [(16, 5), (24, 14)] = true →
      (s.kv.ctx (m.f 16 2) = none → exec (.kvSeqQuery ch) s = .next (end_ 6 (m.f 16 2) 0 [])) ∧
      (s.kv.ctx (m.f 16 2) = some x → m.f 18 2 < x.layers.length → (m.f 20 1 = 0 ∨ (m.f 20 1 = 1 ∧ 1 ≤ m.f 36 2 ∧ m.f 36 2 ≤ 4095)) →
        let len := if m.f 20 1 = 0 then 64 else 16 * m.f 36 2
        buf 24 len = true → exec (.kvSeqQuery ch) s = .next (ended
          (fill 24 (s.kvRecords (m.f 16 2) (m.f 18 2) (m.f 20 1) (m.f 32 4) (m.f 36 2)) s) ch m 0 0 0 (leBytes 4 len)))) ∧
    (serving s ch m 0x12 = true → clean m [(16, 4), (20, 1), (24, 8)] = true → m.f 20 1 ≤ 1 → 1 ≤ m.f 16 4 → m.f 16 4 ≤ 32768 →
      buf 24 (32 * m.f 16 4) = true →
      (s.sheet.spillOn = true → exec (.readContactSheet ch) s = .next (end_ 5 0 1 [])) ∧
      (s.sheet.spillOn = false →
        let es := (s.sheet.ring.drop (s.sheet.ring.length - s.sheet.occ)).take (m.f 16 4)
        let t := fill 24 es.flatten s
        exec (.readContactSheet ch) s = .next (ended
          (if m.f 20 1 = 1 then { t with sheet := { s.sheet with rd := s.sheet.first + BitVec.ofNat 32 es.length } } else t) ch m 0 0 0
          (leBytes 4 s.sheet.first.toNat ++ leBytes 4 es.length)))) ∧
    (serving s ch m 0x1B = true → clean m [(16, 1), (24, 8), (32, 4)] = true →
      (2 < m.f 16 1 → exec (.getCert ch) s = .next (end_ 6 (m.f 16 1) 0 [])) ∧
      (m.f 16 1 ≤ 2 → buf 24 (m.f 32 4) = true →
        let c := Config.certificate (m.f 16 1)
        exec (.getCert ch) s = .next (if m.f 32 4 < c.length then end_ 7 0 c.length []
          else ended (fill 24 c s) ch m 0 0 0 (leBytes 4 c.length ++ leBytes 1 3)))) ∧
    (serving s ch m 0x1C = true → clean m [(24, 8), (32, 4), (40, 8), (48, 4)] = true → buf 24 (m.f 32 4) = true →
      4 ≤ m.f 32 4 → m.f 32 4 ≤ 4096 → buf 40 (m.f 48 4) = true →
      let req := s.ext.readN (m.f 24 8) (m.f 32 4)
      let rsp := s.spdmReply req
      let code := fieldOf req 1 1
      (s.sec.resync = true → code ≠ 0x84 → rsp = [0x12, 0x7F, 0x43, 0]) ∧
      (s.sec.resync = false → code ∉ [0x84, 0xE1, 0xE3, 0x81, 0x82, 0x83, 0xE0] → rsp = [0x12, 0x7F, 0x07, BitVec.ofNat 8 code]) ∧
      exec (.attest ch) s = .next (if m.f 48 4 < rsp.length then end_ 7 0 rsp.length []
        else ended (fill 40 rsp (s.spdmStep req)) ch m 0 0 0 (leBytes 4 rsp.length)))

/-- SET_SETTING refuses what does not exist, is out of range, or breaks a rule on states or settings; else the value is in force, every
other setting stays, and the completion gives the old value. PERSIST also stores it, once firmware is COMMITTED and no supply warning is
on (R450, R458, R460, R495). -/
def Obligations.SettingsChange : Prop :=
  ∀ (s : State) (ch : Channel) (r : BitVec 4) (m : Cmd) (i : SettingInfo), serving s ch m 0x0B = true →
    clean m [(16, 2), (18, 1), (24, 8)] = true → m.f 18 1 ≤ 1 →
    let c := Instr.setSetting ch r
    let id := m.f 16 2
    let v := BitVec.ofNat 64 (m.f 24 8)
    let info := settingInfo s.chip.model id
    let per : Bool := m.f 18 1 == 1
    let old := ((s.settings.find? (·.1 == id)).map (·.2)).getD 0
    let may : Bool := !s.settingRefused id v.toNat per && (s.comboBad id v.toNat (some ch.val)).isNone
    let works := (∃ t, exec c s = .next t ∧ completed t ch m 0 = true ∧ t.slices = s.slices ∧ t.kv = s.kv ∧
      (∀ j, j ≠ id → t.setting j = s.setting j) ∧ (s.settings.any (·.1 == id) = true → t.setting id = v.toNat) ∧
      (t.chan ch.val).cpls.getLast?.map (fun e => fieldOf e 24 8) = some old.toNat ∧
      t.storedOf id = (if per then some v else s.storedOf id))
    (info = none → exec c s = .next (ended s ch m 6 id 0 [])) ∧
    (info = some i → i.inRange v = false → exec c s = .next (ended s ch m 2 24 0 [])) ∧
    (info = some i → i.inRange v = true → s.settingRefused id v.toNat per = true → exec c s = .next (ended s ch m 5 id 0 [])) ∧
    (∀ a b, info = some i → i.inRange v = true → s.settingRefused id v.toNat per = false →
      s.comboBad id v.toNat (some ch.val) = some (a, b) → exec c s = .next (ended s ch m 11 a b [])) ∧
    (info = some i → i.inRange v = true → may = true → per = false → works) ∧
    (info = some i → i.inRange v = true → may = true → per = true → s.fw.state ≠ .committed →
      exec c s = .next (ended s ch m 14 0 0 [])) ∧
    (info = some i → i.inRange v = true → may = true → per = true → s.fw.state = .committed →
      (s.pins.supplyWarn = true → exec c s = .next (ended s ch m 19 0 0 [])) ∧
      (s.pins.supplyWarn = false → r.toNat ≤ 8 → works) ∧
      (s.pins.supplyWarn = false → 8 < r.toNat → ∃ t, exec c s = .next t ∧ completed t ch m 5 = true ∧ t.settings = s.settings ∧
        t.stored = s.stored))

/-- POWER_CAP sets cap and window from the next window on. THERMAL_PARAMS reads or sets the parameters of a quadrant. TIMESYNC is refused
where its capture is not the latest or its offset is not allowed, else it steps the time base or begins to slew it (R353, R452, R506,
R514). -/
def Obligations.PowerAndTimeCommands : Prop :=
  ∀ (s : State) (ch : Channel) (r : BitVec 4) (m : Cmd) (q : Fin 4),
    (serving s ch m 0x15 = true → clean m [(16, 2), (18, 1), (20, 4)] = true → m.f 18 1 = 0 →
      (m.f 20 4 = 0 ∨ (10 ≤ m.f 20 4 ∧ m.f 20 4 ≤ 1000)) →
      ((m.f 16 2 < s.chip.model.capMinW ∨ s.chip.model.peakW < m.f 16 2) → exec (.powerCap ch r) s = .next (ended s ch m 2 16 0 [])) ∧
      (s.chip.model.capMinW ≤ m.f 16 2 → m.f 16 2 ≤ s.chip.model.peakW → ∃ t, exec (.powerCap ch r) s = .next t ∧
        completed t ch m 0 = true ∧ t.stored = s.stored ∧ t.slices = s.slices ∧ t.power = { s.power with
          nextCap := if m.f 16 2 = s.power.capW then 0 else m.f 16 2
          nextWindow := if m.f 20 4 = 0 then s.power.nextWindow else if m.f 20 4 = s.power.windowMs then 0 else m.f 20 4 })) ∧
    (serving s ch m 0x16 = true → clean m [(16, 1), (17, 1), (18, 2), (20, 4), (24, 4), (28, 2)] = true → m.f 16 1 = q.val →
      q.val < s.chip.model.quads →
      let values (x : Quad) := leBytes 2 x.limit ++ leBytes 4 x.rth ++ leBytes 4 x.tau ++ leBytes 2 x.horizon
      (m.f 17 1 = 2 → exec (.thermalParams ch r) s = .next (ended s ch m 0 0 0 (values (s.quad q.val)))) ∧
      (m.f 17 1 = 0 → 280 ≤ m.f 18 2 → m.f 18 2 ≤ 420 → 50 ≤ m.f 20 4 → m.f 20 4 ≤ 5000 → 1000 ≤ m.f 24 4 → m.f 24 4 ≤ 1000000 →
        1 ≤ m.f 28 2 → m.f 28 2 ≤ 100 →
        let x : Quad := { s.quad q.val with limit := m.f 18 2, rth := m.f 20 4, tau := m.f 24 4, horizon := m.f 28 2 }
        exec (.thermalParams ch r) s = .next (ended (s.modQuad q.val fun _ => x) ch m 0 0 0 (values x)))) ∧
    (serving s ch m 0x1F = true → clean m [(16, 2), (18, 1), (24, 8)] = true →
      let o := (m.f 24 8 : Int) + s.settingInt 0x0104 - (s.tb.capture.toNat : Int) - s.tb.capAdj
      let busy := s.reel.rounds.toList.any (·.opened) ||
        s.present.any fun k => (s.sl k).state == .running || (s.sl k).state == .draining
      let late := s.tb.lastCap.isNone || m.f 16 2 != s.tb.seq.toNat
      (1 < m.f 18 1 → exec (.timesync ch) s = .next (ended s ch m 2 18 0 [])) ∧
      (m.f 18 1 ≤ 1 → late = true → exec (.timesync ch) s = .next (ended s ch m 5 0 0 [])) ∧
      (m.f 18 1 = 0 → late = false → (o < 0 ∨ busy = true) → exec (.timesync ch) s = .next (ended s ch m 5 0 0 [])) ∧
      (m.f 18 1 = 1 → late = false → 1000000 < o.natAbs → exec (.timesync ch) s = .next (ended s ch m 5 0 0 [])) ∧
      (m.f 18 1 = 0 → late = false → 0 ≤ o → busy = false → ∃ t, exec (.timesync ch) s = .next t ∧ completed t ch m 0 = true ∧
        t.tb.now = BitVec.ofInt 64 (s.now + o) ∧ t.tb.synced = true ∧ t.tb.slewRemain = 0 ∧ t.slices = s.slices) ∧
      (m.f 18 1 = 1 → late = false → o.natAbs ≤ 1000000 → ∃ t, exec (.timesync ch) s = .next t ∧ completed t ch m 0 = true ∧
        t.tb.now = s.tb.now ∧ t.tb.synced = true ∧ t.tb.slewRemain = o ∧ t.slices = s.slices))

/-! ### The mailbox: programs and slices (R438 to R447, R473 to R484, R553 to R558) -/

/-- A command has begun, still runs on its channel, and has posted nothing yet (R433). -/
def goesOn (s t : State) (ch : Channel) (m : Cmd) : Bool :=
  ((t.chan ch.val).running.any fun x => x.begun && x.msg == m.msg) && (t.chan ch.val).cpls == (s.chan ch.val).cpls

/-- The field at an offset is the address of a buffer of a length that R429 allows. -/
def bufferOk (m : Cmd) (off len : Nat) : Bool := decide (m.f off 8 % 64 = 0 ∧ m.f off 8 + len ≤ 2 ^ 52)

/-- REFUSED, naming a slice and its state (R432). -/
def refusedSlice (s : State) (ch : Channel) (m : Cmd) (k : Nat) : State := ended s ch m 5 k (s.sl k).state.code []

/-- LOAD_PROGRAM and VERIFY look at an image as Onori does: a rejection is its code, index and place; a program that passes is loaded by the
former into the bank that is not active, and nothing that the slice runs changes. ARM makes what is loaded run: at once in a READY slice,
with SWITCH at the edge that comes, its routines copied before (R142, R441, R442, R443, R475). -/
def programCommands : Prop :=
  ∀ (s : State) (ch : Channel) (m : Cmd) (p : Program) (e : Ends) (r : Reject),
    let k := m.f 16 1
    let x := s.sl k
    let image := s.ext.readN (m.f 24 8) (m.f 32 4)
    let v : Verify := ⟨s, k, k, image, false⟩
    let v' : Verify := ⟨s, k, k, image, true⟩
    let ready := x.state == .ready || x.state == .running || x.state == .service
    let reject := ended s ch m 8 r.code r.index (leBytes 1 r.kind ++ [0] ++ leBytes 2 r.routine)
    (serving s ch m 0x04 = true → clean m [(16, 1), (24, 8), (32, 4)] = true →
      (s.chip.model.slices ≤ k → exec (.loadProgram ch) s = .next (ended s ch m 2 16 0 [])) ∧
      (k < s.chip.model.slices → bufferOk m 24 (m.f 32 4) = true → m.f 32 4 ≤ 2 ^ 20 →
        ((s.isAvail k = false ∨ ready = false) → exec (.loadProgram ch) s = .next (refusedSlice s ch m k)) ∧
        (s.isAvail k = true → ready = true → x.switchReq = true → exec (.loadProgram ch) s = .next (ended s ch m 12 k 0 [])) ∧
        (s.isAvail k = true → ready = true → x.switchReq = false →
          (v.verdict = .error r → exec (.loadProgram ch) s = .next reject) ∧
          (v.verdict = .ok p → (p.batched && s.offService k) = false → ∃ t, exec (.loadProgram ch) s = .next t ∧
            completed t ch m 0 = true ∧ (∀ j, j ≠ k → t.sl j = s.sl j) ∧ t.sl k = { x with
              imem := x.imem.writeN (if x.bank then 0 else 262144) ((image.drop (fieldOf image 8 4)).take (16 * v.length))
              desc := (t.sl k).desc, prog0 := if x.bank then some p else x.prog0, prog1 := if x.bank then x.prog1 else some p, loaded := true })))) ∧
    (serving s ch m 0x05 = true → clean m [(16, 1), (20, 1), (24, 8), (32, 4), (40, 8), (48, 4)] = true → k < s.chip.model.slices →
      bufferOk m 24 (m.f 32 4) = true → m.f 32 4 ≤ 2 ^ 20 → bufferOk m 40 (m.f 48 4) = true →
      (m.f 20 1 % 2 = 0 → m.f 20 1 < 4 → x.state = .cold → exec (.verify ch) s = .next (refusedSlice s ch m k)) ∧
      (m.f 20 1 = 0 → x.state ≠ .cold → v.verdict = .error r → exec (.verify ch) s = .next reject) ∧
      (m.f 20 1 = 0 → x.state ≠ .cold → v.verdict = .ok p → exec (.verify ch) s = .next (ended s ch m 0 0 0 v.results)) ∧
      (m.f 20 1 = 1 → v'.verdict = .error r → exec (.verify ch) s = .next reject) ∧
      (m.f 20 1 = 1 → v'.verdict = .ok p → exec (.verify ch) s = .next (ended s ch m 0 0 0 v'.results)) ∧
      (m.f 20 1 = 2 → x.state ≠ .cold → v.verdict = .ok p → ∃ t, exec (.verify ch) s = .next t ∧ t.slices = s.slices ∧
        (completed t ch m 0 || completed t ch m 7) = true)) ∧
    (serving s ch m 0x06 = true → clean m [(16, 4), (20, 1)] = true →
      let ks := maskBits 32 (m.f 16 4)
      let sw : Bool := m.f 20 1 == 1
      ((ks.any fun j => decide (s.chip.model.slices ≤ j)) = true → exec (.arm ch) s = .next (ended s ch m 2 16 0 [])) ∧
      ((∀ j ∈ ks, j < s.chip.model.slices) → m.f 20 1 ≤ 1 →
        (∀ j, ks.find? (fun j => (s.sl j).state != (if sw then .running else .ready)) = some j →
          exec (.arm ch) s = .next (refusedSlice s ch m j)) ∧
        (s.armRefused ks sw = some e → exec (.arm ch) s = .next (ended s ch m e.status e.a e.b e.res)) ∧
        (s.armRefused ks sw = none → sw = false → ∃ t, exec (.arm ch) s = .next t ∧ completed t ch m 0 = true ∧
          (∀ j, j ∉ ks → t.sl j = s.sl j) ∧ ∀ j ∈ ks, ∀ q, (s.sl j).loadedProg = some q →
            (t.sl j).armed = true ∧ (t.sl j).loaded = false ∧ (t.sl j).bank = !(s.sl j).bank ∧ (t.sl j).prog = some q ∧
            (t.sl j).brk0 = q.bracket ∧ (t.sl j).brk1 = q.bracket ∧ (t.sl j).seq.frame = 0 ∧
            (t.sl j).seq.cnt = Vector.replicate 8 0 ∧ (t.sl j).state = (s.sl j).state) ∧
        (s.armRefused ks sw = none → sw = true → ∃ t, exec (.arm ch) s = .next t ∧ goesOn s t ch m = true ∧
          (∀ j, j ∉ ks → t.sl j = s.sl j) ∧ ∀ j ∈ ks, ∀ q, (s.sl j).loadedProg = some q →
            t.sl j = { s.sl j with switchReq := true, nextCache := s.routinesOf q, store := (t.sl j).store } ∧
            (q.routines = [] → (t.sl j).store = (s.sl j).store))))

/-- LOAD_LIBRARY takes only a signed image: one that fails a check ends AUTH_FAIL. One that passes every check makes the library the image's
routines alone, or those with the older ones whose numbers it does not give (R440, R477, R529). -/
def libraryLoads : Prop :=
  ∀ (s : State) (ch : Channel) (m : Cmd) (n : Nat) (r : Reject), serving s ch m 0x03 = true →
    clean m [(16, 1), (24, 8), (32, 4)] = true → m.f 16 1 ≤ 1 → bufferOk m 24 (m.f 32 4) = true → m.f 32 4 ≤ 9437184 →
    let img := s.ext.readN (m.f 24 8) (m.f 32 4)
    let new := libRoutines img
    let after := if m.f 16 1 = 1 then new else (s.fw.library.filter fun r => !new.any fun x => x.id == r.id) ++ new
    let z := { s with fw := { s.fw with library := after } }
    let lists (id : Nat) : Bool := s.livePrograms.any fun q => q.2.routines.contains id
    let gone := (s.fw.library.map (·.id)).any fun id => !(after.any fun r => r.id == id) && lists id
    let fits := decide (after.length ≤ 4096 ∧ libBytes after ≤ 8388608)
    (s.imageCheck 2 img = some n → ∃ t, exec (.loadLibrary ch) s = .next t ∧ completed t ch m 9 = true ∧ t.fw.library = s.fw.library ∧
      t.slices = s.slices) ∧
    (s.imageCheck 2 img = none → libBad img = false →
      (z.libReject new = some r → exec (.loadLibrary ch) s = .next (ended s ch m 8 r.code r.index
        (leBytes 1 r.kind ++ [0] ++ leBytes 2 r.routine))) ∧
      (z.libReject new = none → gone = false → fits = true → ∃ t, exec (.loadLibrary ch) s = .next t ∧ completed t ch m 0 = true ∧
        t.fw.library = after ∧ t.fw.libVersion = BitVec.ofNat 32 (fieldOf img 4 4) ∧ t.slices = s.slices))

/-- The commands that load, verify and arm programs, and the library (R440 to R443). -/
def Obligations.ImageCommands : Prop := programCommands ∧ libraryLoads

/-- START, STOP_BATH and SLICE_SERVICE do what the transitions of R468 allow and refuse the rest: a start waits for its edge, a frame-end
stop for the end of the frame, a stop NOW drains at once; a slice goes into service, back to READY, is reset to COLD or OFF, or asks to be
woken (R444, R445, R446, R468, R471, R478). -/
def Obligations.SliceCommands : Prop :=
  ∀ (s : State) (ch : Channel) (m : Cmd),
    let ks := maskBits 32 (m.f 16 4)
    let all := ks.all fun j => decide (j < s.chip.model.slices)
    let run := ks.filter fun j => (s.sl j).state == .running
    let k := m.f 16 1
    let x := s.sl k
    let state := x.state
    (serving s ch m 0x07 = true → clean m [(16, 4), (24, 8)] = true →
      (all = false → exec (.start ch) s = .next (ended s ch m 2 16 0 [])) ∧
      (∀ j, all = true → ks.find? (fun j => !((s.sl j).armed && (s.sl j).state == .ready)) = some j →
        exec (.start ch) s = .next (refusedSlice s ch m j)) ∧
      (all = true → (∀ j ∈ ks, (s.sl j).armed = true ∧ (s.sl j).state = .ready) → ∃ t, exec (.start ch) s = .next t ∧
        goesOn s t ch m = true ∧ (∀ j, j ∉ ks → t.sl j = s.sl j) ∧
        ∀ j ∈ ks, t.sl j = { s.sl j with startAt := some (if m.f 24 8 < s.now then 0 else m.f 24 8) })) ∧
    (serving s ch m 0x08 = true → clean m [(16, 4), (20, 1)] = true →
      (all = false → exec (.stopBath ch) s = .next (ended s ch m 2 16 0 [])) ∧
      (∀ j, all = true → m.f 20 1 ≤ 1 → ks.find? (fun j => (s.sl j).state == .cold) = some j →
        exec (.stopBath ch) s = .next (refusedSlice s ch m j)) ∧
      (all = true → m.f 20 1 ≤ 1 → (∀ j ∈ ks, (s.sl j).state ≠ .cold) → (∀ j ∈ run, s.splitsStream run j = false) →
        (run = [] → exec (.stopBath ch) s = .next (ended s ch m 0 0 0 [])) ∧
        (run ≠ [] → m.f 20 1 = 0 → ∃ t, exec (.stopBath ch) s = .next t ∧ goesOn s t ch m = true ∧
          (∀ j, j ∉ run → t.sl j = s.sl j) ∧ ∀ j ∈ run, t.sl j = { s.sl j with drain := some ⟨1, .ready, 0⟩ }) ∧
        (run ≠ [] → m.f 20 1 = 1 → ∃ t, exec (.stopBath ch) s = .next t ∧ goesOn s t ch m = true ∧
          ∀ j ∈ run, (t.sl j).state = .draining ∧ (t.sl j).drain = some ⟨2, .ready, 0⟩ ∧ (t.sl j).cause = 2 ∧
            (t.sl j).seq.halted = true))) ∧
    (serving s ch m 0x09 = true → clean m [(16, 1), (17, 1)] = true →
      (s.chip.model.slices ≤ k → exec (.sliceService ch) s = .next (ended s ch m 2 16 0 [])) ∧
      (k < s.chip.model.slices →
        (4 < m.f 17 1 → exec (.sliceService ch) s = .next (ended s ch m 2 17 0 [])) ∧
        (m.f 17 1 ≤ 4 → s.serviceOk k (m.f 17 1) = false → exec (.sliceService ch) s = .next (refusedSlice s ch m k)) ∧
        (((m.f 17 1 = 0 ∧ (state = .ready ∨ state = .faulted)) ∨ (m.f 17 1 = 1 ∧ state = .service)) → ∃ t,
          exec (.sliceService ch) s = .next t ∧ completed t ch m 0 = true ∧ (∀ j, j ≠ k → t.sl j = s.sl j) ∧
          t.sl k = { x with state := if m.f 17 1 = 0 then .service else .ready }) ∧
        (m.f 17 1 = 0 → state = .running → s.splitsStream [k] k = false → ∃ t, exec (.sliceService ch) s = .next t ∧
          goesOn s t ch m = true ∧ t.sl k = { x with drain := some ⟨3, .service, 0⟩ } ∧ ∀ j, j ≠ k → t.sl j = s.sl j) ∧
        (m.f 17 1 = 2 → (state = .ready ∨ state = .faulted ∨ state = .service) → ∃ t, exec (.sliceService ch) s = .next t ∧
          goesOn s t ch m = true ∧
          t.sl k = { Slice.reset with state := .cold, retired := x.retired, seq := { Seq.reset with nextKey := x.seq.nextKey } }) ∧
        (m.f 17 1 = 3 → (state = .cold ∨ state = .faulted ∨ state = .service ∨ (state = .ready ∧ x.armed = false)) → ∃ t,
          exec (.sliceService ch) s = .next t ∧ completed t ch m 0 = true ∧
          t.sl k = { Slice.reset with state := .off, retired := x.retired, seq := { Seq.reset with nextKey := x.seq.nextKey } }) ∧
        (m.f 17 1 = 4 → state = .off → x.retired = false → s.chip.mfgRetired.getLsbD k = false → ∃ t,
          exec (.sliceService ch) s = .next t ∧ goesOn s t ch m = true ∧ k ∈ t.power.wakes ∧ t.slices = s.slices)))

/-- PATCH_BRACKET writes the inactive bracket only, and all of its registers, but where the program wrote one within a nanosecond before
(log 47); SET_CUT sets or takes back a cut; DUMP_SLICE writes a slice that does not run into the
host's buffer; REPAIR spares a bank, retires a column or a slice, or gives a slice back (R136, R342, R343, R447, R455, R484, R553, R556). -/
def Obligations.DebugCommands : Prop :=
  ∀ (s : State) (ch : Channel) (r : BitVec 4) (m : Cmd),
    let k := m.f 16 1
    let x := s.sl k
    let state := x.state
    (serving s ch m 0x11 = true → clean m [(16, 8), (24, 32)] = true → m.f 17 1 ≤ 1 → k < s.chip.model.slices → 1 ≤ m.f 18 1 →
      m.f 18 1 ≤ 4 →
      let ps := (List.range (m.f 18 1)).map fun i => (m.f (20 + i) 1, BitVec.ofNat 64 (m.f (24 + 8 * i) 8))
      let put (b : Vector W64 64) := ps.foldl (fun b p => b.setIfInBounds p.1 p.2) b
      let other (n : Nat) : Bool := !ps.any (·.1 == n)
      let late (n : Nat) : Bool := x.progNs.any fun e => e.1 == n && decide (s.now ≤ e.2 + 1)
      (ps.map (·.1)).Nodup → (ps.all fun p => decide (p.1 < 64)) = true →
      (x.armed = false → (m.f 19 1 ≤ 1 ∨ m.f 19 1 = 255) → exec (.patchBracket ch) s = .next (refusedSlice s ch m k)) ∧
      (x.armed = true → m.f 19 1 = (if x.bracket then 1 else 0) → exec (.patchBracket ch) s = .next (ended s ch m 13 k 0 [])) ∧
      (x.armed = true → (m.f 19 1 = (if x.bracket then 0 else 1) ∨ m.f 19 1 = 255) → ∃ t, exec (.patchBracket ch) s = .next t ∧
        completed t ch m 0 = true ∧ (∀ j, j ≠ k → t.sl j = s.sl j) ∧
        ((if x.bracket then (t.sl k).brk1 else (t.sl k).brk0) = if x.bracket then x.brk1 else x.brk0) ∧
        ((ps.all fun p => !late p.1) = true → t.sl k = { x with
          brk0 := if x.bracket then put x.brk0 else x.brk0
          brk1 := if x.bracket then x.brk1 else put x.brk1
          hostNs := ps.foldl (fun l p => (p.1, s.now) :: l.filter fun e => e.1 != p.1) x.hostNs
          patched := ps.map (·.1) ++ x.patched.filter other
          sticky := if m.f 17 1 = 1 then ps ++ x.sticky.filter (fun e => other e.1) else x.sticky }))) ∧
    (serving s ch m 0x14 = true → clean m [(16, 1), (17, 1), (18, 2), (20, 4), (24, 8)] = true → k < s.chip.model.slices →
      (m.f 17 1 ≤ 3 → (state = .off ∨ state = .cold) → exec (.setCut ch) s = .next (refusedSlice s ch m k)) ∧
      ((m.f 17 1 = 0 ∨ m.f 17 1 = 2) → state ≠ .off → state ≠ .cold → exec (.setCut ch) s =
        .next (ended (s.setSl k { x with cut := ⟨0, false, none, false, 0, false⟩ }) ch m 0 0 0 [])) ∧
      ((m.f 17 1 = 1 ∨ m.f 17 1 = 3) → state ≠ .off → state ≠ .cold →
        let rt := if m.f 17 1 = 3 then some (m.f 18 2) else none
        let ws := match rt with | some id => x.cachedWords id | none => x.bankWords
        let i := stripEnd ws (m.f 20 4)
        let f := if m.f 24 8 = 0 then (if state = .running then x.seq.frame + 1 else x.swapFrame) else BitVec.ofNat 64 (m.f 24 8)
        let late : Bool := state == .running && m.f 24 8 != 0 && f == x.seq.frame && x.passed i rt
        m.f 20 4 < (x.cutWords rt).length → (m.f 24 8 = 0 ∨ x.seq.frame.toNat ≤ m.f 24 8) →
        (late = false → exec (.setCut ch) s = .next (ended (s.setSl k { x with cut := ⟨i, true, rt, false, f, m.f 24 8 == 0⟩ }) ch m
          0 0 0 (leBytes 8 f.toNat))) ∧
        (late = true → ∃ t, exec (.setCut ch) s = .next t ∧ completed t ch m 0 = true ∧ (t.sl k).state = .draining ∧
          (t.sl k).drain = some ⟨5, .faulted, 0x0701⟩ ∧ (t.sl k).seq.cutStop = true))) ∧
    (serving s ch m 0x13 = true → clean m [(16, 1), (20, 4), (24, 8), (32, 4)] = true → k < s.chip.model.slices → m.f 20 4 < 512 →
      bufferOk m 24 (m.f 32 4) = true →
      let need := (maskBits 9 (m.f 20 4)).foldl (fun n p => n + 16 + partBytes p) 64
      ((state = .off ∨ state = .running ∨ state = .draining) → exec (.dumpSlice ch) s = .next (refusedSlice s ch m k)) ∧
      (state ≠ .off → state ≠ .running → state ≠ .draining → m.f 32 4 < need →
        exec (.dumpSlice ch) s = .next (ended s ch m 7 0 need [])) ∧
      (state ≠ .off → state ≠ .running → state ≠ .draining → need ≤ m.f 32 4 → ∃ t, exec (.dumpSlice ch) s = .next t ∧
        completed t ch m 0 = true ∧ t.slices = s.slices ∧ t.ext.readLe (m.f 24 8) 4 = 0x44534C31 ∧ t.ext.readLe (m.f 24 8 + 6) 1 = k ∧
        t.ext.readLe (m.f 24 8 + 32) 8 = need ∧
        ∀ a, a < m.f 24 8 ∨ m.f 24 8 + need ≤ a → t.ext.read a = s.ext.read a)) ∧
    (serving s ch m 0x1E = true → clean m [(16, 1), (17, 1), (18, 1), (19, 1)] = true → noRetiring s = true →
      s.fw.state = .committed → s.pins.supplyWarn = false → m.f 17 1 < s.chip.model.slices →
      let j := m.f 17 1
      let c := s.col j
      let y := s.sl j
      (m.f 16 1 = 1 → m.f 18 1 ≤ 3 → m.f 19 1 ≤ 13 → c.state = .live → c.copy = none → s.copies < 4 →
        ∀ b rest, c.sparesLeft (m.f 18 1) = b :: rest → ∃ t, exec (.repair ch r) s = .next t ∧ goesOn s t ch m = true ∧
          (t.col j).state = .sparing ∧ (t.col j).copy = some ⟨m.f 18 1, m.f 19 1, c.physBank (m.f 18 1) (m.f 19 1), b⟩) ∧
      (m.f 16 1 = 2 → (c.state = .live ∨ c.state = .sparing) → ∃ t, exec (.repair ch r) s = .next t ∧
        ((t.col j).state = .retiring ∨ (t.col j).state = .failed) ∧ t.slices = s.slices) ∧
      (m.f 16 1 = 3 → (y.state = .off ∨ y.state = .cold ∨ y.state = .faulted ∨ y.state = .service ∨ (y.state = .ready ∧ y.armed = false)) →
        r.toNat ≤ 8 → ∃ t, exec (.repair ch r) s = .next t ∧ completed t ch m 0 = true ∧ (t.sl j).state = .off ∧
          (t.sl j).retired = true ∧ t.fw.boot.retired.getLsbD j = true) ∧
      (m.f 16 1 = 4 → y.state = .off → y.retired = true → s.chip.mfgRetired.getLsbD j = false → ∃ t, exec (.repair ch r) s = .next t ∧
        goesOn s t ch m = true ∧ j ∈ t.power.wakes) ∧
      (m.f 16 1 = 4 → y.state ≠ .off → exec (.repair ch r) s = .next (refusedSlice s ch m j)))

/-- MIGRATE begins when its source can be moved and its destination is free: a running source will stop at its edge. When nothing that the
source sent is unanswered, the copy gives the destination all that the placement holds, under the next epoch, and the source's semaphores;
when writes are still unanswered after DRAIN_NS, the source is FAULTED (R446, R479, R480, R481, R483). -/
def Obligations.MigrationSteps : Prop :=
  ∀ (s : State) (ch : Channel) (m : Cmd) (g : Migration) (p : Program) (n : W32),
    let a := m.f 16 1
    let b := m.f 17 1
    let x := s.sl a
    let image := ((x.armedProg).map (·.image)).getD []
    (serving s ch m 0x0A = true → clean m [(16, 2), (20, 4)] = true → a < s.chip.model.slices → b < s.chip.model.slices →
      (m.f 20 4 = 0 ∨ (1000 ≤ m.f 20 4 ∧ m.f 20 4 ≤ 100000000)) →
      (x.movable = false → exec (.migrate ch) s = .next (refusedSlice s ch m a)) ∧
      (x.movable = true → (a = b ∨ s.freeSlice b = false) → exec (.migrate ch) s = .next (refusedSlice s ch m b)) ∧
      (x.movable = true → a ≠ b → s.freeSlice b = true → (⟨s, b, a, image, false⟩ : Verify).verdict = .ok p → ∃ t,
        exec (.migrate ch) s = .next t ∧ goesOn s t ch m = true ∧ (∀ j, j ≠ a → t.sl j = s.sl j) ∧
        t.sl a = (if x.state = .running then { x with drain := some ⟨4, .ready, 0⟩ } else x))) ∧
    (s.live = true → s.migrations = [] → exec (.migrateCopyDone ch) s = .next s ∧ exec (.migrateDrainTimeout ch n) s = .next s) ∧
    (s.live = true → s.fw.running = true → (s.chan ch.val).running = some m → m.chan = ch.val → m.begun = true → m.late = false →
      m.code = 0x0A → m.migr = some g → g.phase = 3 → s.cmds = [m] → g.src < 32 → g.dst < 32 → g.src ≠ g.dst →
      let x := s.sl g.src
      let y := s.sl g.dst
      let waits := (s.ports.tags ++ s.ports.waits).any fun t => t.slice == g.src && t.acc.kind != 0
      (waits = true → exec (.migrateCopyDone ch) s = .next s) ∧
      (waits = false → s.scrub.bad = [] → ∃ t, exec (.migrateCopyDone ch) s = .next t ∧ t.sl g.src = x ∧
        (t.sl g.dst).store = x.store ∧ (t.sl g.dst).tiles = x.tiles ∧ (t.sl g.dst).seq.cnt = x.seq.cnt ∧
        (t.sl g.dst).seq.cmp = x.seq.cmp ∧ (t.sl g.dst).seq.frame = x.seq.frame ∧ (t.sl g.dst).brk0 = x.brk0 ∧
        (t.sl g.dst).brk1 = x.brk1 ∧ (t.sl g.dst).bracket = x.bracket ∧ (t.sl g.dst).slots = x.slots ∧
        (t.sl g.dst).epoch = (g.oldEpoch + 1) % 256 ∧ (t.sl g.dst).prog = x.prog ∧ (t.sl g.dst).state = y.state ∧
        (∀ j, j ≠ g.dst → t.sl j = s.sl j) ∧ ∀ i, i < 256 → (s.sem i).held = true → (s.sem i).kind = 1 → (s.sem i).owner.toNat = g.src →
          (t.sem i).owner = BitVec.ofNat 12 g.dst) ∧
      ((waits = false ∨ s.now < g.drainBy) → exec (.migrateDrainTimeout ch n) s = .next s) ∧
      (waits = true → g.drainBy ≤ s.now → (s.chan ch.val).cpls.length < 64 → (s.chan ch.val).held = [] → ∃ t,
        exec (.migrateDrainTimeout ch n) s = .next t ∧ (t.sl g.src).state = .faulted ∧ completed t ch m 5 = true ∧ t.sl g.dst = y))

/-! ### The mailbox: KV and firmware (R268, R277, R301, R448, R449, R453, R486 to R491) -/

/-- KV_POOL_CONFIG gives a pool its shape and places, or takes away one that nothing uses; KV_SEQ_OPEN opens a context, empty in every
layer; KV_SEQ_CLOSE begins to close one, once (R268, R277, R278, R301, R448, R449). -/
def Obligations.KvCommands : Prop :=
  ∀ (s : State) (ch : Channel) (m : Cmd) (p : KvPool) (c : KvCtx) (f : Fmt) (l : List (Nat × Nat)) (x : Placed),
    let n := m.f 16 1
    let num := m.f 16 2
    (serving s ch m 0x0D = true → clean m [(16, 5), (22, 39)] = true →
      (7 < n → exec (.kvPoolConfig ch) s = .next (ended s ch m 2 16 0 [])) ∧
      (n ≤ 7 → m.f 60 1 = 1 → s.kv.pool n = none → exec (.kvPoolConfig ch) s = .next (ended s ch m 6 n 0 [])) ∧
      (n ≤ 7 → m.f 60 1 = 1 → s.kv.pool n = some p → (s.poolClaimed n || s.poolNamed n) = true →
        exec (.kvPoolConfig ch) s = .next (ended s ch m 5 n 0 [])) ∧
      (n ≤ 7 → m.f 60 1 = 1 → s.kv.pool n = some p → (s.poolClaimed n || s.poolNamed n) = false →
        exec (.kvPoolConfig ch) s = .next (ended { s with kv := { s.kv with pools := s.kv.pools.filter (·.num != n) } } ch m 0 0 0
          (leBytes 4 0 ++ leBytes 1 p.z))) ∧
      (n ≤ 7 → m.f 60 1 = 0 → m.f 17 1 ≤ 1 → (m.f 18 1 = 1 ∨ m.f 18 1 = 2) → fmtOfId (m.f 19 1) = some f → m.f 20 1 ≤ 1 →
        s.poolFields (m.pool f) = none →
        (s.poolPlaced (m.pool f) = none → exec (.kvPoolConfig ch) s = .next (ended s ch m 5 n 0 [])) ∧
        (s.poolPlaced (m.pool f) = some l → s.poolClaimed n = false → s.poolNamed n = false → s.setting 0x0203 % (m.pool f).z = 0 →
          s.kv.waiters = [] → noRetiring s = true → ∃ t, exec (.kvPoolConfig ch) s = .next t ∧ completed t ch m 0 = true ∧
            t.kv.pools = (s.kv.pools.filter (·.num != n)) ++ [{ m.pool f with places := l }] ∧ t.kv.ctxs = s.kv.ctxs ∧
            t.kv.groups = s.kv.groups ∧ t.slices = s.slices))) ∧
    (serving s ch m 0x0E = true → clean m [(16, 7), (24, 8)] = true → num < 32768 → 1 ≤ m.f 18 2 → m.f 18 2 < 4096 → 1 ≤ m.f 20 1 →
      m.f 20 1 ≤ 64 → m.f 21 1 ≤ 7 → m.f 22 1 ≤ 15 →
      let pools := ((List.range 4).map fun i => m.f (24 + i) 1).takeWhile (· != 0xFF)
      (s.chainOk pools = false → exec (.kvSeqOpen ch) s = .next (ended s ch m 2 24 0 [])) ∧
      (s.chainOk pools = true → s.kv.pool (pools.headD 0) = some p → m.f 28 4 ≤ 16 * p.maxPages →
        (s.kv.ctx num = some c → exec (.kvSeqOpen ch) s = .next (ended s ch m 5 num (if c.closing then 9 else 1) [])) ∧
        (s.kv.ctx num = none → s.placeLayers p num (m.f 28 4) (s.newLevel2 (m.f 18 2) num) (m.f 20 1) = none →
          ∃ t, exec (.kvSeqOpen ch) s = .next t ∧ completed t ch m 7 = true ∧ t.kv = s.kv) ∧
        (s.kv.ctx num = none → s.placeLayers p num (m.f 28 4) (s.newLevel2 (m.f 18 2) num) (m.f 20 1) = some x →
          ∃ t, exec (.kvSeqOpen ch) s = .next t ∧ completed t ch m 0 = true ∧ t.kv.pools = s.kv.pools ∧ t.kv.groups = s.kv.groups ∧
            t.kv.ctxs = s.kv.ctxs ++ [⟨num, false, m.f 18 2, m.f 21 1, pools, m.f 28 4, m.f 22 1, 0, 0, false, false,
              x.1.map fun c => ⟨0, 0, .parked, false, [], 0, c.1, c.2, []⟩, []⟩] ∧ t.kv.tabs = x.2 ∧ t.slices = s.slices))) ∧
    (serving s ch m 0x0F = true → clean m [(16, 2)] = true →
      (s.kv.ctx num = none → exec (.kvSeqClose ch) s = .next (ended s ch m 6 num 0 [])) ∧
      (s.kv.ctx num = some c → c.closing = true → exec (.kvSeqClose ch) s = .next (ended s ch m 5 num 9 [])) ∧
      (s.kv.ctx num = some c → c.closing = false → ∃ t, exec (.kvSeqClose ch) s = .next t ∧ goesOn s t ch m = true ∧
        t.kv.ctx num = some { c with closing := true } ∧ (∀ j, j ≠ num → t.kv.ctx j = s.kv.ctx j) ∧ t.slices = s.slices))

/-- FW_STAGE writes the slot that does not run: FIRST empties it, a later chunk goes on where the staged bytes end, LAST verifies the image
(R453, R486). -/
def firmwareStages : Prop :=
  ∀ (s : State) (ch : Channel) (r : BitVec 4) (m : Cmd), serving s ch m 0x17 = true →
    clean m [(16, 4), (20, 1), (24, 8), (32, 4)] = true → m.f 20 1 ≤ 3 → bufferOk m 24 (m.f 32 4) = true →
    let n := 3 - s.fw.slot
    let x := s.fw.slotOf n
    let off := m.f 16 4
    let first : Bool := m.f 20 1 % 2 == 1
    let last : Bool := m.f 20 1 / 2 == 1
    let fits := decide (1 ≤ m.f 32 4 ∧ m.f 32 4 ≤ 262144 ∧ off + m.f 32 4 ≤ 1835008)
    let image := (if first then [] else x.image) ++ s.ext.readN (m.f 24 8) (m.f 32 4)
    let begun := (if first then 0 else x.staged) + m.f 32 4
    let good := decide (off % 4096 = 0) && (if first then off == 0 else !x.bootable && off == x.staged)
    (good = false → exec (.fwStage ch r) s = .next (ended s ch m 2 16 0 [])) ∧
    (good = true → fits = false → exec (.fwStage ch r) s = .next (ended s ch m 2 32 0 [])) ∧
    (good = true → fits = true → s.fw.state ≠ .committed → exec (.fwStage ch r) s = .next (ended s ch m 14 0 0 [])) ∧
    (good = true → fits = true → s.fw.state = .committed → s.pins.supplyWarn = true →
      exec (.fwStage ch r) s = .next (ended s ch m 19 0 0 [])) ∧
    (good = true → fits = true → s.fw.state = .committed → s.pins.supplyWarn = false → s.fw.slot = 1 ∨ s.fw.slot = 2 →
      (8 < r.toNat → ∃ t, exec (.fwStage ch r) s = .next t ∧ completed t ch m 5 = true ∧ t.fw.slotOf n = ⟨0, [], false, false⟩) ∧
      (r.toNat ≤ 8 → last = false → ∃ t, exec (.fwStage ch r) s = .next t ∧ completed t ch m 0 = true ∧
        t.fw.slotOf n = ⟨begun, image, if first then false else x.verified, if first then false else x.factory⟩ ∧
        t.fw.slotOf s.fw.slot = s.fw.slotOf s.fw.slot ∧ t.fw.slot = s.fw.slot ∧ t.fw.boot = s.fw.boot ∧ t.slices = s.slices) ∧
      (r.toNat ≤ 8 → last = true → s.imageCheck 1 image = none → ∃ t, exec (.fwStage ch r) s = .next t ∧ completed t ch m 0 = true ∧
        (t.fw.slotOf n).verified = true ∧ (t.fw.slotOf n).image = image ∧ t.slices = s.slices) ∧
      (r.toNat ≤ 8 → last = true → s.imageCheck 1 image ≠ none → ∃ t, exec (.fwStage ch r) s = .next t ∧ completed t ch m 9 = true ∧
        t.fw.slotOf n = ⟨0, [], false, false⟩ ∧ t.slices = s.slices))

/-- FW_ACTIVATE and FW_ROLLBACK make a verified slot the preferred one, in TRIAL, start the watchdog and reset Tamosh; the slices run on.
FW_COMMIT ends a trial: what governs is stored, the boot record is COMMITTED, the least security version of both slots counts (R453, R487,
R490, R491, R530). -/
def firmwareChanges : Prop :=
  ∀ (s : State) (ch : Channel) (r : BitVec 4) (m : Cmd),
    let other := 3 - s.fw.slot
    let to' := m.f 16 1
    let boots (c : Instr) (slot dog : Nat) : Prop :=
      ((s.fw.slotOf slot).bootable = false → exec c s = .next (ended s ch m 5 slot 0 [])) ∧
      ((s.fw.slotOf slot).bootable = true → s.pins.supplyWarn = true → exec c s = .next (ended s ch m 19 0 0 [])) ∧
      ((s.fw.slotOf slot).bootable = true → s.pins.supplyWarn = false → 8 < r.toNat → ∃ t, exec c s = .next t ∧
        completed t ch m 5 = true ∧ t.fw.boot = s.fw.boot ∧ t.fw.running = true) ∧
      ((s.fw.slotOf slot).bootable = true → s.pins.supplyWarn = false → r.toNat ≤ 8 → ∃ t, exec c s = .next t ∧
        t.fw.running = false ∧ t.fw.owed = some m ∧ (t.chan ch.val).running = none ∧ (t.chan ch.val).cpls = (s.chan ch.val).cpls ∧
        t.fw.boot = { s.fw.boot with preferred := slot, previous := s.fw.slot, state := .trial, watchdog := dog } ∧
        t.fw.dogUntil = some (s.now + dog * 1000000000) ∧ t.slices = s.slices ∧ t.kv = s.kv ∧ t.reel = s.reel ∧ t.emul = s.emul)
    (serving s ch m 0x18 = true → clean m [(16, 1)] = true →
      ((to' < 1 ∨ 2 < to') → exec (.fwActivate ch r) s = .next (ended s ch m 2 16 0 [])) ∧
      (1 ≤ to' → to' ≤ 2 → boots (.fwActivate ch r) to' (s.setting 0x0703))) ∧
    (serving s ch m 0x1A = true → clean m [] = true → boots (.fwRollback ch r) other s.fw.boot.watchdog) ∧
    (serving s ch m 0x19 = true → clean m [] = true →
      (s.fw.state = .committed → exec (.fwCommit ch r) s = .next (ended s ch m 5 s.fw.slot 0 [])) ∧
      (s.fw.state ≠ .committed → s.pins.supplyWarn = true → exec (.fwCommit ch r) s = .next (ended s ch m 19 0 0 [])) ∧
      (s.fw.state ≠ .committed → s.pins.supplyWarn = false → 8 < r.toNat → ∃ t, exec (.fwCommit ch r) s = .next t ∧
        completed t ch m 5 = true ∧ t.fw.state = s.fw.state ∧ t.stored = s.stored) ∧
      (s.fw.state ≠ .committed → s.pins.supplyWarn = false → r.toNat ≤ 8 → ∃ t, exec (.fwCommit ch r) s = .next t ∧
        completed t ch m 0 = true ∧ t.fw.state = .committed ∧ t.fw.boot.state = .committed ∧ t.fw.dogUntil = none ∧
        t.fw.boot.schema = s.fw.current.schema ∧ (∀ i v, i < 0x0680 → s.settings.find? (·.1 == i) = some (i, v) → t.storedOf i = some v) ∧
        t.settings = s.settings ∧ s.sec.minSvn ≤ t.sec.minSvn ∧ t.slices = s.slices))

/-- The commands on firmware images: staging, activation, commit and rollback (R453, R486 to R491). -/
def Obligations.FirmwareCommands : Prop := firmwareStages ∧ firmwareChanges

/-! ### Memory -/

/-- Whatever command runs, every memory of the block stays in its canonical form: addresses rise, and no entry equals what an unlisted
address reads as. Equal memories are then equal data. -/
def Obligations.MemoryStaysCanonical : Prop := ∀ (s t : State), s.memOk → step s = .next t → t.memOk

/-- The memories of the block right after reset are in canonical form. -/
def Obligations.MemoryCanonicalAtReset : Prop := State.reset.memOk
end

