-- ==== Sys2Proof/Laws/State.lean ====
section
/-! SUPPORT. What each update of the state leaves alone, and what it changes: one lemma for each field and update. -/

namespace Sys2Proof.Machine

/-! ### setSl -/

@[simp] theorem State.setSl_chip (s : State) (k : Nat) (x : Slice) : (s.setSl k x).chip = s.chip := rfl
@[simp] theorem State.setSl_pins (s : State) (k : Nat) (x : Slice) : (s.setSl k x).pins = s.pins := rfl
@[simp] theorem State.setSl_tb (s : State) (k : Nat) (x : Slice) : (s.setSl k x).tb = s.tb := rfl
@[simp] theorem State.setSl_tick (s : State) (k : Nat) (x : Slice) : (s.setSl k x).tick = s.tick := rfl
@[simp] theorem State.setSl_start (s : State) (k : Nat) (x : Slice) : (s.setSl k x).start = s.start := rfl
@[simp] theorem State.setSl_node (s : State) (k : Nat) (x : Slice) : (s.setSl k x).node = s.node := rfl
@[simp] theorem State.setSl_irq (s : State) (k : Nat) (x : Slice) : (s.setSl k x).irq = s.irq := rfl
@[simp] theorem State.setSl_ports (s : State) (k : Nat) (x : Slice) : (s.setSl k x).ports = s.ports := rfl
@[simp] theorem State.setSl_mbox (s : State) (k : Nat) (x : Slice) : (s.setSl k x).mbox = s.mbox := rfl
@[simp] theorem State.setSl_settings (s : State) (k : Nat) (x : Slice) : (s.setSl k x).settings = s.settings := rfl
@[simp] theorem State.setSl_stored (s : State) (k : Nat) (x : Slice) : (s.setSl k x).stored = s.stored := rfl
@[simp] theorem State.setSl_fw (s : State) (k : Nat) (x : Slice) : (s.setSl k x).fw = s.fw := rfl
@[simp] theorem State.setSl_ss (s : State) (k : Nat) (x : Slice) : (s.setSl k x).ss = s.ss := rfl
@[simp] theorem State.setSl_scrub (s : State) (k : Nat) (x : Slice) : (s.setSl k x).scrub = s.scrub := rfl
@[simp] theorem State.setSl_xl (s : State) (k : Nat) (x : Slice) : (s.setSl k x).xl = s.xl := rfl
@[simp] theorem State.setSl_sec (s : State) (k : Nat) (x : Slice) : (s.setSl k x).sec = s.sec := rfl
@[simp] theorem State.setSl_ectl (s : State) (k : Nat) (x : Slice) : (s.setSl k x).ectl = s.ectl := rfl
@[simp] theorem State.setSl_power (s : State) (k : Nat) (x : Slice) : (s.setSl k x).power = s.power := rfl
@[simp] theorem State.setSl_sheet (s : State) (k : Nat) (x : Slice) : (s.setSl k x).sheet = s.sheet := rfl
@[simp] theorem State.setSl_semu (s : State) (k : Nat) (x : Slice) : (s.setSl k x).semu = s.semu := rfl
@[simp] theorem State.setSl_kv (s : State) (k : Nat) (x : Slice) : (s.setSl k x).kv = s.kv := rfl
@[simp] theorem State.setSl_reel (s : State) (k : Nat) (x : Slice) : (s.setSl k x).reel = s.reel := rfl
@[simp] theorem State.setSl_emul (s : State) (k : Nat) (x : Slice) : (s.setSl k x).emul = s.emul := rfl
@[simp] theorem State.setSl_ext (s : State) (k : Nat) (x : Slice) : (s.setSl k x).ext = s.ext := rfl
@[simp] theorem State.setSl_free (s : State) (k : Nat) (x : Slice) : (s.setSl k x).free = s.free := rfl
@[simp] theorem State.setSl_pending (s : State) (k : Nat) (x : Slice) : (s.setSl k x).pending = s.pending := rfl

/-! ### mod -/

@[simp] theorem State.mod_chip (s : State) (k : Nat) (f : Slice → Slice) : (s.mod k f).chip = s.chip := rfl
@[simp] theorem State.mod_pins (s : State) (k : Nat) (f : Slice → Slice) : (s.mod k f).pins = s.pins := rfl
@[simp] theorem State.mod_tb (s : State) (k : Nat) (f : Slice → Slice) : (s.mod k f).tb = s.tb := rfl
@[simp] theorem State.mod_tick (s : State) (k : Nat) (f : Slice → Slice) : (s.mod k f).tick = s.tick := rfl
@[simp] theorem State.mod_start (s : State) (k : Nat) (f : Slice → Slice) : (s.mod k f).start = s.start := rfl
@[simp] theorem State.mod_node (s : State) (k : Nat) (f : Slice → Slice) : (s.mod k f).node = s.node := rfl
@[simp] theorem State.mod_irq (s : State) (k : Nat) (f : Slice → Slice) : (s.mod k f).irq = s.irq := rfl
@[simp] theorem State.mod_ports (s : State) (k : Nat) (f : Slice → Slice) : (s.mod k f).ports = s.ports := rfl
@[simp] theorem State.mod_mbox (s : State) (k : Nat) (f : Slice → Slice) : (s.mod k f).mbox = s.mbox := rfl
@[simp] theorem State.mod_settings (s : State) (k : Nat) (f : Slice → Slice) : (s.mod k f).settings = s.settings := rfl
@[simp] theorem State.mod_stored (s : State) (k : Nat) (f : Slice → Slice) : (s.mod k f).stored = s.stored := rfl
@[simp] theorem State.mod_fw (s : State) (k : Nat) (f : Slice → Slice) : (s.mod k f).fw = s.fw := rfl
@[simp] theorem State.mod_ss (s : State) (k : Nat) (f : Slice → Slice) : (s.mod k f).ss = s.ss := rfl
@[simp] theorem State.mod_scrub (s : State) (k : Nat) (f : Slice → Slice) : (s.mod k f).scrub = s.scrub := rfl
@[simp] theorem State.mod_xl (s : State) (k : Nat) (f : Slice → Slice) : (s.mod k f).xl = s.xl := rfl
@[simp] theorem State.mod_sec (s : State) (k : Nat) (f : Slice → Slice) : (s.mod k f).sec = s.sec := rfl
@[simp] theorem State.mod_ectl (s : State) (k : Nat) (f : Slice → Slice) : (s.mod k f).ectl = s.ectl := rfl
@[simp] theorem State.mod_power (s : State) (k : Nat) (f : Slice → Slice) : (s.mod k f).power = s.power := rfl
@[simp] theorem State.mod_sheet (s : State) (k : Nat) (f : Slice → Slice) : (s.mod k f).sheet = s.sheet := rfl
@[simp] theorem State.mod_semu (s : State) (k : Nat) (f : Slice → Slice) : (s.mod k f).semu = s.semu := rfl
@[simp] theorem State.mod_kv (s : State) (k : Nat) (f : Slice → Slice) : (s.mod k f).kv = s.kv := rfl
@[simp] theorem State.mod_reel (s : State) (k : Nat) (f : Slice → Slice) : (s.mod k f).reel = s.reel := rfl
@[simp] theorem State.mod_emul (s : State) (k : Nat) (f : Slice → Slice) : (s.mod k f).emul = s.emul := rfl
@[simp] theorem State.mod_ext (s : State) (k : Nat) (f : Slice → Slice) : (s.mod k f).ext = s.ext := rfl
@[simp] theorem State.mod_free (s : State) (k : Nat) (f : Slice → Slice) : (s.mod k f).free = s.free := rfl
@[simp] theorem State.mod_pending (s : State) (k : Nat) (f : Slice → Slice) : (s.mod k f).pending = s.pending := rfl

/-! ### modSeq -/

@[simp] theorem State.modSeq_chip (s : State) (k : Nat) (f : Seq → Seq) : (s.modSeq k f).chip = s.chip := rfl
@[simp] theorem State.modSeq_pins (s : State) (k : Nat) (f : Seq → Seq) : (s.modSeq k f).pins = s.pins := rfl
@[simp] theorem State.modSeq_tb (s : State) (k : Nat) (f : Seq → Seq) : (s.modSeq k f).tb = s.tb := rfl
@[simp] theorem State.modSeq_tick (s : State) (k : Nat) (f : Seq → Seq) : (s.modSeq k f).tick = s.tick := rfl
@[simp] theorem State.modSeq_start (s : State) (k : Nat) (f : Seq → Seq) : (s.modSeq k f).start = s.start := rfl
@[simp] theorem State.modSeq_node (s : State) (k : Nat) (f : Seq → Seq) : (s.modSeq k f).node = s.node := rfl
@[simp] theorem State.modSeq_irq (s : State) (k : Nat) (f : Seq → Seq) : (s.modSeq k f).irq = s.irq := rfl
@[simp] theorem State.modSeq_ports (s : State) (k : Nat) (f : Seq → Seq) : (s.modSeq k f).ports = s.ports := rfl
@[simp] theorem State.modSeq_mbox (s : State) (k : Nat) (f : Seq → Seq) : (s.modSeq k f).mbox = s.mbox := rfl
@[simp] theorem State.modSeq_settings (s : State) (k : Nat) (f : Seq → Seq) : (s.modSeq k f).settings = s.settings := rfl
@[simp] theorem State.modSeq_stored (s : State) (k : Nat) (f : Seq → Seq) : (s.modSeq k f).stored = s.stored := rfl
@[simp] theorem State.modSeq_fw (s : State) (k : Nat) (f : Seq → Seq) : (s.modSeq k f).fw = s.fw := rfl
@[simp] theorem State.modSeq_ss (s : State) (k : Nat) (f : Seq → Seq) : (s.modSeq k f).ss = s.ss := rfl
@[simp] theorem State.modSeq_scrub (s : State) (k : Nat) (f : Seq → Seq) : (s.modSeq k f).scrub = s.scrub := rfl
@[simp] theorem State.modSeq_xl (s : State) (k : Nat) (f : Seq → Seq) : (s.modSeq k f).xl = s.xl := rfl
@[simp] theorem State.modSeq_sec (s : State) (k : Nat) (f : Seq → Seq) : (s.modSeq k f).sec = s.sec := rfl
@[simp] theorem State.modSeq_ectl (s : State) (k : Nat) (f : Seq → Seq) : (s.modSeq k f).ectl = s.ectl := rfl
@[simp] theorem State.modSeq_power (s : State) (k : Nat) (f : Seq → Seq) : (s.modSeq k f).power = s.power := rfl
@[simp] theorem State.modSeq_sheet (s : State) (k : Nat) (f : Seq → Seq) : (s.modSeq k f).sheet = s.sheet := rfl
@[simp] theorem State.modSeq_semu (s : State) (k : Nat) (f : Seq → Seq) : (s.modSeq k f).semu = s.semu := rfl
@[simp] theorem State.modSeq_kv (s : State) (k : Nat) (f : Seq → Seq) : (s.modSeq k f).kv = s.kv := rfl
@[simp] theorem State.modSeq_reel (s : State) (k : Nat) (f : Seq → Seq) : (s.modSeq k f).reel = s.reel := rfl
@[simp] theorem State.modSeq_emul (s : State) (k : Nat) (f : Seq → Seq) : (s.modSeq k f).emul = s.emul := rfl
@[simp] theorem State.modSeq_ext (s : State) (k : Nat) (f : Seq → Seq) : (s.modSeq k f).ext = s.ext := rfl
@[simp] theorem State.modSeq_free (s : State) (k : Nat) (f : Seq → Seq) : (s.modSeq k f).free = s.free := rfl
@[simp] theorem State.modSeq_pending (s : State) (k : Nat) (f : Seq → Seq) : (s.modSeq k f).pending = s.pending := rfl

/-! ### modChan -/

@[simp] theorem State.modChan_chip (s : State) (c : Nat) (f : Chan → Chan) : (s.modChan c f).chip = s.chip := rfl
@[simp] theorem State.modChan_pins (s : State) (c : Nat) (f : Chan → Chan) : (s.modChan c f).pins = s.pins := rfl
@[simp] theorem State.modChan_tb (s : State) (c : Nat) (f : Chan → Chan) : (s.modChan c f).tb = s.tb := rfl
@[simp] theorem State.modChan_tick (s : State) (c : Nat) (f : Chan → Chan) : (s.modChan c f).tick = s.tick := rfl
@[simp] theorem State.modChan_start (s : State) (c : Nat) (f : Chan → Chan) : (s.modChan c f).start = s.start := rfl
@[simp] theorem State.modChan_node (s : State) (c : Nat) (f : Chan → Chan) : (s.modChan c f).node = s.node := rfl
@[simp] theorem State.modChan_irq (s : State) (c : Nat) (f : Chan → Chan) : (s.modChan c f).irq = s.irq := rfl
@[simp] theorem State.modChan_ports (s : State) (c : Nat) (f : Chan → Chan) : (s.modChan c f).ports = s.ports := rfl
@[simp] theorem State.modChan_settings (s : State) (c : Nat) (f : Chan → Chan) : (s.modChan c f).settings = s.settings := rfl
@[simp] theorem State.modChan_stored (s : State) (c : Nat) (f : Chan → Chan) : (s.modChan c f).stored = s.stored := rfl
@[simp] theorem State.modChan_fw (s : State) (c : Nat) (f : Chan → Chan) : (s.modChan c f).fw = s.fw := rfl
@[simp] theorem State.modChan_ss (s : State) (c : Nat) (f : Chan → Chan) : (s.modChan c f).ss = s.ss := rfl
@[simp] theorem State.modChan_scrub (s : State) (c : Nat) (f : Chan → Chan) : (s.modChan c f).scrub = s.scrub := rfl
@[simp] theorem State.modChan_xl (s : State) (c : Nat) (f : Chan → Chan) : (s.modChan c f).xl = s.xl := rfl
@[simp] theorem State.modChan_sec (s : State) (c : Nat) (f : Chan → Chan) : (s.modChan c f).sec = s.sec := rfl
@[simp] theorem State.modChan_ectl (s : State) (c : Nat) (f : Chan → Chan) : (s.modChan c f).ectl = s.ectl := rfl
@[simp] theorem State.modChan_power (s : State) (c : Nat) (f : Chan → Chan) : (s.modChan c f).power = s.power := rfl
@[simp] theorem State.modChan_sheet (s : State) (c : Nat) (f : Chan → Chan) : (s.modChan c f).sheet = s.sheet := rfl
@[simp] theorem State.modChan_semu (s : State) (c : Nat) (f : Chan → Chan) : (s.modChan c f).semu = s.semu := rfl
@[simp] theorem State.modChan_kv (s : State) (c : Nat) (f : Chan → Chan) : (s.modChan c f).kv = s.kv := rfl
@[simp] theorem State.modChan_reel (s : State) (c : Nat) (f : Chan → Chan) : (s.modChan c f).reel = s.reel := rfl
@[simp] theorem State.modChan_slices (s : State) (c : Nat) (f : Chan → Chan) : (s.modChan c f).slices = s.slices := rfl
@[simp] theorem State.modChan_emul (s : State) (c : Nat) (f : Chan → Chan) : (s.modChan c f).emul = s.emul := rfl
@[simp] theorem State.modChan_ext (s : State) (c : Nat) (f : Chan → Chan) : (s.modChan c f).ext = s.ext := rfl
@[simp] theorem State.modChan_free (s : State) (c : Nat) (f : Chan → Chan) : (s.modChan c f).free = s.free := rfl
@[simp] theorem State.modChan_pending (s : State) (c : Nat) (f : Chan → Chan) : (s.modChan c f).pending = s.pending := rfl

/-! ### modSport -/

@[simp] theorem State.modSport_chip (s : State) (p : Nat) (f : Sport → Sport) : (s.modSport p f).chip = s.chip := rfl
@[simp] theorem State.modSport_pins (s : State) (p : Nat) (f : Sport → Sport) : (s.modSport p f).pins = s.pins := rfl
@[simp] theorem State.modSport_tb (s : State) (p : Nat) (f : Sport → Sport) : (s.modSport p f).tb = s.tb := rfl
@[simp] theorem State.modSport_tick (s : State) (p : Nat) (f : Sport → Sport) : (s.modSport p f).tick = s.tick := rfl
@[simp] theorem State.modSport_start (s : State) (p : Nat) (f : Sport → Sport) : (s.modSport p f).start = s.start := rfl
@[simp] theorem State.modSport_node (s : State) (p : Nat) (f : Sport → Sport) : (s.modSport p f).node = s.node := rfl
@[simp] theorem State.modSport_irq (s : State) (p : Nat) (f : Sport → Sport) : (s.modSport p f).irq = s.irq := rfl
@[simp] theorem State.modSport_mbox (s : State) (p : Nat) (f : Sport → Sport) : (s.modSport p f).mbox = s.mbox := rfl
@[simp] theorem State.modSport_settings (s : State) (p : Nat) (f : Sport → Sport) : (s.modSport p f).settings = s.settings := rfl
@[simp] theorem State.modSport_stored (s : State) (p : Nat) (f : Sport → Sport) : (s.modSport p f).stored = s.stored := rfl
@[simp] theorem State.modSport_fw (s : State) (p : Nat) (f : Sport → Sport) : (s.modSport p f).fw = s.fw := rfl
@[simp] theorem State.modSport_ss (s : State) (p : Nat) (f : Sport → Sport) : (s.modSport p f).ss = s.ss := rfl
@[simp] theorem State.modSport_scrub (s : State) (p : Nat) (f : Sport → Sport) : (s.modSport p f).scrub = s.scrub := rfl
@[simp] theorem State.modSport_xl (s : State) (p : Nat) (f : Sport → Sport) : (s.modSport p f).xl = s.xl := rfl
@[simp] theorem State.modSport_sec (s : State) (p : Nat) (f : Sport → Sport) : (s.modSport p f).sec = s.sec := rfl
@[simp] theorem State.modSport_ectl (s : State) (p : Nat) (f : Sport → Sport) : (s.modSport p f).ectl = s.ectl := rfl
@[simp] theorem State.modSport_power (s : State) (p : Nat) (f : Sport → Sport) : (s.modSport p f).power = s.power := rfl
@[simp] theorem State.modSport_sheet (s : State) (p : Nat) (f : Sport → Sport) : (s.modSport p f).sheet = s.sheet := rfl
@[simp] theorem State.modSport_semu (s : State) (p : Nat) (f : Sport → Sport) : (s.modSport p f).semu = s.semu := rfl
@[simp] theorem State.modSport_kv (s : State) (p : Nat) (f : Sport → Sport) : (s.modSport p f).kv = s.kv := rfl
@[simp] theorem State.modSport_reel (s : State) (p : Nat) (f : Sport → Sport) : (s.modSport p f).reel = s.reel := rfl
@[simp] theorem State.modSport_slices (s : State) (p : Nat) (f : Sport → Sport) : (s.modSport p f).slices = s.slices := rfl
@[simp] theorem State.modSport_emul (s : State) (p : Nat) (f : Sport → Sport) : (s.modSport p f).emul = s.emul := rfl
@[simp] theorem State.modSport_ext (s : State) (p : Nat) (f : Sport → Sport) : (s.modSport p f).ext = s.ext := rfl
@[simp] theorem State.modSport_free (s : State) (p : Nat) (f : Sport → Sport) : (s.modSport p f).free = s.free := rfl
@[simp] theorem State.modSport_pending (s : State) (p : Nat) (f : Sport → Sport) : (s.modSport p f).pending = s.pending := rfl

/-! ### modCol -/

@[simp] theorem State.modCol_chip (s : State) (c : Nat) (f : Column → Column) : (s.modCol c f).chip = s.chip := rfl
@[simp] theorem State.modCol_pins (s : State) (c : Nat) (f : Column → Column) : (s.modCol c f).pins = s.pins := rfl
@[simp] theorem State.modCol_tb (s : State) (c : Nat) (f : Column → Column) : (s.modCol c f).tb = s.tb := rfl
@[simp] theorem State.modCol_tick (s : State) (c : Nat) (f : Column → Column) : (s.modCol c f).tick = s.tick := rfl
@[simp] theorem State.modCol_start (s : State) (c : Nat) (f : Column → Column) : (s.modCol c f).start = s.start := rfl
@[simp] theorem State.modCol_node (s : State) (c : Nat) (f : Column → Column) : (s.modCol c f).node = s.node := rfl
@[simp] theorem State.modCol_irq (s : State) (c : Nat) (f : Column → Column) : (s.modCol c f).irq = s.irq := rfl
@[simp] theorem State.modCol_ports (s : State) (c : Nat) (f : Column → Column) : (s.modCol c f).ports = s.ports := rfl
@[simp] theorem State.modCol_mbox (s : State) (c : Nat) (f : Column → Column) : (s.modCol c f).mbox = s.mbox := rfl
@[simp] theorem State.modCol_settings (s : State) (c : Nat) (f : Column → Column) : (s.modCol c f).settings = s.settings := rfl
@[simp] theorem State.modCol_stored (s : State) (c : Nat) (f : Column → Column) : (s.modCol c f).stored = s.stored := rfl
@[simp] theorem State.modCol_fw (s : State) (c : Nat) (f : Column → Column) : (s.modCol c f).fw = s.fw := rfl
@[simp] theorem State.modCol_ss (s : State) (c : Nat) (f : Column → Column) : (s.modCol c f).ss = s.ss := rfl
@[simp] theorem State.modCol_scrub (s : State) (c : Nat) (f : Column → Column) : (s.modCol c f).scrub = s.scrub := rfl
@[simp] theorem State.modCol_xl (s : State) (c : Nat) (f : Column → Column) : (s.modCol c f).xl = s.xl := rfl
@[simp] theorem State.modCol_sec (s : State) (c : Nat) (f : Column → Column) : (s.modCol c f).sec = s.sec := rfl
@[simp] theorem State.modCol_power (s : State) (c : Nat) (f : Column → Column) : (s.modCol c f).power = s.power := rfl
@[simp] theorem State.modCol_sheet (s : State) (c : Nat) (f : Column → Column) : (s.modCol c f).sheet = s.sheet := rfl
@[simp] theorem State.modCol_semu (s : State) (c : Nat) (f : Column → Column) : (s.modCol c f).semu = s.semu := rfl
@[simp] theorem State.modCol_kv (s : State) (c : Nat) (f : Column → Column) : (s.modCol c f).kv = s.kv := rfl
@[simp] theorem State.modCol_reel (s : State) (c : Nat) (f : Column → Column) : (s.modCol c f).reel = s.reel := rfl
@[simp] theorem State.modCol_slices (s : State) (c : Nat) (f : Column → Column) : (s.modCol c f).slices = s.slices := rfl
@[simp] theorem State.modCol_emul (s : State) (c : Nat) (f : Column → Column) : (s.modCol c f).emul = s.emul := rfl
@[simp] theorem State.modCol_ext (s : State) (c : Nat) (f : Column → Column) : (s.modCol c f).ext = s.ext := rfl
@[simp] theorem State.modCol_free (s : State) (c : Nat) (f : Column → Column) : (s.modCol c f).free = s.free := rfl
@[simp] theorem State.modCol_pending (s : State) (c : Nat) (f : Column → Column) : (s.modCol c f).pending = s.pending := rfl

/-! ### modSem -/

@[simp] theorem State.modSem_chip (s : State) (n : Nat) (f : Sem → Sem) : (s.modSem n f).chip = s.chip := rfl
@[simp] theorem State.modSem_pins (s : State) (n : Nat) (f : Sem → Sem) : (s.modSem n f).pins = s.pins := rfl
@[simp] theorem State.modSem_tb (s : State) (n : Nat) (f : Sem → Sem) : (s.modSem n f).tb = s.tb := rfl
@[simp] theorem State.modSem_tick (s : State) (n : Nat) (f : Sem → Sem) : (s.modSem n f).tick = s.tick := rfl
@[simp] theorem State.modSem_start (s : State) (n : Nat) (f : Sem → Sem) : (s.modSem n f).start = s.start := rfl
@[simp] theorem State.modSem_node (s : State) (n : Nat) (f : Sem → Sem) : (s.modSem n f).node = s.node := rfl
@[simp] theorem State.modSem_irq (s : State) (n : Nat) (f : Sem → Sem) : (s.modSem n f).irq = s.irq := rfl
@[simp] theorem State.modSem_ports (s : State) (n : Nat) (f : Sem → Sem) : (s.modSem n f).ports = s.ports := rfl
@[simp] theorem State.modSem_mbox (s : State) (n : Nat) (f : Sem → Sem) : (s.modSem n f).mbox = s.mbox := rfl
@[simp] theorem State.modSem_settings (s : State) (n : Nat) (f : Sem → Sem) : (s.modSem n f).settings = s.settings := rfl
@[simp] theorem State.modSem_stored (s : State) (n : Nat) (f : Sem → Sem) : (s.modSem n f).stored = s.stored := rfl
@[simp] theorem State.modSem_fw (s : State) (n : Nat) (f : Sem → Sem) : (s.modSem n f).fw = s.fw := rfl
@[simp] theorem State.modSem_ss (s : State) (n : Nat) (f : Sem → Sem) : (s.modSem n f).ss = s.ss := rfl
@[simp] theorem State.modSem_scrub (s : State) (n : Nat) (f : Sem → Sem) : (s.modSem n f).scrub = s.scrub := rfl
@[simp] theorem State.modSem_xl (s : State) (n : Nat) (f : Sem → Sem) : (s.modSem n f).xl = s.xl := rfl
@[simp] theorem State.modSem_sec (s : State) (n : Nat) (f : Sem → Sem) : (s.modSem n f).sec = s.sec := rfl
@[simp] theorem State.modSem_ectl (s : State) (n : Nat) (f : Sem → Sem) : (s.modSem n f).ectl = s.ectl := rfl
@[simp] theorem State.modSem_power (s : State) (n : Nat) (f : Sem → Sem) : (s.modSem n f).power = s.power := rfl
@[simp] theorem State.modSem_sheet (s : State) (n : Nat) (f : Sem → Sem) : (s.modSem n f).sheet = s.sheet := rfl
@[simp] theorem State.modSem_kv (s : State) (n : Nat) (f : Sem → Sem) : (s.modSem n f).kv = s.kv := rfl
@[simp] theorem State.modSem_reel (s : State) (n : Nat) (f : Sem → Sem) : (s.modSem n f).reel = s.reel := rfl
@[simp] theorem State.modSem_slices (s : State) (n : Nat) (f : Sem → Sem) : (s.modSem n f).slices = s.slices := rfl
@[simp] theorem State.modSem_emul (s : State) (n : Nat) (f : Sem → Sem) : (s.modSem n f).emul = s.emul := rfl
@[simp] theorem State.modSem_ext (s : State) (n : Nat) (f : Sem → Sem) : (s.modSem n f).ext = s.ext := rfl
@[simp] theorem State.modSem_free (s : State) (n : Nat) (f : Sem → Sem) : (s.modSem n f).free = s.free := rfl
@[simp] theorem State.modSem_pending (s : State) (n : Nat) (f : Sem → Sem) : (s.modSem n f).pending = s.pending := rfl

/-! ### irqSet -/

@[simp] theorem State.irqSet_chip (s : State) (i : Nat) : (s.irqSet i).chip = s.chip := rfl
@[simp] theorem State.irqSet_pins (s : State) (i : Nat) : (s.irqSet i).pins = s.pins := rfl
@[simp] theorem State.irqSet_tb (s : State) (i : Nat) : (s.irqSet i).tb = s.tb := rfl
@[simp] theorem State.irqSet_tick (s : State) (i : Nat) : (s.irqSet i).tick = s.tick := rfl
@[simp] theorem State.irqSet_start (s : State) (i : Nat) : (s.irqSet i).start = s.start := rfl
@[simp] theorem State.irqSet_node (s : State) (i : Nat) : (s.irqSet i).node = s.node := rfl
@[simp] theorem State.irqSet_ports (s : State) (i : Nat) : (s.irqSet i).ports = s.ports := rfl
@[simp] theorem State.irqSet_mbox (s : State) (i : Nat) : (s.irqSet i).mbox = s.mbox := rfl
@[simp] theorem State.irqSet_settings (s : State) (i : Nat) : (s.irqSet i).settings = s.settings := rfl
@[simp] theorem State.irqSet_stored (s : State) (i : Nat) : (s.irqSet i).stored = s.stored := rfl
@[simp] theorem State.irqSet_fw (s : State) (i : Nat) : (s.irqSet i).fw = s.fw := rfl
@[simp] theorem State.irqSet_ss (s : State) (i : Nat) : (s.irqSet i).ss = s.ss := rfl
@[simp] theorem State.irqSet_scrub (s : State) (i : Nat) : (s.irqSet i).scrub = s.scrub := rfl
@[simp] theorem State.irqSet_xl (s : State) (i : Nat) : (s.irqSet i).xl = s.xl := rfl
@[simp] theorem State.irqSet_sec (s : State) (i : Nat) : (s.irqSet i).sec = s.sec := rfl
@[simp] theorem State.irqSet_ectl (s : State) (i : Nat) : (s.irqSet i).ectl = s.ectl := rfl
@[simp] theorem State.irqSet_power (s : State) (i : Nat) : (s.irqSet i).power = s.power := rfl
@[simp] theorem State.irqSet_sheet (s : State) (i : Nat) : (s.irqSet i).sheet = s.sheet := rfl
@[simp] theorem State.irqSet_semu (s : State) (i : Nat) : (s.irqSet i).semu = s.semu := rfl
@[simp] theorem State.irqSet_kv (s : State) (i : Nat) : (s.irqSet i).kv = s.kv := rfl
@[simp] theorem State.irqSet_reel (s : State) (i : Nat) : (s.irqSet i).reel = s.reel := rfl
@[simp] theorem State.irqSet_slices (s : State) (i : Nat) : (s.irqSet i).slices = s.slices := rfl
@[simp] theorem State.irqSet_emul (s : State) (i : Nat) : (s.irqSet i).emul = s.emul := rfl
@[simp] theorem State.irqSet_ext (s : State) (i : Nat) : (s.irqSet i).ext = s.ext := rfl
@[simp] theorem State.irqSet_free (s : State) (i : Nat) : (s.irqSet i).free = s.free := rfl
@[simp] theorem State.irqSet_pending (s : State) (i : Nat) : (s.irqSet i).pending = s.pending := rfl

/-! ### cleanFrames -/

@[simp] theorem State.cleanFrames_chip (s : State) (k lo n : Nat) : (s.cleanFrames k lo n).chip = s.chip := rfl
@[simp] theorem State.cleanFrames_pins (s : State) (k lo n : Nat) : (s.cleanFrames k lo n).pins = s.pins := rfl
@[simp] theorem State.cleanFrames_tb (s : State) (k lo n : Nat) : (s.cleanFrames k lo n).tb = s.tb := rfl
@[simp] theorem State.cleanFrames_tick (s : State) (k lo n : Nat) : (s.cleanFrames k lo n).tick = s.tick := rfl
@[simp] theorem State.cleanFrames_start (s : State) (k lo n : Nat) : (s.cleanFrames k lo n).start = s.start := rfl
@[simp] theorem State.cleanFrames_node (s : State) (k lo n : Nat) : (s.cleanFrames k lo n).node = s.node := rfl
@[simp] theorem State.cleanFrames_irq (s : State) (k lo n : Nat) : (s.cleanFrames k lo n).irq = s.irq := rfl
@[simp] theorem State.cleanFrames_ports (s : State) (k lo n : Nat) : (s.cleanFrames k lo n).ports = s.ports := rfl
@[simp] theorem State.cleanFrames_mbox (s : State) (k lo n : Nat) : (s.cleanFrames k lo n).mbox = s.mbox := rfl
@[simp] theorem State.cleanFrames_settings (s : State) (k lo n : Nat) : (s.cleanFrames k lo n).settings = s.settings := rfl
@[simp] theorem State.cleanFrames_stored (s : State) (k lo n : Nat) : (s.cleanFrames k lo n).stored = s.stored := rfl
@[simp] theorem State.cleanFrames_fw (s : State) (k lo n : Nat) : (s.cleanFrames k lo n).fw = s.fw := rfl
@[simp] theorem State.cleanFrames_ss (s : State) (k lo n : Nat) : (s.cleanFrames k lo n).ss = s.ss := rfl
@[simp] theorem State.cleanFrames_xl (s : State) (k lo n : Nat) : (s.cleanFrames k lo n).xl = s.xl := rfl
@[simp] theorem State.cleanFrames_sec (s : State) (k lo n : Nat) : (s.cleanFrames k lo n).sec = s.sec := rfl
@[simp] theorem State.cleanFrames_ectl (s : State) (k lo n : Nat) : (s.cleanFrames k lo n).ectl = s.ectl := rfl
@[simp] theorem State.cleanFrames_power (s : State) (k lo n : Nat) : (s.cleanFrames k lo n).power = s.power := rfl
@[simp] theorem State.cleanFrames_sheet (s : State) (k lo n : Nat) : (s.cleanFrames k lo n).sheet = s.sheet := rfl
@[simp] theorem State.cleanFrames_semu (s : State) (k lo n : Nat) : (s.cleanFrames k lo n).semu = s.semu := rfl
@[simp] theorem State.cleanFrames_kv (s : State) (k lo n : Nat) : (s.cleanFrames k lo n).kv = s.kv := rfl
@[simp] theorem State.cleanFrames_reel (s : State) (k lo n : Nat) : (s.cleanFrames k lo n).reel = s.reel := rfl
@[simp] theorem State.cleanFrames_slices (s : State) (k lo n : Nat) : (s.cleanFrames k lo n).slices = s.slices := rfl
@[simp] theorem State.cleanFrames_emul (s : State) (k lo n : Nat) : (s.cleanFrames k lo n).emul = s.emul := rfl
@[simp] theorem State.cleanFrames_ext (s : State) (k lo n : Nat) : (s.cleanFrames k lo n).ext = s.ext := rfl
@[simp] theorem State.cleanFrames_free (s : State) (k lo n : Nat) : (s.cleanFrames k lo n).free = s.free := rfl
@[simp] theorem State.cleanFrames_pending (s : State) (k lo n : Nat) : (s.cleanFrames k lo n).pending = s.pending := rfl

/-! ### cleanInactive -/

@[simp] theorem State.cleanInactive_chip (s : State) (k p : Nat) : (s.cleanInactive k p).chip = s.chip := rfl
@[simp] theorem State.cleanInactive_pins (s : State) (k p : Nat) : (s.cleanInactive k p).pins = s.pins := rfl
@[simp] theorem State.cleanInactive_tb (s : State) (k p : Nat) : (s.cleanInactive k p).tb = s.tb := rfl
@[simp] theorem State.cleanInactive_tick (s : State) (k p : Nat) : (s.cleanInactive k p).tick = s.tick := rfl
@[simp] theorem State.cleanInactive_start (s : State) (k p : Nat) : (s.cleanInactive k p).start = s.start := rfl
@[simp] theorem State.cleanInactive_node (s : State) (k p : Nat) : (s.cleanInactive k p).node = s.node := rfl
@[simp] theorem State.cleanInactive_irq (s : State) (k p : Nat) : (s.cleanInactive k p).irq = s.irq := rfl
@[simp] theorem State.cleanInactive_ports (s : State) (k p : Nat) : (s.cleanInactive k p).ports = s.ports := rfl
@[simp] theorem State.cleanInactive_mbox (s : State) (k p : Nat) : (s.cleanInactive k p).mbox = s.mbox := rfl
@[simp] theorem State.cleanInactive_settings (s : State) (k p : Nat) : (s.cleanInactive k p).settings = s.settings := rfl
@[simp] theorem State.cleanInactive_stored (s : State) (k p : Nat) : (s.cleanInactive k p).stored = s.stored := rfl
@[simp] theorem State.cleanInactive_fw (s : State) (k p : Nat) : (s.cleanInactive k p).fw = s.fw := rfl
@[simp] theorem State.cleanInactive_ss (s : State) (k p : Nat) : (s.cleanInactive k p).ss = s.ss := rfl
@[simp] theorem State.cleanInactive_xl (s : State) (k p : Nat) : (s.cleanInactive k p).xl = s.xl := rfl
@[simp] theorem State.cleanInactive_sec (s : State) (k p : Nat) : (s.cleanInactive k p).sec = s.sec := rfl
@[simp] theorem State.cleanInactive_ectl (s : State) (k p : Nat) : (s.cleanInactive k p).ectl = s.ectl := rfl
@[simp] theorem State.cleanInactive_power (s : State) (k p : Nat) : (s.cleanInactive k p).power = s.power := rfl
@[simp] theorem State.cleanInactive_sheet (s : State) (k p : Nat) : (s.cleanInactive k p).sheet = s.sheet := rfl
@[simp] theorem State.cleanInactive_semu (s : State) (k p : Nat) : (s.cleanInactive k p).semu = s.semu := rfl
@[simp] theorem State.cleanInactive_kv (s : State) (k p : Nat) : (s.cleanInactive k p).kv = s.kv := rfl
@[simp] theorem State.cleanInactive_reel (s : State) (k p : Nat) : (s.cleanInactive k p).reel = s.reel := rfl
@[simp] theorem State.cleanInactive_slices (s : State) (k p : Nat) : (s.cleanInactive k p).slices = s.slices := rfl
@[simp] theorem State.cleanInactive_emul (s : State) (k p : Nat) : (s.cleanInactive k p).emul = s.emul := rfl
@[simp] theorem State.cleanInactive_ext (s : State) (k p : Nat) : (s.cleanInactive k p).ext = s.ext := rfl
@[simp] theorem State.cleanInactive_free (s : State) (k p : Nat) : (s.cleanInactive k p).free = s.free := rfl
@[simp] theorem State.cleanInactive_pending (s : State) (k p : Nat) : (s.cleanInactive k p).pending = s.pending := rfl

/-! ### respond -/

@[simp] theorem State.respond_chip (s : State) (op : Nat) (dst : W12) (off data : Nat) : (s.respond op dst off data).chip = s.chip := rfl
@[simp] theorem State.respond_pins (s : State) (op : Nat) (dst : W12) (off data : Nat) : (s.respond op dst off data).pins = s.pins := rfl
@[simp] theorem State.respond_tb (s : State) (op : Nat) (dst : W12) (off data : Nat) : (s.respond op dst off data).tb = s.tb := rfl
@[simp] theorem State.respond_tick (s : State) (op : Nat) (dst : W12) (off data : Nat) : (s.respond op dst off data).tick = s.tick := rfl
@[simp] theorem State.respond_start (s : State) (op : Nat) (dst : W12) (off data : Nat) : (s.respond op dst off data).start = s.start := rfl
@[simp] theorem State.respond_node (s : State) (op : Nat) (dst : W12) (off data : Nat) : (s.respond op dst off data).node = s.node := rfl
@[simp] theorem State.respond_irq (s : State) (op : Nat) (dst : W12) (off data : Nat) : (s.respond op dst off data).irq = s.irq := rfl
@[simp] theorem State.respond_mbox (s : State) (op : Nat) (dst : W12) (off data : Nat) : (s.respond op dst off data).mbox = s.mbox := rfl
@[simp] theorem State.respond_settings (s : State) (op : Nat) (dst : W12) (off data : Nat) : (s.respond op dst off data).settings = s.settings := rfl
@[simp] theorem State.respond_stored (s : State) (op : Nat) (dst : W12) (off data : Nat) : (s.respond op dst off data).stored = s.stored := rfl
@[simp] theorem State.respond_fw (s : State) (op : Nat) (dst : W12) (off data : Nat) : (s.respond op dst off data).fw = s.fw := rfl
@[simp] theorem State.respond_ss (s : State) (op : Nat) (dst : W12) (off data : Nat) : (s.respond op dst off data).ss = s.ss := rfl
@[simp] theorem State.respond_scrub (s : State) (op : Nat) (dst : W12) (off data : Nat) : (s.respond op dst off data).scrub = s.scrub := rfl
@[simp] theorem State.respond_xl (s : State) (op : Nat) (dst : W12) (off data : Nat) : (s.respond op dst off data).xl = s.xl := rfl
@[simp] theorem State.respond_sec (s : State) (op : Nat) (dst : W12) (off data : Nat) : (s.respond op dst off data).sec = s.sec := rfl
@[simp] theorem State.respond_ectl (s : State) (op : Nat) (dst : W12) (off data : Nat) : (s.respond op dst off data).ectl = s.ectl := rfl
@[simp] theorem State.respond_power (s : State) (op : Nat) (dst : W12) (off data : Nat) : (s.respond op dst off data).power = s.power := rfl
@[simp] theorem State.respond_sheet (s : State) (op : Nat) (dst : W12) (off data : Nat) : (s.respond op dst off data).sheet = s.sheet := rfl
@[simp] theorem State.respond_semu (s : State) (op : Nat) (dst : W12) (off data : Nat) : (s.respond op dst off data).semu = s.semu := rfl
@[simp] theorem State.respond_kv (s : State) (op : Nat) (dst : W12) (off data : Nat) : (s.respond op dst off data).kv = s.kv := rfl
@[simp] theorem State.respond_reel (s : State) (op : Nat) (dst : W12) (off data : Nat) : (s.respond op dst off data).reel = s.reel := rfl
@[simp] theorem State.respond_slices (s : State) (op : Nat) (dst : W12) (off data : Nat) : (s.respond op dst off data).slices = s.slices := rfl
@[simp] theorem State.respond_emul (s : State) (op : Nat) (dst : W12) (off data : Nat) : (s.respond op dst off data).emul = s.emul := rfl
@[simp] theorem State.respond_ext (s : State) (op : Nat) (dst : W12) (off data : Nat) : (s.respond op dst off data).ext = s.ext := rfl
@[simp] theorem State.respond_free (s : State) (op : Nat) (dst : W12) (off data : Nat) : (s.respond op dst off data).free = s.free := rfl
@[simp] theorem State.respond_pending (s : State) (op : Nat) (dst : W12) (off data : Nat) : (s.respond op dst off data).pending = s.pending := rfl

/-! ### dvfsIdle -/

@[simp] theorem State.dvfsIdle_chip (s : State) : (s.dvfsIdle).chip = s.chip := rfl
@[simp] theorem State.dvfsIdle_pins (s : State) : (s.dvfsIdle).pins = s.pins := rfl
@[simp] theorem State.dvfsIdle_tb (s : State) : (s.dvfsIdle).tb = s.tb := rfl
@[simp] theorem State.dvfsIdle_tick (s : State) : (s.dvfsIdle).tick = s.tick := rfl
@[simp] theorem State.dvfsIdle_start (s : State) : (s.dvfsIdle).start = s.start := rfl
@[simp] theorem State.dvfsIdle_node (s : State) : (s.dvfsIdle).node = s.node := rfl
@[simp] theorem State.dvfsIdle_irq (s : State) : (s.dvfsIdle).irq = s.irq := rfl
@[simp] theorem State.dvfsIdle_mbox (s : State) : (s.dvfsIdle).mbox = s.mbox := rfl
@[simp] theorem State.dvfsIdle_settings (s : State) : (s.dvfsIdle).settings = s.settings := rfl
@[simp] theorem State.dvfsIdle_stored (s : State) : (s.dvfsIdle).stored = s.stored := rfl
@[simp] theorem State.dvfsIdle_fw (s : State) : (s.dvfsIdle).fw = s.fw := rfl
@[simp] theorem State.dvfsIdle_ss (s : State) : (s.dvfsIdle).ss = s.ss := rfl
@[simp] theorem State.dvfsIdle_scrub (s : State) : (s.dvfsIdle).scrub = s.scrub := rfl
@[simp] theorem State.dvfsIdle_xl (s : State) : (s.dvfsIdle).xl = s.xl := rfl
@[simp] theorem State.dvfsIdle_sec (s : State) : (s.dvfsIdle).sec = s.sec := rfl
@[simp] theorem State.dvfsIdle_ectl (s : State) : (s.dvfsIdle).ectl = s.ectl := rfl
@[simp] theorem State.dvfsIdle_power (s : State) : (s.dvfsIdle).power = s.power := rfl
@[simp] theorem State.dvfsIdle_sheet (s : State) : (s.dvfsIdle).sheet = s.sheet := rfl
@[simp] theorem State.dvfsIdle_semu (s : State) : (s.dvfsIdle).semu = s.semu := rfl
@[simp] theorem State.dvfsIdle_kv (s : State) : (s.dvfsIdle).kv = s.kv := rfl
@[simp] theorem State.dvfsIdle_reel (s : State) : (s.dvfsIdle).reel = s.reel := rfl
@[simp] theorem State.dvfsIdle_slices (s : State) : (s.dvfsIdle).slices = s.slices := rfl
@[simp] theorem State.dvfsIdle_emul (s : State) : (s.dvfsIdle).emul = s.emul := rfl
@[simp] theorem State.dvfsIdle_ext (s : State) : (s.dvfsIdle).ext = s.ext := rfl
@[simp] theorem State.dvfsIdle_free (s : State) : (s.dvfsIdle).free = s.free := rfl
@[simp] theorem State.dvfsIdle_pending (s : State) : (s.dvfsIdle).pending = s.pending := rfl

/-! ### Reading what was replaced -/

@[simp] theorem State.sl_setSl (s : State) (k : Nat) (x : Slice) (h : k < 32) : (s.setSl k x).sl k = x := by
  simp [State.sl, State.setSl, h]

theorem State.sl_setSl_ne (s : State) (k j : Nat) (x : Slice) (h : k ≠ j) : (s.setSl k x).sl j = s.sl j := by
  simp [State.sl, State.setSl, h]

@[simp] theorem State.sl_mod (s : State) (k : Nat) (f : Slice → Slice) (h : k < 32) : (s.mod k f).sl k = f (s.sl k) :=
  State.sl_setSl s k _ h

theorem State.sl_mod_ne (s : State) (k j : Nat) (f : Slice → Slice) (h : k ≠ j) : (s.mod k f).sl j = s.sl j :=
  State.sl_setSl_ne s k j _ h

@[simp] theorem State.chan_modChan (s : State) (c : Nat) (f : Chan → Chan) (h : c < 16) :
    (s.modChan c f).chan c = f (s.chan c) := by
  simp [State.modChan, State.chan, h]

@[simp] theorem State.sport_modSport (s : State) (p : Nat) (f : Sport → Sport) (h : p < 16) :
    (s.modSport p f).sport p = f (s.sport p) := by
  simp [State.modSport, State.sport, h]

@[simp] theorem State.col_modCol (s : State) (c : Nat) (f : Column → Column) (h : c < 32) :
    (s.modCol c f).col c = f (s.col c) := by
  simp [State.modCol, State.col, h]

@[simp] theorem State.sem_modSem (s : State) (n : Nat) (f : Sem → Sem) (h : n < 256) :
    (s.modSem n f).sem n = f (s.sem n) := by
  simp [State.modSem, State.sem, h]

/-- Two replacements of one slice are the later one. -/
@[simp] theorem State.setSl_setSl (s : State) (k : Nat) (x y : Slice) : (s.setSl k x).setSl k y = s.setSl k y := by
  simp [State.setSl]

/-! ### The answer of a command -/

@[simp] theorem State.commit_pending (s t : State) : (s.commit t).pending = s.pending := by
  unfold State.commit; split <;> rfl

@[simp] theorem State.commit_chip (s t : State) : (s.commit t).chip = s.chip := by
  unfold State.commit; split <;> rfl

/-- A live block takes what the command made, where that left the queue and the chip alone. -/
theorem State.commit_live (s t : State) (h : s.live = true) (hp : t.pending = s.pending) (hc : t.chip = s.chip) :
    s.commit t = t := by
  unfold State.commit; rw [if_pos h, ← hp, ← hc]

/-- A block that is held in reset or stopped for test ignores the command. -/
theorem State.commit_dead (s t : State) (h : s.live = false) : s.commit t = s := by
  unfold State.commit; rw [if_neg (by simp [h])]

/-- The answer of a command of a live block. -/
theorem act_live (s t : State) (h : s.live = true) (hp : t.pending = s.pending) (hc : t.chip = s.chip) : act s t = .next t := by
  unfold act; rw [State.commit_live s t h hp hc]

/-- The answer of a command of a live block, where what it makes is known. -/
theorem act_eq {s t u : State} (h : s.live = true) (e : t = u) (hp : u.pending = s.pending) (hc : u.chip = s.chip) :
    act s t = .next u := by
  subst e; exact act_live s _ h hp hc

/-- Whatever a command makes, the queue and the chip stay. -/
theorem act_next (s t u : State) (h : act s t = .next u) : u.pending = s.pending ∧ u.chip = s.chip := by
  unfold act at h; cases h; simp

end Sys2Proof.Machine
end

