-- ==== Sys2Proof/Laws/Issue.lean ====
section
/-! SUPPORT. What issue does: one lemma for each operation that the sequencer's instructions share. -/

namespace Sys2Proof.Machine

/-- The parts of a slice that takes its next instruction. -/
theorem State.takes_parts {s : State} {k : Nat} (h : s.takes k = true) :
    s.live = true ∧ s.canIssue k = true ∧ s.fetchBad k = none ∧
      (s.sl k).cutHits (s.sl k).seq.pc (s.sl k).seq.routine = false := by
  simpa [State.takes, and_assoc] using h

/-- Where the next instruction can be fetched, it issues. -/
theorem State.gate_takes {s : State} {k : Nat} (h : s.takes k = true) (op : Nat) (t : State) : s.gate k op t = t := by
  obtain ⟨-, hc, hf, -⟩ := State.takes_parts h
  simp [State.gate, hc, hf]

/-- A slice that cannot issue does nothing. -/
theorem State.gate_blocked {s : State} {k : Nat} (h : s.canIssue k = false) (op : Nat) (t : State) : s.gate k op t = s := by
  simp [State.gate, h]

theorem Slice.afterIssue_eq (x : Slice) : (x.showStall none).countIssue.noteSeen = x.afterIssue := by
  unfold Slice.noteSeen Slice.afterIssue Slice.seenAfter
  cases h : x.seq.routine <;> simp [Slice.showStall, Slice.countIssue, h]

@[simp] theorem Slice.afterIssue_state (x : Slice) : x.afterIssue.state = x.state := rfl
@[simp] theorem Slice.afterIssue_cut (x : Slice) : x.afterIssue.cut = x.cut := rfl
@[simp] theorem Slice.afterIssue_pc (x : Slice) : x.afterIssue.seq.pc = x.seq.pc := rfl
@[simp] theorem Slice.afterIssue_frame (x : Slice) : x.afterIssue.seq.frame = x.seq.frame := rfl
@[simp] theorem Slice.afterIssue_cnt (x : Slice) : x.afterIssue.seq.cnt = x.seq.cnt := rfl
@[simp] theorem Slice.afterIssue_cmp (x : Slice) : x.afterIssue.seq.cmp = x.seq.cmp := rfl
@[simp] theorem Slice.afterIssue_cmpOpen (x : Slice) : x.afterIssue.seq.cmpOpen = x.seq.cmpOpen := rfl
@[simp] theorem Slice.afterIssue_bracket (x : Slice) : x.afterIssue.bracket = x.bracket := rfl
@[simp] theorem Slice.afterIssue_brk0 (x : Slice) : x.afterIssue.brk0 = x.brk0 := rfl
@[simp] theorem Slice.afterIssue_brk1 (x : Slice) : x.afterIssue.brk1 = x.brk1 := rfl
@[simp] theorem Slice.afterIssue_pwrites (x : Slice) : x.afterIssue.pwrites = x.pwrites := rfl
@[simp] theorem Slice.afterIssue_flight (x : Slice) : x.afterIssue.flight = x.flight := rfl

/-- An instruction that issues, where no cut is on it and its effect leaves the cut and the frame alone. -/
theorem State.issued_eq (s : State) (k : SliceId) (op : Nat) (f : Slice → Slice)
    (hcut : (s.sl k.val).cutHits (s.sl k.val).seq.pc (s.sl k.val).seq.routine = false)
    (hc : (f (s.sl k.val).afterIssue).cut = (s.sl k.val).cut)
    (hf : (f (s.sl k.val).afterIssue).seq.frame = (s.sl k.val).seq.frame) :
    s.issued k.val op f = s.setSl k.val (f (s.sl k.val).afterIssue) := by
  have e : s.mod k.val (fun x => f ((x.showStall none).countIssue.noteSeen)) = s.setSl k.val (f (s.sl k.val).afterIssue) := by
    simp only [Slice.afterIssue_eq, State.mod]
  have hn : (f (s.sl k.val).afterIssue).cutHits (s.sl k.val).seq.pc (s.sl k.val).seq.routine = false := by
    rw [← hcut]; simp [Slice.cutHits, hc, hf]
  simp [State.issued, e, State.cutCheck, State.sl_setSl _ _ _ k.isLt, hn]

/-- A scalar instruction whose comparators are resolved, and its effect. -/
theorem State.scalar_eq {s : State} {k : SliceId} (h : s.takes k.val = true) (op : Nat) (rd wr : List (Fin 4))
    (f : Slice → Slice) (hs : (s.sl k.val).cmpStall rd wr = none)
    (hc : (f (s.sl k.val).afterIssue).cut = (s.sl k.val).cut)
    (hf : (f (s.sl k.val).afterIssue).seq.frame = (s.sl k.val).seq.frame) :
    s.scalar k.val op rd wr f = s.setSl k.val (f (s.sl k.val).afterIssue).nextPc := by
  unfold State.scalar
  rw [State.gate_takes h, hs]
  exact State.issued_eq s k op (fun x => (f x).nextPc) (State.takes_parts h).2.2.2 hc hf

/-- A replacement inside a vector, at an index that it has. -/
theorem setIfInBounds_eq_set {α : Type} {n : Nat} (v : Vector α n) (i : Nat) (a : α) (h : i < n) :
    v.setIfInBounds i a = v.set i a := by
  apply Vector.ext
  intro j hj
  by_cases e : i = j <;> simp [e]

/-- A comparator written by its number. -/
theorem Slice.setCmp_eq (x : Slice) (c : Fin 4) (v : Bool) : x.setCmp c.val v =
    { x with seq := { x.seq with cmp := x.seq.cmp.set c v, cmpOpen := x.seq.cmpOpen.set c false } } := by
  simp [Slice.setCmp, setIfInBounds_eq_set _ _ _ c.isLt]

/-- A command of a live block that changes one slice. -/
theorem act_setSl {s : State} (h : s.live = true) (k : Nat) (y : Slice) : act s (s.setSl k y) = .next (s.setSl k y) :=
  act_live s _ h rfl rfl

end Sys2Proof.Machine
end

