-- ==== Sys2Proof/Laws/Mem.lean ====
section
/-! SUPPORT. The laws of byte memory: what a read finds after a write, and that every operation keeps the canonical form. -/

namespace Sys2Proof.Machine

/-! ### The canonical form -/

theorem Mem.wfFrom_cons (lo a : Nat) (b : Byte) (m : Mem) :
    Mem.wfFrom lo ((a, b) :: m) = true ↔ lo ≤ a ∧ b ≠ unlisted ∧ Mem.wfFrom (a + 1) m = true := by
  simp [Mem.wfFrom, and_assoc]

theorem Mem.wfFrom_mono {lo hi : Nat} (h : lo ≤ hi) : ∀ {m : Mem}, Mem.wfFrom hi m = true → Mem.wfFrom lo m = true
  | [], _ => rfl
  | (a, b) :: m, w => by
    rw [Mem.wfFrom_cons] at w ⊢
    exact ⟨by omega, w.2⟩

theorem Mem.write_wfFrom (a : Nat) (v : Byte) :
    ∀ (m : Mem) (lo : Nat), lo ≤ a → Mem.wfFrom lo m = true → Mem.wfFrom lo (m.write a v) = true
  | [], lo, h, _ => by
    unfold Mem.write; split
    · rfl
    · rw [Mem.wfFrom_cons]; exact ⟨h, ‹_›, rfl⟩
  | (k, b) :: m, lo, h, w => by
    have w' := (Mem.wfFrom_cons lo k b m).1 w
    unfold Mem.write
    split
    · split
      · exact w
      · rw [Mem.wfFrom_cons, Mem.wfFrom_cons]; exact ⟨h, ‹_›, by omega, w'.2⟩
    · split
      · split
        · exact Mem.wfFrom_mono (by omega) w'.2.2
        · rw [Mem.wfFrom_cons]; exact ⟨w'.1, ‹_›, w'.2.2⟩
      · rw [Mem.wfFrom_cons]
        exact ⟨w'.1, w'.2.1, Mem.write_wfFrom a v m (k + 1) (by omega) w'.2.2⟩

/-- A write of one byte keeps the canonical form. -/
theorem Mem.write_wf (m : Mem) (a : Nat) (v : Byte) (h : m.wf = true) : (m.write a v).wf = true :=
  Mem.write_wfFrom a v m 0 (Nat.zero_le a) h

/-- A write of several bytes keeps it. -/
theorem Mem.writeN_wf (l : List Byte) : ∀ (m : Mem) (a : Nat), m.wf = true → (m.writeN a l).wf = true := by
  induction l with
  | nil => intro m a h; exact h
  | cons b bs ih => intro m a h; exact ih (m.write a b) (a + 1) (Mem.write_wf m a b h)

/-- A write of a little-endian number keeps it. -/
theorem Mem.writeLe_wf (m : Mem) (a n v : Nat) (h : m.wf = true) : (m.writeLe a n v).wf = true := Mem.writeN_wf _ m a h

theorem Mem.filter_wfFrom (p : Host.Cell → Bool) :
    ∀ (m : Mem) (lo : Nat), Mem.wfFrom lo m = true → Mem.wfFrom lo (m.filter p) = true
  | [], _, _ => rfl
  | (k, b) :: m, lo, w => by
    have w' := (Mem.wfFrom_cons lo k b m).1 w
    have t := Mem.filter_wfFrom p m (k + 1) w'.2.2
    rw [List.filter_cons]
    split
    · rw [Mem.wfFrom_cons]; exact ⟨w'.1, w'.2.1, t⟩
    · exact Mem.wfFrom_mono (by omega) t

/-- Clearing a range keeps it. -/
theorem Mem.clear_wf (m : Mem) (lo n : Nat) (h : m.wf = true) : (m.clear lo n).wf = true := Mem.filter_wfFrom _ m 0 h

/-- Copying a range of another memory keeps it. -/
theorem Mem.copyIn_wf (m : Mem) (at_ : Nat) (src : Mem) (start n : Nat) (h : m.wf = true) :
    (m.copyIn at_ src start n).wf = true := by
  unfold Mem.copyIn
  generalize src.filter _ = l
  have h' := Mem.clear_wf m at_ n h
  generalize m.clear at_ n = c at h'
  induction l generalizing c with
  | nil => exact h'
  | cons x xs ih => exact ih _ (Mem.write_wf c _ _ h')

/-! ### Reads after writes -/

theorem Mem.read_below : ∀ (m : Mem) (lo a : Nat), Mem.wfFrom lo m = true → a < lo → m.read a = unlisted
  | [], _, _, _, _ => rfl
  | (k, b) :: m, lo, a, w, h => by
    have w' := (Mem.wfFrom_cons lo k b m).1 w
    unfold Mem.read
    rw [if_neg (by omega)]
    exact Mem.read_below m (k + 1) a w'.2.2 (by omega)

theorem Mem.read_write_from (a x : Nat) (v : Byte) :
    ∀ (m : Mem) (lo : Nat), Mem.wfFrom lo m = true → (m.write a v).read x = if x = a then v else m.read x
  | [], _, _ => by
    unfold Mem.write
    split
    · subst v; simp [Mem.read]
    · simp [Mem.read]
  | (k, b) :: m, lo, w => by
    have w' := (Mem.wfFrom_cons lo k b m).1 w
    have below : ∀ y, y ≤ k → Mem.read m y = unlisted := fun y h => Mem.read_below m (k + 1) y w'.2.2 (by omega)
    unfold Mem.write
    split
    · split
      · subst v
        by_cases e : x = a
        · subst e; simp [Mem.read, below x (by omega), Nat.ne_of_lt ‹x < k›]
        · simp [e]
      · by_cases e : x = a <;> simp [Mem.read, e]
    · split
      · subst k
        split
        · subst v
          by_cases e : x = a
          · subst e; simp [below x (Nat.le_refl _)]
          · simp [Mem.read, e]
        · by_cases e : x = a <;> simp [Mem.read, e]
      · have ih := Mem.read_write_from a x v m (k + 1) w'.2.2
        by_cases e : x = k
        · subst e
          have hne : x ≠ a := by omega
          simp [Mem.read, hne]
        · simp [Mem.read, e, ih]

/-- A byte reads as what was last written there, and every other byte as before. -/
theorem Mem.read_write (m : Mem) (a x : Nat) (v : Byte) (h : m.wf = true) :
    (m.write a v).read x = if x = a then v else m.read x := Mem.read_write_from a x v m 0 h

/-- A write of several bytes leaves the bytes outside its range alone. -/
theorem Mem.read_writeN_outside (l : List Byte) :
    ∀ (m : Mem) (a x : Nat), m.wf = true → (x < a ∨ a + l.length ≤ x) → (m.writeN a l).read x = m.read x := by
  induction l with
  | nil => intro m a x _ _; rfl
  | cons b bs ih =>
    intro m a x h o
    simp only [List.length_cons] at o
    show ((m.write a b).writeN (a + 1) bs).read x = _
    rw [ih (m.write a b) (a + 1) x (Mem.write_wf m a b h) (by omega), Mem.read_write m a x b h, if_neg (by omega)]

/-- A write of several bytes is read back. -/
theorem Mem.read_writeN (l : List Byte) :
    ∀ (m : Mem) (a i : Nat), m.wf = true → i < l.length → (m.writeN a l).read (a + i) = l[i]?.getD 0 := by
  induction l with
  | nil => intro m a i _ h; simp at h
  | cons b bs ih =>
    intro m a i h hi
    show ((m.write a b).writeN (a + 1) bs).read (a + i) = _
    cases i with
    | zero =>
      rw [Mem.read_writeN_outside bs (m.write a b) (a + 1) (a + 0) (Mem.write_wf m a b h) (by omega),
        Mem.read_write m a (a + 0) b h]
      simp
    | succ j =>
      have := ih (m.write a b) (a + 1) j (Mem.write_wf m a b h) (by simpa using hi)
      rw [show a + (j + 1) = a + 1 + j by omega, this]
      simp

end Sys2Proof.Machine
end

