-- ==== Sys2Proof/Laws/PerInstr.lean ====
section
/-! SUPPORT. A law of every instruction, stated constructor by constructor: what `Instr.engine?` says of it. -/

namespace Sys2Proof.Laws.Opcode

/-- An instruction that a unit runs has an opcode of the engine classes (R115), a well-formed one has well-formed fields (R114), and one
without such fields is never taken for one that has them. -/
def Statement (i : Instr) : Prop :=
  ∀ k op f, i.engine? = some (k, op, f) → 0x20 ≤ op ∧ op ≤ 0xB2 ∧ (i.wf = true → f.wf = true)

/-- An instruction that no unit runs. -/
theorem none_holds {i : Instr} (h : i.engine? = none) : Statement i := fun _ _ _ h' => by rw [h] at h'; cases h'

/-- An instruction that a unit runs. -/
theorem some_holds {i : Instr} {k : SliceId} {op : Nat} {f : Fields} (h : i.engine? = some (k, op, f)) (lo : 0x20 ≤ op) (hi : op ≤ 0xB2)
    (w : i.wf = true → f.wf = true) : Statement i := fun _ _ _ h' => by
  rw [h] at h'
  cases h'
  exact ⟨lo, hi, w⟩

theorem nop (k : SliceId) : Statement (.nop k) := none_holds rfl
theorem call (k : SliceId) (f : CallFields) : Statement (.call k f) := none_holds rfl
theorem ret (k : SliceId) : Statement (.ret k) := none_holds rfl
theorem strip (k : SliceId) (shape : BitVec 11) (double : Bool) : Statement (.strip k shape double) := none_holds rfl
theorem endstrip (k : SliceId) : Statement (.endstrip k) := none_holds rfl
theorem waitAcquire (k : SliceId) (f : WaitFields) : Statement (.waitAcquire k f) := none_holds rfl
theorem waitDrain (k : SliceId) (f : WaitFields) : Statement (.waitDrain k f) := none_holds rfl
theorem signal (k : SliceId) (sem : Byte) : Statement (.signal k sem) := none_holds rfl
theorem tickwait (k : SliceId) : Statement (.tickwait k) := none_holds rfl
theorem cset (k : SliceId) (n : Fin 8) (imm : W32) : Statement (.cset k n imm) := none_holds rfl
theorem cadd (k : SliceId) (n : Fin 8) (imm : W32) : Statement (.cadd k n imm) := none_holds rfl
theorem caddc (k : SliceId) (n : Fin 8) (m : Fin 8) : Statement (.caddc k n m) := none_holds rfl
theorem cldp (k : SliceId) (n : Fin 8) (p : Fin 64) : Statement (.cldp k n p) := none_holds rfl
theorem ccmpi (k : SliceId) (c : Fin 4) (n : Fin 8) (pred : BitVec 3) (signed : Bool) (imm : W32) : Statement (.ccmpi k c n pred signed imm) := none_holds rfl
theorem ccmpc (k : SliceId) (c : Fin 4) (n : Fin 8) (pred : BitVec 3) (signed : Bool) (m : Fin 8) : Statement (.ccmpc k c n pred signed m) := none_holds rfl
theorem clogic (k : SliceId) (c : Fin 4) (a : Fin 4) (b : Fin 4) (op : BitVec 3) : Statement (.clogic k c a b op) := none_holds rfl
theorem pset (k : SliceId) (p : Fin 64) (imm : BitVec 48) : Statement (.pset k p imm) := none_holds rfl
theorem padd (k : SliceId) (p : Fin 64) (q : Fin 64) (imm : W32) : Statement (.padd k p q imm) := none_holds rfl
theorem pfromc (k : SliceId) (p : Fin 64) (n : Fin 8) : Statement (.pfromc k p n) := none_holds rfl
theorem cwrap (k : SliceId) (n : Fin 8) (imm : W32) : Statement (.cwrap k n imm) := none_holds rfl
theorem add (k : SliceId) (f : Fields) : Statement (.add k f) := some_holds rfl (by decide) (by decide) id
theorem sub (k : SliceId) (f : Fields) : Statement (.sub k f) := some_holds rfl (by decide) (by decide) id
theorem mul (k : SliceId) (f : Fields) : Statement (.mul k f) := some_holds rfl (by decide) (by decide) id
theorem fma (k : SliceId) (f : Fields) : Statement (.fma k f) := some_holds rfl (by decide) (by decide) id
theorem fnma (k : SliceId) (f : Fields) : Statement (.fnma k f) := some_holds rfl (by decide) (by decide) id
theorem div (k : SliceId) (f : Fields) : Statement (.div k f) := some_holds rfl (by decide) (by decide) id
theorem min (k : SliceId) (f : Fields) : Statement (.min k f) := some_holds rfl (by decide) (by decide) id
theorem max (k : SliceId) (f : Fields) : Statement (.max k f) := some_holds rfl (by decide) (by decide) id
theorem clamp (k : SliceId) (f : Fields) : Statement (.clamp k f) := some_holds rfl (by decide) (by decide) id
theorem abs (k : SliceId) (f : Fields) : Statement (.abs k f) := some_holds rfl (by decide) (by decide) id
theorem neg (k : SliceId) (f : Fields) : Statement (.neg k f) := some_holds rfl (by decide) (by decide) id
theorem copysign (k : SliceId) (f : Fields) : Statement (.copysign k f) := some_holds rfl (by decide) (by decide) id
theorem twosum (k : SliceId) (f : Fields) : Statement (.twosum k f) := some_holds rfl (by decide) (by decide) id
theorem twoprod (k : SliceId) (f : Fields) : Statement (.twoprod k f) := some_holds rfl (by decide) (by decide) id
theorem roundint (k : SliceId) (f : Fields) : Statement (.roundint k f) := some_holds rfl (by decide) (by decide) id
theorem bcast (k : SliceId) (f : Fields) : Statement (.bcast k f) := some_holds rfl (by decide) (by decide) id
theorem rcp (k : SliceId) (f : Fields) : Statement (.rcp k f) := some_holds rfl (by decide) (by decide) id
theorem sqrt (k : SliceId) (f : Fields) : Statement (.sqrt k f) := some_holds rfl (by decide) (by decide) id
theorem rsqrt (k : SliceId) (f : Fields) : Statement (.rsqrt k f) := some_holds rfl (by decide) (by decide) id
theorem exp (k : SliceId) (f : Fields) : Statement (.exp k f) := some_holds rfl (by decide) (by decide) id
theorem exp2 (k : SliceId) (f : Fields) : Statement (.exp2 k f) := some_holds rfl (by decide) (by decide) id
theorem log (k : SliceId) (f : Fields) : Statement (.log k f) := some_holds rfl (by decide) (by decide) id
theorem log2 (k : SliceId) (f : Fields) : Statement (.log2 k f) := some_holds rfl (by decide) (by decide) id
theorem tanh (k : SliceId) (f : Fields) : Statement (.tanh k f) := some_holds rfl (by decide) (by decide) id
theorem sigmoid (k : SliceId) (f : Fields) : Statement (.sigmoid k f) := some_holds rfl (by decide) (by decide) id
theorem silu (k : SliceId) (f : Fields) : Statement (.silu k f) := some_holds rfl (by decide) (by decide) id
theorem gelu (k : SliceId) (f : Fields) : Statement (.gelu k f) := some_holds rfl (by decide) (by decide) id
theorem erf (k : SliceId) (f : Fields) : Statement (.erf k f) := some_holds rfl (by decide) (by decide) id
theorem softplus (k : SliceId) (f : Fields) : Statement (.softplus k f) := some_holds rfl (by decide) (by decide) id
theorem sin (k : SliceId) (f : Fields) : Statement (.sin k f) := some_holds rfl (by decide) (by decide) id
theorem cos (k : SliceId) (f : Fields) : Statement (.cos k f) := some_holds rfl (by decide) (by decide) id
theorem cmp (k : SliceId) (f : Fields) : Statement (.cmp k f) := some_holds rfl (by decide) (by decide) id
theorem classOf (k : SliceId) (f : Fields) : Statement (.classOf k f) := some_holds rfl (by decide) (by decide) id
theorem select (k : SliceId) (f : Fields) : Statement (.select k f) := some_holds rfl (by decide) (by decide) id
theorem and (k : SliceId) (f : Fields) : Statement (.and k f) := some_holds rfl (by decide) (by decide) id
theorem or (k : SliceId) (f : Fields) : Statement (.or k f) := some_holds rfl (by decide) (by decide) id
theorem xor (k : SliceId) (f : Fields) : Statement (.xor k f) := some_holds rfl (by decide) (by decide) id
theorem not (k : SliceId) (f : Fields) : Statement (.not k f) := some_holds rfl (by decide) (by decide) id
theorem shl (k : SliceId) (f : Fields) : Statement (.shl k f) := some_holds rfl (by decide) (by decide) id
theorem shr (k : SliceId) (f : Fields) : Statement (.shr k f) := some_holds rfl (by decide) (by decide) id
theorem iota (k : SliceId) (f : Fields) : Statement (.iota k f) := some_holds rfl (by decide) (by decide) id
theorem rsum (k : SliceId) (f : Fields) : Statement (.rsum k f) := some_holds rfl (by decide) (by decide) id
theorem rsumsq (k : SliceId) (f : Fields) : Statement (.rsumsq k f) := some_holds rfl (by decide) (by decide) id
theorem rdot (k : SliceId) (f : Fields) : Statement (.rdot k f) := some_holds rfl (by decide) (by decide) id
theorem rsumc (k : SliceId) (f : Fields) : Statement (.rsumc k f) := some_holds rfl (by decide) (by decide) id
theorem rmax (k : SliceId) (f : Fields) : Statement (.rmax k f) := some_holds rfl (by decide) (by decide) id
theorem rmin (k : SliceId) (f : Fields) : Statement (.rmin k f) := some_holds rfl (by decide) (by decide) id
theorem rmask (k : SliceId) (f : Fields) : Statement (.rmask k f) := some_holds rfl (by decide) (by decide) id
theorem scan (k : SliceId) (f : Fields) : Statement (.scan k f) := some_holds rfl (by decide) (by decide) id
theorem move (k : SliceId) (f : Fields) : Statement (.move k f) := some_holds rfl (by decide) (by decide) id
theorem movet (k : SliceId) (f : Fields) : Statement (.movet k f) := some_holds rfl (by decide) (by decide) id
theorem fill (k : SliceId) (f : Fields) : Statement (.fill k f) := some_holds rfl (by decide) (by decide) id
theorem proof (k : SliceId) (f : Fields) : Statement (.proof k f) := some_holds rfl (by decide) (by decide) id
theorem gather (k : SliceId) (f : Fields) : Statement (.gather k f) := some_holds rfl (by decide) (by decide) id
theorem scatter (k : SliceId) (f : Fields) : Statement (.scatter k f) := some_holds rfl (by decide) (by decide) id
theorem scatterAdd (k : SliceId) (f : Fields) : Statement (.scatterAdd k f) := some_holds rfl (by decide) (by decide) id
theorem scatterMax (k : SliceId) (f : Fields) : Statement (.scatterMax k f) := some_holds rfl (by decide) (by decide) id
theorem scatterMin (k : SliceId) (f : Fields) : Statement (.scatterMin k f) := some_holds rfl (by decide) (by decide) id
theorem attn (k : SliceId) (f : Fields) : Statement (.attn k f) := some_holds rfl (by decide) (by decide) id
theorem merge (k : SliceId) (f : Fields) : Statement (.merge k f) := some_holds rfl (by decide) (by decide) id
theorem expand (k : SliceId) (f : Fields) : Statement (.expand k f) := some_holds rfl (by decide) (by decide) id
theorem attnBwd (k : SliceId) (f : Fields) : Statement (.attnBwd k f) := some_holds rfl (by decide) (by decide) id
theorem roll (k : SliceId) (f : Fields) : Statement (.roll k f) := some_holds rfl (by decide) (by decide) id
theorem take (k : SliceId) (f : Fields) : Statement (.take k f) := some_holds rfl (by decide) (by decide) id
theorem release (k : SliceId) (f : Fields) : Statement (.release k f) := some_holds rfl (by decide) (by decide) fun h => by
  simp only [Instr.wf, Bool.and_eq_true] at h
  exact h.1
theorem append (k : SliceId) (f : Fields) : Statement (.append k f) := some_holds rfl (by decide) (by decide) id
theorem fix (k : SliceId) (f : Fields) : Statement (.fix k f) := some_holds rfl (by decide) (by decide) id
theorem pageq (k : SliceId) (f : Fields) : Statement (.pageq k f) := some_holds rfl (by decide) (by decide) id
theorem instructionStart (k : SliceId) (u : Fin 6) (soft : List SoftErr) : Statement (.instructionStart k u soft) := none_holds rfl
theorem instructionComplete (k : SliceId) (u : Fin 6) : Statement (.instructionComplete k u) := none_holds rfl
theorem predicateResolve (k : SliceId) (fall : Fin 9) (into : Fin 9) : Statement (.predicateResolve k fall into) := none_holds rfl
theorem sliceDrainDone (k : SliceId) : Statement (.sliceDrainDone k) := none_holds rfl
theorem blockTickEdge : Statement .blockTickEdge := none_holds rfl
theorem tickInEdge : Statement .tickInEdge := none_holds rfl
theorem flywheelEdge : Statement .flywheelEdge := none_holds rfl
theorem heldEdge (k : SliceId) : Statement (.heldEdge k) := none_holds rfl
theorem timesyncEdge : Statement .timesyncEdge := none_holds rfl
theorem slewStep : Statement .slewStep := none_holds rfl
theorem timedBeatSend (k : SliceId) (stream : W12) : Statement (.timedBeatSend k stream) := none_holds rfl
theorem timedBeatArrive (b : TimedBeat) : Statement (.timedBeatArrive b) := none_holds rfl
theorem beatLost (k : SliceId) (stream : W12) (slot : W32) : Statement (.beatLost k stream slot) := none_holds rfl
theorem skidRelease (k : SliceId) (stream : W12) : Statement (.skidRelease k stream) := none_holds rfl
theorem waitTimeout (k : SliceId) : Statement (.waitTimeout k) := none_holds rfl
theorem waitForScan : Statement .waitForScan := none_holds rfl
theorem trayFixDone (ctx : BitVec 15) (layer : BitVec 6) : Statement (.trayFixDone ctx layer) := none_holds rfl
theorem fixWaitTimeout (k : SliceId) : Statement (.fixWaitTimeout k) := none_holds rfl
theorem trayParkDone (ctx : BitVec 15) (layer : BitVec 6) : Statement (.trayParkDone ctx layer) := none_holds rfl
theorem trayRestoreDone (ctx : BitVec 15) (layer : Reads (BitVec 6)) : Statement (.trayRestoreDone ctx layer) := none_holds rfl
theorem fadeStepStart (pool : Fin 8) : Statement (.fadeStepStart pool) := none_holds rfl
theorem fadeStepRecord (ctx : BitVec 15) : Statement (.fadeStepRecord ctx) := none_holds rfl
theorem fadeStepWrite (ctx : BitVec 15) : Statement (.fadeStepWrite ctx) := none_holds rfl
theorem fadeStepFinish (ctx : BitVec 15) : Statement (.fadeStepFinish ctx) := none_holds rfl
theorem kvCloseFinish (ctx : BitVec 15) : Statement (.kvCloseFinish ctx) := none_holds rfl
theorem kvHintUnpark (src : W12) (ctx : BitVec 15) : Statement (.kvHintUnpark src ctx) := none_holds rfl
theorem kvHintKeep (src : W12) (ctx : BitVec 15) : Statement (.kvHintKeep src ctx) := none_holds rfl
theorem reelHeaderArrive (port : Bool) (hdr : List Byte) : Statement (.reelHeaderArrive port hdr) := none_holds rfl
theorem reelForwardStart (port : Bool) : Statement (.reelForwardStart port) := none_holds rfl
theorem reelLandingDone (port : Bool) (payload : List Byte) : Statement (.reelLandingDone port payload) := none_holds rfl
theorem reelHoldExpire (port : Bool) : Statement (.reelHoldExpire port) := none_holds rfl
theorem landingWaitExpire (port : Bool) : Statement (.landingWaitExpire port) := none_holds rfl
theorem takeTimeout (k : SliceId) : Statement (.takeTimeout k) := none_holds rfl
theorem reelLinkDown (port : Bool) : Statement (.reelLinkDown port) := none_holds rfl
theorem reelLinkUp (port : Bool) : Statement (.reelLinkUp port) := none_holds rfl
theorem reelAbortMarker (port : Bool) : Statement (.reelAbortMarker port) := none_holds rfl
theorem apertureWrite (p : Fin 16) (b : SpBeat) : Statement (.apertureWrite p b) := none_holds rfl
theorem apertureRead (p : Fin 16) (b : SpBeat) : Statement (.apertureRead p b) := none_holds rfl
theorem sportUp (p : Fin 16) : Statement (.sportUp p) := none_holds rfl
theorem sportDown (p : Fin 16) : Statement (.sportDown p) := none_holds rfl
theorem mportResponse (r : MResp) : Statement (.mportResponse r) := none_holds rfl
theorem translationWalkDone (domain : W12) (va : Reads (BitVec 56)) : Statement (.translationWalkDone domain va) := none_holds rfl
theorem tlbInvalRange (src : W12) (domain : W12) (pages : W32) : Statement (.tlbInvalRange src domain pages) := none_holds rfl
theorem tlbInvalWhole (src : W12) (domain : W12) : Statement (.tlbInvalWhole src domain) := none_holds rfl
theorem tlbInvalAll (src : W12) : Statement (.tlbInvalAll src) := none_holds rfl
theorem tlbInvalDone : Statement .tlbInvalDone := none_holds rfl
theorem domSel (src : W12) (data : W64) : Statement (.domSel src data) := none_holds rfl
theorem domCommit (src : W12) : Statement (.domCommit src) := none_holds rfl
theorem domCommitDone : Statement .domCommitDone := none_holds rfl
theorem secCfgOwner (src : W12) (data : W64) : Statement (.secCfgOwner src data) := none_holds rfl
theorem secUnlockGo (src : W12) (scope : Byte) : Statement (.secUnlockGo src scope) := none_holds rfl
theorem semTryAcquire (src : W12) (sem : Byte) : Statement (.semTryAcquire src sem) := none_holds rfl
theorem semRelease (src : W12) (sem : Byte) : Statement (.semRelease src sem) := none_holds rfl
theorem semForceRelease (src : W12) (sem : Byte) : Statement (.semForceRelease src sem) := none_holds rfl
theorem mbDoorbell (src : W12) (ch : Channel) : Statement (.mbDoorbell src ch) := none_holds rfl
theorem mbCplPop (src : W12) (ch : Channel) : Statement (.mbCplPop src ch) := none_holds rfl
theorem mailboxRequestStart : Statement .mailboxRequestStart := none_holds rfl
theorem commandTimeout (ch : Channel) : Statement (.commandTimeout ch) := none_holds rfl
theorem csSpill (src : W12) (data : W64) : Statement (.csSpill src data) := none_holds rfl
theorem csRd (src : W12) (data : W64) : Statement (.csRd src data) := none_holds rfl
theorem cringPtrRd (src : W12) (k : SliceId) (rd : W16) : Statement (.cringPtrRd src k rd) := none_holds rfl
theorem irqStatusClear (src : W12) (mask : BitVec 9) : Statement (.irqStatusClear src mask) := none_holds rfl
theorem registerReadClear (a : RegAcc) : Statement (.registerReadClear a) := none_holds rfl
theorem registerWrite (a : RegAcc) (data : W64) : Statement (.registerWrite a data) := none_holds rfl
theorem ping (ch : Channel) : Statement (.ping ch) := none_holds rfl
theorem getFeatures (ch : Channel) : Statement (.getFeatures ch) := none_holds rfl
theorem loadLibrary (ch : Channel) : Statement (.loadLibrary ch) := none_holds rfl
theorem loadProgram (ch : Channel) : Statement (.loadProgram ch) := none_holds rfl
theorem verify (ch : Channel) : Statement (.verify ch) := none_holds rfl
theorem arm (ch : Channel) : Statement (.arm ch) := none_holds rfl
theorem start (ch : Channel) : Statement (.start ch) := none_holds rfl
theorem stopBath (ch : Channel) : Statement (.stopBath ch) := none_holds rfl
theorem sliceService (ch : Channel) : Statement (.sliceService ch) := none_holds rfl
theorem migrate (ch : Channel) : Statement (.migrate ch) := none_holds rfl
theorem migrateDrainTimeout (ch : Channel) (unacked : W32) : Statement (.migrateDrainTimeout ch unacked) := none_holds rfl
theorem migrateCopyDone (ch : Channel) : Statement (.migrateCopyDone ch) := none_holds rfl
theorem setSetting (ch : Channel) (retries : BitVec 4) : Statement (.setSetting ch retries) := none_holds rfl
theorem getSetting (ch : Channel) : Statement (.getSetting ch) := none_holds rfl
theorem kvPoolConfig (ch : Channel) : Statement (.kvPoolConfig ch) := none_holds rfl
theorem kvSeqOpen (ch : Channel) : Statement (.kvSeqOpen ch) := none_holds rfl
theorem kvSeqClose (ch : Channel) : Statement (.kvSeqClose ch) := none_holds rfl
theorem kvSeqQuery (ch : Channel) : Statement (.kvSeqQuery ch) := none_holds rfl
theorem patchBracket (ch : Channel) : Statement (.patchBracket ch) := none_holds rfl
theorem readContactSheet (ch : Channel) : Statement (.readContactSheet ch) := none_holds rfl
theorem dumpSlice (ch : Channel) : Statement (.dumpSlice ch) := none_holds rfl
theorem setCut (ch : Channel) : Statement (.setCut ch) := none_holds rfl
theorem powerCap (ch : Channel) (retries : BitVec 4) : Statement (.powerCap ch retries) := none_holds rfl
theorem thermalParams (ch : Channel) (retries : BitVec 4) : Statement (.thermalParams ch retries) := none_holds rfl
theorem fwStage (ch : Channel) (retries : BitVec 4) : Statement (.fwStage ch retries) := none_holds rfl
theorem fwActivate (ch : Channel) (retries : BitVec 4) : Statement (.fwActivate ch retries) := none_holds rfl
theorem fwCommit (ch : Channel) (retries : BitVec 4) : Statement (.fwCommit ch retries) := none_holds rfl
theorem fwRollback (ch : Channel) (retries : BitVec 4) : Statement (.fwRollback ch retries) := none_holds rfl
theorem getCert (ch : Channel) : Statement (.getCert ch) := none_holds rfl
theorem attest (ch : Channel) : Statement (.attest ch) := none_holds rfl
theorem scrubStatus (ch : Channel) : Statement (.scrubStatus ch) := none_holds rfl
theorem repair (ch : Channel) (retries : BitVec 4) : Statement (.repair ch retries) := none_holds rfl
theorem timesync (ch : Channel) : Statement (.timesync ch) := none_holds rfl
theorem fwBoot : Statement .fwBoot := none_holds rfl
theorem watchdogExpiry : Statement .watchdogExpiry := none_holds rfl
theorem sliceEntryCheck (k : SliceId) (bad : Option W12) : Statement (.sliceEntryCheck k bad) := none_holds rfl
theorem wakeAdmit : Statement .wakeAdmit := none_holds rfl
theorem cfgScrubPass (single : List CfgErr) (double : List CfgErr) (late : Bool) : Statement (.cfgScrubPass single double late) := none_holds rfl
theorem spareCopyDone (col : Fin 32) (retries : Reads (BitVec 4)) : Statement (.spareCopyDone col retries) := none_holds rfl
theorem emulPatrolPass (ces : List EmulErr) (ues : PatrolErrs) : Statement (.emulPatrolPass ces ues) := none_holds rfl
theorem emulThermalSample (temps : List (BitVec 10)) : Statement (.emulThermalSample temps) := none_holds rfl
theorem emulHaltReport (col : Fin 32) : Statement (.emulHaltReport col) := none_holds rfl
theorem emulTrainingDone (failed : W32) (lanes : List (BitVec 4)) (mapOk : Bool) : Statement (.emulTrainingDone failed lanes mapOk) := none_holds rfl
theorem emulInitDone : Statement .emulInitDone := none_holds rfl
theorem powerSample (quads : List W32) (hub : W32) (emul : W32) : Statement (.powerSample quads hub emul) := none_holds rfl
theorem capWindowClose : Statement .capWindowClose := none_holds rfl
theorem powerEvaluation : Statement .powerEvaluation := none_holds rfl
theorem thermalEvaluation : Statement .thermalEvaluation := none_holds rfl
theorem logicSensorSample (temps : List (BitVec 10)) (hub : BitVec 10) : Statement (.logicSensorSample temps hub) := none_holds rfl
theorem emulLimitStep : Statement .emulLimitStep := none_holds rfl
theorem arrayClockGate (k : SliceId) : Statement (.arrayClockGate k) := none_holds rfl
theorem dvfsAck : Statement .dvfsAck := none_holds rfl
theorem dvfsSwitch : Statement .dvfsSwitch := none_holds rfl
theorem dvfsTimeout : Statement .dvfsTimeout := none_holds rfl
theorem supplyWarn : Statement .supplyWarn := none_holds rfl
theorem clampEnd : Statement .clampEnd := none_holds rfl
theorem enumAssign (src : W12) (data : W64) (enumIn : Bool) : Statement (.enumAssign src data enumIn) := none_holds rfl
theorem resetAssert : Statement .resetAssert := none_holds rfl
theorem resetRelease : Statement .resetRelease := none_holds rfl
theorem pllLock (lockUs : W16) : Statement (.pllLock lockUs) := none_holds rfl
theorem pllLockTimeout : Statement .pllLockTimeout := none_holds rfl
theorem zeroingDone : Statement .zeroingDone := none_holds rfl
theorem romBootDone : Statement .romBootDone := none_holds rfl
theorem testInstructionLoad (wir : BitVec 3) : Statement (.testInstructionLoad wir) := none_holds rfl
theorem regulatorSettled : Statement .regulatorSettled := none_holds rfl
theorem supplyWarnDeasserted : Statement .supplyWarnDeasserted := none_holds rfl
theorem sportCreditReturn (p : Fin 16) (vc : Fin 4) : Statement (.sportCreditReturn p vc) := none_holds rfl
theorem reelCreditReturn (port : Bool) (n : BitVec 5) : Statement (.reelCreditReturn port n) := none_holds rfl
theorem inboundVc2Beat (p : Fin 16) : Statement (.inboundVc2Beat p) := none_holds rfl
theorem ijtagInstrumentAccess (inst : BitVec 3) : Statement (.ijtagInstrumentAccess inst) := none_holds rfl
theorem wrstnAssert : Statement .wrstnAssert := none_holds rfl

end Sys2Proof.Laws.Opcode
end

