-- ==== Sys2Proof/Tests/Slice0.lean ====
section
/-! SUPPORT. The model's own tests: for every clause of a statement that has premises, a state and operands that meet them together;
an ill-formed command for each check of Instr.wf; values that the specification works out. -/

open Sys2Proof Sys2Proof.Machine
namespace Sys2Proof.Tests
set_option Elab.async false
/-- the state a step leads to -/
def after (o : Host.Outcome State Fault Refusal) : State :=
  match o with
  | .next t => t
  | _ => State.reset
/-- slice 0 running at now = 1000 -/
def live : State := { State.reset with tb := { State.reset.tb with now := 1000, running := true }, fw := { State.reset.fw with running := true }, start := { State.reset.start with phase := .ready } }
def sl0 : Slice := { Slice.reset with state := .running, seq := { Seq.reset with pc := 3, cnt := #v[7, 0xFFFFFFFF, 3, 4, 5, 6, 7, 8], cmp := #v[true, false, true, false] } }
def run : State := live.setSl 0 sl0
def tileF : Fields := ⟨1, 2050, 2048, 2049, 0xFFF, 0, false, false, BitVec.ofNat 56 (11 * 2 ^ 51 + 0xFFF * 2 ^ 39)⟩
def tiles0 : Mem := Mem.writeLe (Mem.writeLe [] 0 4 0x817F0201) 16384 4 0x80018101
def sl1 : Slice := { sl0 with tiles := tiles0 }
def run1 : State := live.setSl 0 sl1
def qe : Entry := ⟨0, 0x20, tileF, 3, none, none, 0, ⟨.tile 2, .tile 0, .tile 1, .none, .none, none, none, []⟩, none, none, [],
  [.tile 0, .tile 1], [.tile 2], none, 0, .queued⟩
/-- one queued entry -/
def queued : State := run1.setSl 0 { sl1 with flight := [qe] }
def smallT : Tensor := ⟨3, false, 0, 0, 4096, 0, .int8, false, false, 0, [⟨4, 1⟩], none, none, none, false, 0⟩
def qeT : Entry := { qe with opds := ⟨.tensor smallT, .tensor smallT, .tensor smallT, .none, .none, none, none, []⟩ }
def queuedT : State := run1.setSl 0 { sl1 with flight := [qeT] }
def okOf (s : State) (op : Nat) (f : Fields) : IssueOk := (s.issueCheck 0 op f false).toOption.getD ⟨qe.opds, none, none, []⟩
/-- barrier version -/
def barF : Fields := { tileF with barrier := true }
def full : State := run1.setSl 0 { sl1 with flight := (List.replicate 16 { qe with reads := [], writes := [], key := 99 }) }
def openCmp : State := run1.setSl 0 { sl1 with seq := { sl1.seq with cmpOpen := #v[false, false, true, false] } }
def rmaskF : Fields := { tileF with imm := BitVec.ofNat 56 (11 * 2 ^ 51 + 0xFFF * 2 ^ 39 + 2^34 + 2^33) }
/-- INT8 tensor destination with mismatched count -/
def descs : Mem := Mem.writeLe (Mem.writeLe (Mem.writeLe (Mem.writeLe [] 0x10 4 0x3F) 0x14 2 (11 + 2^14)) 0x19 1 1) 0x40 4 7
def badF : Fields := { tileF with dst := 0 }
def badS : State := run1.setSl 0 { sl1 with desc := Mem.writeLe (Mem.writeLe descs 0x44 4 1) 0x20 8 0 , flight := [{ qe with op := 0x60, reads := [], writes := [], key := 9 }]}
/-- running entry -/
def r0 : Running := ⟨1, 1, [], [Counts.zero, Counts.zero], [], some true, 0, 0, List.replicate 32 3, 7, Pend.none⟩
def re : Entry := { qe with cmpW := some 2, phase := .running r0 }
def re1 : Entry := { re with fields := { tileF with crec := 1 } }
def tag0 : MTag := ⟨0, 0, 0, ⟨4096, 0, 0, 0, 0, 0⟩⟩
def running : State := run1.setSl 0 { sl1 with flight := [re, { qe with key := 5 }] }
def runningTag : State := { running with ports := { running.ports with tags := [tag0] } }
/-- an access that waits for a tag -/
def tagQ : MTag := ⟨0, 2, 9, ⟨8192, 0, 0, 0, 0, 0⟩⟩
def runningWait : State := { runningTag with ports := { runningTag.ports with waits := [tagQ] } }
/-- a SCATTER_ADD with a read-modify-write still to do -/
def rRmw : Running := { r0 with pend := ⟨[⟨0, 0, 0, [0], [(.store, 4096)], 3⟩], [], [], 0, []⟩ }
def reRmw : Entry := { re with op := 0x82, phase := .running rRmw, opds := qeT.opds }
def runningRmw : State := run1.setSl 0 { sl1 with flight := [reRmw] }
def runningRec : State := run1.setSl 0 { sl1 with flight := [re1], cring := ⟨1024, 16, false, 0, 5, 4, 0⟩ }
def runningFull : State := run1.setSl 0 { sl1 with flight := [re1], cring := ⟨1024, 16, false, 0, 20, 4, 9⟩ }
def wf0 : WaitFields := ⟨5, 0, 0, true, true, 1, 2⟩
def wf1 : WaitFields := ⟨5, 0, 0, false, false, 0, 0⟩
def w0 : WaitRec := ⟨.acquire 5, 10, 900, wf0, 3, none⟩
def w1 : WaitRec := ⟨.acquire 5, 10, 900, wf1, 3, none⟩
def w2 : WaitRec := ⟨.acquire 5, 10, 9000, wf0, 3, none⟩
def waiting (w : WaitRec) : State := (run.setSl 0 { sl0 with seq := { sl0.seq with wait := some w } }).modSem 5 fun _ => ⟨true, 1, 7, false, false, [0, 3], 1⟩
def cyc : State :=
  let s := { live with tb := { live.tb with now := 200000 } }
  let s := s.setSl 0 { sl0 with seq := { sl0.seq with wait := some { w2 with kind := .acquire 6, deadline := 900000 } } }
  let s := s.setSl 1 { sl0 with seq := { sl0.seq with wait := some { w2 with startNs := 11, deadline := 900000 } } }
  let s := s.modSem 5 fun _ => ⟨true, 1, 0, false, false, [1], 1⟩
  s.modSem 6 fun _ => ⟨true, 1, 1, false, false, [0], 1⟩
def pw : PredWait := ⟨⟨9, 4, 2, true, 1, false⟩, 3⟩
def pw' : PredWait := ⟨⟨9, 4, 2, true, 0, false⟩, 3⟩
def preds (p : PredWait) : State := run.setSl 0 { sl0 with seq := { sl0.seq with pred := some p } }
def predOpen : State := run.setSl 0 { sl0 with seq := { sl0.seq with pred := some pw, cmpOpen := #v[false, true, false, false] } }
def setS (s : State) (id : Nat) (v : W64) : State := { s with settings := (id, v) :: s.settings.filter (·.1 != id) }
def tk : State := { live with tick := { live.tick with active := true, period := 250, next := 750, last := 500, count := 2 } }
def tkInt : State := setS tk 0x0102 0
def tkExt : State := setS { tk with tick := { tk.tick with last := 490, period := 200 } } 0x0102 1
def tkExtOld : State := setS { tk with tick := { tk.tick with last := 500, count := 1 } , tb := { tk.tb with now := 5000 }} 0x0102 1
def tkFly : State := { tkExtOld with tick := { tkExtOld.tick with flywheel := true } }
def tkOff : State := { tk with tick := { tk.tick with active := false } }
def ctl : MeterCtl := ⟨3, 2, true, 5, .int8⟩
def x0 : Slice := { sl0 with seq := { sl0.seq with tickWait := true }, slots := (Vector.replicate 8 ⟨none, 0, false, false⟩).set 3 ⟨none, 0x40400000, true, false⟩ }
def fe : State := tkInt.setSl 0 x0
def fePub : State := tkInt.setSl 0 { x0 with slots := x0.slots.set 3 ⟨some ctl, 0x40400000, true, false⟩, bracket := true }
def ovr : State := tkInt.setSl 0 { x0 with flight := [re] }
def overH : State := setS ovr 0x0106 1
def held : State := tkInt.setSl 0 { x0 with held := true, heldNs := 600 }
def ts1 : State := { live with tb := { live.tb with lastCap := some 100 } }
def ts2 : State := { live with tb := { live.tb with lastCap := some 0, slewRemain := 5 } }
def ts3 : State := { live with tb := { live.tb with running := false, slewRemain := -5 } }
def dr : Drain := ⟨5, .faulted, 0x0401⟩
def drain : State := live.setSl 0 { sl0 with state := .draining, drain := some dr }
def strO : TimedStream := ⟨7, false, false, 1, false, 10, 4, 100, 512, 512⟩
def strO2 : TimedStream := ⟨7, false, true, 1, false, 10, 4, 100, 512, 512⟩
def strI : TimedStream := ⟨8, true, false, 1, false, 10, 4, 100, 1024, 512⟩
def prog (l : List TimedStream) : Program := ⟨10, [], [], [], [], l, 0, 1000, 0, 0, ⟨0, 16, false, 0, 0, 0, 0⟩, 0, 0, false, []⟩
def str (l : List TimedStream) : State := tkInt.setSl 0 { sl0 with prog0 := some (prog l), store := Mem.writeLe [] 512 3 0x030201, timed := { sl0.timed with done := [(8, 1)] } }
def str2 : State := { str [strI] with tick := { tkInt.tick with next := 5000000, period := 5000000 } }
def beat (ph : BitVec 2) (cy : W32) : TimedBeat := ⟨true, 1, 8, ph, cy, [1,2,3]⟩
def skB : SkidBeat := ⟨8, 2, 50, [9, 9]⟩
def skid : State := str2.mod 0 fun x => { x with timed := { x.timed with skid := [skB] } }
def skB2 : SkidBeat := ⟨8, 3, 54, [7]⟩
def skid2 : State := str2.mod 0 fun x => { x with timed := { x.timed with skid := [skB2, skB] } }
def node : State := { live with node := ⟨5, true, false⟩ }
def sm (m : Sem) : State := node.modSem 3 fun _ => m
def tlb1 : TlbEntry := ⟨4, 0x10000, 16, 0, false, true, true, true, 0, 0⟩
def tlb2 : TlbEntry := ⟨6, 0x10000, 16, 0, false, true, true, true, 0, 0⟩
def inv : State := { node with xl := { node.xl with invals := [.range 4 0x10000 1, .all], hub := { node.xl.hub with tlb := [tlb1, tlb2] } } }.setSl 0 { sl0 with micro := [tlb1, tlb2] }
/-- with an access of the range unanswered -/
def invFly : State := { inv with ports := { inv.ports with tags := [{ tag0 with acc := ⟨4096, 0, 0, 0, 4, 65536 + 64⟩ }] } }
def inv16 : State := { node with xl := { node.xl with invals := List.replicate 16 .all } }
def dm : Domain := ⟨4, true, 2^20, 0, true, false⟩
def dom : State := { inv with xl := { inv.xl with hub := { inv.xl.hub with domains := [dm] }, domSel := 4, domRoot := 5, domCtl := 9, commit := none } }
def dom2 : State := { dom with xl := { dom.xl with commit := some 4 } }
def dom3 : State := { dom2 with ports := invFly.ports }
/-- page tables in external memory: root at 2^20 -/
def walkS : State := { dom with ext := Mem.writeLe (Mem.writeLe [] 0x100000 8 (0x101000 * 4 + 1)) 0x101000 8 (0x40000000 * 4 + 0x33), xl := { dom.xl with hub := { dom.xl.hub with tlb := [] } } }
def own : State := { node with sec := { node.sec with owner := 9, ownerValid := true } }
/-- a domain whose table lies in a column in HALT -/
def walkH : State :=
  { walkS with xl := { walkS.xl with hub := { walkS.xl.hub with domains := [{ dm with target := 1, root := 4096 }] } } }.modCol 0 fun x =>
    { x with state := .live, thermal := 3, haltNs := some 5 }
def walkRH := walkFrom (walkH.waitingRun (walkH.mkRun 0 0 false false)).env walkH.emul walkH.ext 4 0x1234 4 true 4096 []
def walkR := walkFrom (walkS.waitingRun (walkS.mkRun 0 0 false false)).env walkS.emul walkS.ext 4 0x1234 4 false (2^20) []
def leafOf : WalkEnd → TlbEntry | .leaf t => t | _ => tlb1
def ports : State := { node with start := { node.start with done := [0,1,2,3] }, ports := { node.ports with spUp := 5, aperture := 1 } }
def ports2 : State := ports.modSport 2 fun x => { x with out1 := 4, out3 := 255, in1 := 16 }
def apr : State := (ports.modSport 0 fun x => { x with out1 := 4, out3 := 0, in1 := 16, in3 := 3 }).setSl 0 { sl0 with store := Mem.writeLe [] 512 4 0x1234 }
def apx : State := { apr with ports := { apr.ports with aperture := 0 } }
def hb (vc : BitVec 2) (op : Nat) : SpBeat := ⟨vc, BitVec.ofNat 64 (op + 77 * 16 + 2 * 2 ^ 24), [1,2,3]⟩
def spill : State := { node with sheet := { node.sheet with spillOn := true, log2 := 12, base := 32, wr := 5000, rd := 5 } }
def acc (off : W16) : RegAcc := ⟨9, 3, off⟩
def cnts : State := { node with tick := { node.tick with glitch := 3, missed := 4, overexp := 0xFFFF, slips := 2 } }
def req : List Byte := [1,0,0,0, 5,0,0,0] ++ List.replicate 56 0
def badReq : List Byte := [1,0,7,0, 5,0,0,0] ++ List.replicate 56 0
def mbx : State := node.modChan 3 fun x => { x with reqs := [req], cpls := [[1,2,3]] }
def mbx2 : State := node.modChan 3 fun x => { x with reqs := [badReq], cpls := [[1,2,3]], held := [] }
def mbx3 : State := node.modChan 3 fun x => { x with reqs := List.replicate 64 req, cpls := [[1,2,3]], held := [req] }
/-- a request with a reserved byte set, and one for a context that another command holds -/
def reqF : List Byte := [1,0,0,0, 5,0,0,0] ++ List.replicate 48 0 ++ [1,0,0,0, 0,0,0,0]
def kvOpen7 : State := { node with kv := { node.kv with ctxs := [⟨7, false, 4, 3, [1], 1000, 3, 0, 0, false, false, [], []⟩] } }
def mbxF : State := node.modChan 3 fun x => { x with reqs := [reqF] }
def reqH : List Byte := [15,0,0,0, 5,0,0,0] ++ List.replicate 8 0 ++ [7,0] ++ List.replicate 46 0
def cHold : Cmd := ⟨5, [15,0,0,0, 9,0,0,0] ++ List.replicate 8 0 ++ [7,0] ++ List.replicate 46 0, 10, 900000, true, false, [.context 7], 0, 0, 0, 0, 0, none⟩
def mbxH : State := (kvOpen7.modChan 3 fun x => { x with reqs := [reqH] }).modChan 5 fun x => { x with running := some cHold }
def popOf (s : State) : State :=
  ({ s with fw := { s.fw with rrLast := 3 } }).modChan 3 fun x => { x with reqs := x.reqs.drop 1, reqRd := x.reqRd + 1 }
def newOf (s : State) (m : List Byte) : Cmd :=
  ⟨3, m, s.now, s.now + (if fieldOf m 8 4 = 0 then s.setting 0x0701 else fieldOf m 8 4) * 1000000, false, false, [], 0, 0, 0, 0, 0, none⟩
def cmdOf (code : Nat) (l : List Byte) (dl : Nat) : Cmd := ⟨3, leBytes 2 code ++ [0,0,5,0,0,0] ++ List.replicate 8 0 ++ l ++ List.replicate (48 - l.length) 0, 10, dl, false, false, [], 0, 0, 0, 0, 0, none⟩
def ser (m : Cmd) : State := node.modChan 3 fun x => { x with running := some m }
def notReady : State := { node with start := { node.start with phase := .boot }}
def rowB (k : Nat) : TokenRow := ⟨List.replicate 4 k, []⟩
def tt (k : Nat) : TrayToken := ⟨rowB k, ⟨[], []⟩⟩
def poolX : KvPool := ⟨1, false, 1, .int8, false, 4, 0, 0, 0x100000, 2^16, 1, 1, 4, [(0, 0x100000)]⟩
def poolE : KvPool := ⟨2, true, 1, .int8, false, 4, 1, 2^20, 0, 0, 1, 1, 4, [(0, 0)]⟩
def lay (len : Nat) (t : TrayState) (tk : List TrayToken) : KvLayer := ⟨len, 64, t, false, tk, 0, 0, 0, []⟩
def ctx1 (ls : List KvLayer) : KvCtx := ⟨7, false, 4, 3, [1], 1000, 3, 0, 0, false, false, ls, []⟩
def ctx2 (ls : List KvLayer) : KvCtx := { ctx1 ls with chain := [2] }
def grp (pool : Nat) (ix : Nat) (f : List FrameState) : KvGroup := ⟨7, 0, ix, pool, 0, ix, f⟩
def kvS (c : KvCtx) (gs : List KvGroup) : State := { node with kv := { node.kv with ctxs := [c], pools := [poolX, poolE], groups := gs } }
def layFix := lay 32 .fixing (List.replicate 16 (tt 9))
def layFull := lay 32 .resident []
def zX := poolX.z
def fixS : State := kvS (ctx1 [layFix, lay 0 .resident []]) [grp 1 0 [.live], grp 1 1 [.writing]]
def fixE : State := kvS (ctx2 [layFix, lay 0 .resident []]) [grp 2 0 [.live], grp 2 1 [.writing]]
def parkS : State := kvS (ctx1 [lay 20 .parking (List.replicate 4 (tt 5)), lay 0 .resident []]) [grp 1 0 [.live]]
def restS : State := kvS (ctx1 [lay 20 .restoring (List.replicate 4 (tt 5)), lay 0 .parked []]) [grp 1 0 [.live]]
def layPark : KvLayer := lay 20 .parking (List.replicate 4 (tt 5))
def layRest : KvLayer := lay 20 .restoring (List.replicate 4 (tt 5))
/-- a granule of the park slot is uncorrectable -/
def restP : State := { restS with ectl := { restS.ectl with poisoned := [0x6C000000] } }
/-- the park slot's column is in HALT -/
def parkH : State := parkS.modCol 0 fun x => { x with state := .live, thermal := 3, haltNs := some 5 }
def kvRun : State := (fixS.setSl 0 { sl1 with flight := [{ re with op := 0x8A, key := 1 }] })
def fixW (d : Option Nat) : State := { kvRun with kv := { kvRun.kv with waiters := [⟨.group, 0, 1, 7, 0, 900, d⟩] } }
def kvR : Running := r0
def kvRe : Entry := { re with op := 0x8A, key := 1 }
def wG (d : Option Nat) : KvWaiter := ⟨.group, 0, 1, 7, 0, 900, d⟩
def closing : State := kvS { ctx1 [layFull] with closing := true } [grp 1 0 [.live], grp 1 1 [.live]]
def fadeErr : State := { kvS (ctx1 [layFull]) [grp 1 0 [.live], grp 1 1 [.live]] with kv := { (kvS (ctx1 [layFull]) [grp 1 0 [.live], grp 1 1 [.live]]).kv with errFades := [⟨7, 16, none⟩] } }
def fadeVic : State := let s := kvS (ctx1 [lay 800 .resident []]) ((List.range 16).map fun i => grp 1 i (List.replicate zX .live)); { s with kv := { s.kv with press := [[1]], pools := [{ poolX with high := 100000 }] } , settings := (0x0203, 1) :: s.settings.filter (·.1 != 0x203)}
def fade (st : Nat) : FadeStep := ⟨7, 16, none, 2, st, [32, 8], []⟩
def fadeS (st : Nat) (pins : List KvPin) : State :=
  let s := kvS { ctx1 [lay (if st = 1 then 32 else 16) .resident [], lay 8 .resident (List.replicate 8 (tt 4))] with pins := pins, fadeGen := if st = 1 then 0 else 1 } [grp 1 0 [.live], grp 1 1 [if st = 4 then .draining else .live], { grp 1 3 [FrameState.reserved] with ctx := 9 }]
  { s with kv := { s.kv with fades := [fade st] } }
def pinW (g : Nat) (w : Bool) : KvPin := ⟨0, 1, g, w, 0⟩
-- reel
def dim (n : Nat) : Dim := ⟨n, 1⟩
def landT : Tensor := ⟨3, false, 0, 0, 4096, 0, .int8, false, false, 0, [dim 4, dim 1, dim 16], none, none, none, false, 0⟩
def stp (k : Nat) : StepRec := ⟨k, none, false, 0, 0, 0, 0⟩
def rnd : Round := ⟨true, false, true, 1, 4, 2, 0, 1, 9, 0, 2, 64, 0, 16, 0, 16, 0, false, false, [], some landT, none, [], 64, 0, [], [stp 1, stp 2, stp 3], false, false⟩
def payl : List Byte := (List.range 64).map (BitVec.ofNat 8)
def hdrBytes : List Byte :=
  [0x31, 0x4C, 0x45, 0x52, 1, 0, 1, 0, 4, 0, 1, 0, 2, 0, 0, 0, 9, 0, 0, 0, 0, 0, 0, 0, 16, 0, 0, 0, 11, 0, 4, 0, 64, 0, 0, 0, 0, 0, 0, 0,
    77, 0, 0, 0, 0, 0, 0, 0, 0x8C, 0xCE, 0x0E, 0x10, 0, 0, 0, 0, 0, 0, 0, 0]
def hgood : List Byte := hdrBytes ++ leBytes 4 1736953933
def hbad := hgood.take 62 ++ [1, 2]
def reelS : State := { node.setSl 0 sl0 with reel := { node.reel with portA := ⟨true, 5, none, [], 0, 0, 0, false, []⟩, portB := ⟨true, 5, none, [], 0, 0, 0, false, []⟩, rounds := #v[Round.reset, rnd, Round.reset, Round.reset] } }
def reelC : State := { reelS with reel := { reelS.reel with rounds := Vector.replicate 4 Round.reset } }
def blk (st : BlkState) : Blk := ⟨0, 1, hgood, st, 2, 0⟩
def reelB (st : BlkState) : State := { reelS with reel := { reelS.reel with blocks := [blk st], nextId := 1 } }
def oF : OutItem := ⟨true, 0, 1, 2⟩
def oBig : OutItem := ⟨true, 0, 1, 200⟩
def oI : OutItem := ⟨false, 0, 1, 2⟩
def reelQ (o : OutItem) : State := (reelB .passing).modRport 0 fun x => { x with queue := [o] }
def reelCur (o : OutItem) (c : Nat) : State := (reelB .passing).modRport 0 fun x => { x with cur := some o, credits := c }
/-- a block of which only the header has come, and whose forward has begun -/
def reelHalf : State :=
  let s := { reelS with reel := { reelS.reel with blocks := [{ blk .passing with got := 1 }], nextId := 1 } }
  s.modRport 0 fun x => { x with cur := some oF }
def relF : Fields := ⟨0, 0xFFF, 0xFFF, 0xFFF, 0xFFF, 0, true, false, BitVec.ofNat 56 (2 ^ 54 + 2 * 2 ^ 51)⟩
def takeE : Entry := { re with op := 0xA1, key := 4, args := [2, 990], fields := { tileF with imm := BitVec.ofNat 56 (2^54) } }
def takeE' : Entry := { takeE with args := [2, 9900] }
def takes (e : Entry) : State := reelS.setSl 0 { sl0 with flight := [e] }
def cold : State := live.modCol 1 fun x => { x with state := .live, thermal := 0 }
def hotC (n : Nat) : State := live.modCol 1 fun x => { x with state := .live, thermal := n, haltNs := if n = 3 then some 5 else none, reportNs := 0, hotNs := if n = 2 then some 0 else none }
def late (s : State) : State := { s with tb := { s.tb with now := 20000000 } }
def temps (h : Int) : List (BitVec 10) := (List.range 128).map fun i => BitVec.ofInt 10 (h + (i : Nat) % 4)
def spC : SpareCopy := ⟨1, 3, 3, 14⟩
def sparing (th : Nat) : State := setS (live.modCol 1 fun x => { x with state := .sparing, thermal := th, copy := some spC }) 0x0403 0
def pat : State := { cold with ectl := { cold.ectl with initDone := true, passNs := 10 } }
def patP : State := { pat with ectl := { pat.ectl with poisoned := [2 ^ 31 + 64] } }
def patH : State := { pat.modCol 1 (fun x => {x with thermal := 3}) with fw := pat.fw }
def err1 : EmulErr := ⟨1, 0x1234⟩
def train : State := { cold with start := { cold.start with phase := .training }, ectl := { cold.ectl with retired := 4, cols := cold.ectl.cols.map fun (c : Column) => { c with map := [(0, 1, 14)] } } }
def ini : State := { cold with ectl := { cold.ectl with trained := true }, emul := [(3, 5)] }
def iniV : State := { ini with start := { ini.start with phase := .verify } }
def pw0 : State := { live with power := { live.power with winStart := 0, energy := 100, nextCap := 300, op := 2 } }
def pwLate (en : Nat) : State := late { live with power := { live.power with winStart := 0, energy := en, windowMs := 10, op := 2 } , tb := { live.tb with now := 20000000 }}
def hotQ (halt : BitVec 4) (op : Nat) : State := { live with power := { live.power with qhalt := halt, op := op } }
def emLim (hotNs cool : Option Nat) (lim : Nat) (th : Nat) : State := let s := late (hotC th); { s with power := { s.power with emulHotNs := hotNs, emulCoolNs := cool, emulLimit := lim, op := 3 } }
def clampS (n : Option Nat) (w : Bool) : State := { live with pins := { live.pins with supplyWarn := w }, power := { live.power with clamp := true, clampUntil := n, op := 3, target := 3 } }
def noPh : State := { live with start := { live.start with phase := .verify } }
def raise : State := { live with power := { live.power with op := 0 } }
def lower : State := { live with power := { live.power with op := 4, capW := 1, energy := 10^15 } }
def dv (d : Dvfs) : State := { live with ports := { live.ports with dvfs := d }, power := { live.power with op := 1 } , tick := { live.tick with count := 3, last := 900 }}
def low : State := { live with pins := { live.pins with resetLow := true } }
def badStrap : State := { low with chip := { low.chip with strapOrder := 0xFF } }
def unl : State := { live with sec := { live.sec with unlocked := true }, pins := { live.pins with wir := 6 } }
def lockS : State := { State.reset with ports := { State.reset.ports with spUp := 5 } }
def zeroS : State := { lockS with start := { lockS.start with done := [0,1,2,3] } }
def stopS : State := { lockS with start := { lockS.start with phase := .stoppedLock } }
def bootS : State := { State.reset with start := { State.reset.start with phase := .boot } }
def bootI : State := { bootS with ectl := { bootS.ectl with initDone := true } }
def bootF : State := { bootS with fw := { bootS.fw with boot := { bootS.fw.boot with preferred := 2 } } }
def bootX : State := { bootS with fw := { bootS.fw with slotA := { bootS.fw.slotA with factory := false } } }
def rdy (s : State) : State := { s with start := { s.start with phase := .ready } }
def dog (n : Nat) : State := { live with fw := { live.fw with dogUntil := some n } }
def cldS : State := live.setSl 0 { Slice.reset with store := [(5, 6)], imem := [(1, 2)] }
def wk (l : List Nat) (a : List Nat) : State := { run with power := { run.power with wakes := l, admits := a } }
def scrubbed : State := { live with scrub := { live.scrub with startNs := some 9000 } }
def cfgE (f : W12) : CfgErr := ⟨0, f⟩
/-- a command in progress on channel 3, with bytes from offset 16 on -/
def cmd (code : Nat) (fs : List (Nat × Nat × Nat)) : Cmd :=
  let b := leBytes 2 code ++ [0,0,5,0,0,0] ++ List.replicate 56 0
  ⟨3, fs.foldl (fun (b : List Byte) f => b.take f.1 ++ leBytes f.2.1 f.2.2 ++ b.drop (f.1 + f.2.1)) b, 10, 5000, false, false, [], 0, 0, 0, 0, 0, none⟩
def serv (s : State) (m : Cmd) : State := s.modChan 3 fun x => { x with running := some m }
def kvC : State := kvS (ctx1 [layFull]) [grp 1 0 [.live], grp 1 1 [.live]]
def commitd (s : State) : State := s
def prg : Program := prog []
def rdyS : State := live.setSl 0 { sl0 with state := .ready, prog1 := some { prg with brackets := [(3, 7)] }, loaded := true }
def runL : State := live.setSl 0 { sl0 with state := .running, prog1 := some prg, loaded := true, prog0 := some prg, armed := true }
def armdS : State := live.setSl 0 { sl0 with state := .ready, prog0 := some { prg with length := 4 }, armed := true }
def svcS (st : SliceState) : State := live.setSl 0 { sl0 with state := st, store := [(5, 1)] }
def offS (r : Bool) : State := live.setSl 0 { Slice.reset with state := .off, retired := r }

def dvA : Dvfs := ⟨false, 0, some 3, 900, none, false, false⟩
def dvB : Dvfs := ⟨true, 3, none, 900, none, false, false⟩
def dvC : Dvfs := ⟨true, 3, none, 900, some 950, true, true⟩
def dvD : Dvfs := ⟨true, 3, none, 900, some 950, false, true⟩
def dvE : Dvfs := ⟨true, 3, none, 900, some 890, true, false⟩
/-- a lowering below what an armed program needs, and a change due while a timed stream is armed -/
def dvLow : State :=
  let s := dv { dvD with op := 0, therm := false }
  (s.setSl 0 { sl0 with state := .ready, armed := true, prog0 := some { prg with mhz := 1000000 } })
def dvTimed : State := (dv dvD).setSl 0 { sl0 with armed := true, prog0 := some (prog [strI]) }
def badT : IssueFault := ((badS.issueFault 0 0x20 badF false).getD ⟨0, 0, 0⟩)
def w3 : WaitRec := { w2 with kind := .acquire 6, deadline := 900000 }
def w4 : WaitRec := { w2 with startNs := 11, deadline := 900000 }
def w5 : WaitRec := { w3 with deadline := 200000 }
def cycDue : State := cyc.setSl 0 { sl0 with seq := { sl0.seq with wait := some w5 } }
def smA : State := sm ⟨true, 2, 9, false, false, [], 4⟩
def smB : State := sm ⟨true, 1, 9, false, false, [], 4⟩
def accLoad : RegAcc := ⟨9, 2, 8⟩
def accOdd : RegAcc := ⟨9, 3, 9⟩
def accOther : RegAcc := ⟨8, 3, 0xD068⟩
def badEnds : Ends := ((mbx2.headerBad 3 badReq).getD ⟨0, 0, 0, []⟩)
def ctxClosing : KvCtx := { ctx1 [layFull] with closing := true }
def fixNoFw : State := { fixS with fw := State.reset.fw }
def liveNoTb : State := { live with tb := State.reset.tb }
def tickInfo : SettingInfo := ⟨0x0101, 1000000, 1000, 100000000, false⟩
def prgBr : Program := { prg with brackets := [(3, 7)] }
def chipIdle (low run : Bool) : State := { live with pins := { live.pins with resetLow := low }, tb := { live.tb with running := run } }
/-- the host has just written register 3 of the inactive bracket -/
def patched : State := run.setSl 0 { sl0 with hostNs := [(3, 1000)] }
def queueS : State := { run with pending := [.nop 0, .ret 0] }
def deadS : State := chipIdle true true
def cmpS (l : Vector Bool 4) : State := run.setSl 0 { sl0 with seq := { sl0.seq with cmpOpen := l } }
def callF (p s : Bool) : CallFields := ⟨9, 4, 2, p, 1, s⟩
def frame0 : CallFrame := ⟨7, some 3, 8, 9⟩
def stackS : State := run.setSl 0 { sl0 with seq := { sl0.seq with stack := [frame0] } }
def grp0 : Group := ⟨5, false, 0⟩
def grpS : State := run.setSl 0 { sl0 with desc := Mem.writeLe descs 0x44 4 1, seq := { sl0.seq with group := some grp0 }, flight := [{ qe with group := some 5, reads := [], writes := [], key := 9 }] }
def semS (m : Sem) : State := run1.modSem 5 fun _ => m
def semFree : Sem := ⟨false, 0, 0, false, true, [], 3⟩
def semOwn : Sem := ⟨true, 1, 0, false, false, [], 3⟩
def semOther : Sem := ⟨true, 1, 7, false, false, [3], 3⟩
def semTwo : Sem := ⟨true, 1, 0, false, false, [1, 2], 3⟩
def semWait : State := (semS semTwo).setSl 1 { sl1 with seq := { sl1.seq with wait := some w1 } }
def wfQ : WaitFields := ⟨5, 0x3F, 1000, true, false, 1, 2⟩
def grpBusy : State := run.setSl 0 { sl0 with desc := Mem.writeLe descs 0x44 4 1, seq := { sl0.seq with group := some grp0 }, flight := [{ re with key := 4 }, { qe with group := some 5, reads := [], writes := [], key := 9 }] }
def ch : Channel := 3
def c1 := cmd 1 [(16, 8, 77)]
def c1b := cmd 1 [(30, 1, 7), (40, 1, 1)]
def c2 := cmd 2 []
def c1D := cmd 0x1D []
def cGet (id src : Nat) := cmd 0x0C [(16, 2, id), (18, 1, src)]
def cQ (n mode l : Nat) := cmd 0x10 [(16, 2, n), (20, 1, mode), (24, 8, 4096), (36, 2, l)]
def cCs := cmd 0x12 [(16, 4, 5), (20, 1, 1), (24, 8, 4096)]
def cCert (n : Nat) := cmd 0x1B [(16, 1, n), (24, 8, 4096), (32, 4, 4096)]
def cAtt := cmd 0x1C [(24, 8, 4096), (32, 4, 64), (40, 8, 8192), (48, 4, 64)]
def attLost : State := let s := serv live cAtt; { s with sec := { s.sec with resync := true } }
def logged : State := (live.log 5 6 7 false [1,2,3]).log 5 6 7 false [1,2,3]
def spillS : State := { logged with sheet := { logged.sheet with spillOn := true } }
def pc (n : Nat) (r : BitVec 4) : Instr × Nat × List (Nat × Nat) := ((mailCommands ch r)[n]?).getD (.ping ch, 0x01, [(16, 8)])
def cSet (id per v : Nat) := cmd 0x0B [(16, 2, id), (18, 1, per), (24, 8, v)]
def sm1 := cSet 0x0999 0 5
def sm2 := cSet 0x0101 0 5
def sm3 := cSet 0x0102 0 1
def sm4 := cSet 0x0301 0 10000
def sm5 := cSet 0x0101 0 5000
def sm6 := cSet 0x0101 1 5000
def i1 : SettingInfo := ⟨0x0101, 1000000, 1000, 100000000, false⟩
def i2 : SettingInfo := ⟨0x0102, 0, 0, 1, false⟩
def i3 : SettingInfo := ⟨0x0301, 100000000, 10000, 1000000000, false⟩
def warnS : State := { live with pins := { live.pins with supplyWarn := true } }
def trialS : State := { live with fw := { live.fw with state := .trial } }
def cPow (c w : Nat) := cmd 0x15 [(16, 2, c), (20, 4, w)]
def cTh (f : Nat) := cmd 0x16 [(16, 1, 1), (17, 1, f), (18, 2, 300), (20, 4, 60), (24, 4, 2000), (28, 2, 5)]
def cTs (mode off : Nat) := cmd 0x1F [(16, 2, 7), (18, 1, mode), (24, 8, off)]
def capd (s : State) : State := { s with tb := { s.tb with lastCap := some 100, seq := 7, capture := 900 } }
def cLoad (k : Nat) := cmd 0x04 [(16, 1, k), (24, 8, 4096), (32, 4, 512)]
def cVer (k f : Nat) := cmd 0x05 [(16, 1, k), (20, 1, f), (24, 8, 4096), (32, 4, 512), (40, 8, 8192)]
def cArm (k f : Nat) := cmd 0x06 [(16, 4, k), (20, 1, f)]
def rj (s : State) : Reject := match (⟨s, 0, 0, s.ext.readN 4096 512, false⟩ : Verify).verdict with | .error r => r | .ok _ => ⟨0,0,0,0⟩
def swS : State := run.setSl 0 { sl0 with switchReq := true }
def en0 (s : State) : Ends := (s.armRefused [0] false).getD ⟨0,0,0,[]⟩
def cLib (n : Nat) := cmd 0x03 [(16, 1, n), (24, 8, 4096), (32, 4, 512)]
def cStart (k e : Nat) := cmd 0x07 [(16, 4, k), (24, 8, e)]
def cStop (k f : Nat) := cmd 0x08 [(16, 4, k), (20, 1, f)]
def cSvc (k f : Nat) := cmd 0x09 [(16, 1, k), (17, 1, f)]
def cPat (bank n : Nat) := cmd 0x11 [(16, 1, 0), (17, 1, 1), (18, 1, n), (19, 1, bank), (20, 1, 5), (21, 1, 6), (24, 8, 77), (32, 8, 99)]
def cCut (f i fr : Nat) := cmd 0x14 [(16, 1, 0), (17, 1, f), (18, 2, 3), (20, 4, i), (24, 8, fr)]
def cDump (p len : Nat) := cmd 0x13 [(16, 1, 0), (20, 4, p), (24, 8, 4096), (32, 4, len)]
def cRep (a j : Nat) := cmd 0x1E [(16, 1, a), (17, 1, j), (18, 1, 1), (19, 1, 2)]
def armR : State := run.setSl 0 { sl0 with armed := true, prog0 := some { prg with length := 8 }, seq := { sl0.seq with frame := 4 }, libcache := [(3, List.replicate 64 0)] }
def cMig (a b : Nat) := cmd 0x0A [(16, 1, a), (17, 1, b)]
def g3 : Migration := ⟨0, 1, 3, 5, 0, 900⟩
def cMg : Cmd := { cMig 0 1 with begun := true, migr := some g3 }
def freeB (s : State) : State := (s.setSl 1 { Slice.reset with state := .ready }).modSem 5 fun _ => ⟨true, 1, 0, false, false, [], 1⟩
def tagW : State := { freeB armR with ports := { armR.ports with tags := [{ tag0 with acc := ⟨4096, 1, 0, 0, 0, 0⟩ }] } }
def cPool (n emul fmt w del : Nat) (rest : List (Nat × Nat × Nat)) := cmd 0x0D ([(16, 1, n), (17, 1, emul), (18, 1, 1), (19, 1, fmt), (22, 2, w), (60, 1, del)] ++ rest)
def ext1 := cPool 3 0 (fmtId .int8) 64 0 [(32, 8, 0x10000000), (40, 8, 0x10000), (48, 4, 256), (56, 4, 1)]
def emu1 := cPool 3 1 (fmtId .int8) 64 0 [(24, 4, 2), (28, 4, 2), (48, 4, 256), (56, 4, 1)]
def kvN : State := { kvC with kv := { kvC.kv with groups := [], ctxs := [] } }
def kvE : State := kvN.modCol 1 fun x => { x with state := .live }
def pl (s : State) (m : Cmd) : List (Nat × Nat) := (s.poolPlaced (m.pool .int8)).getD []
def cOpen (n : Nat) := cmd 0x0E [(16, 2, n), (18, 2, 4), (20, 1, 2), (21, 1, 3), (22, 1, 3), (24, 4, 0xFFFFFF01), (28, 4, 100)]
def cOpenB (n : Nat) := cmd 0x0E [(16, 2, n), (18, 2, 4), (20, 1, 2), (21, 1, 3), (22, 1, 3), (24, 4, 0xFFFFFF05), (28, 4, 100)]
def cls (s : State) (m : Cmd) (p : KvPool) : Placed := (s.placeLayers p (m.f 16 2) (m.f 28 4) (s.newLevel2 (m.f 18 2) (m.f 16 2)) (m.f 20 1)).getD ([], [])
def cClose (n : Nat) := cmd 0x0F [(16, 2, n)]
def clsing : State := kvS { ctx1 [layFull] with closing := true } []
def cStg (off f len : Nat) := cmd 0x17 [(16, 4, off), (20, 1, f), (24, 8, 8192), (32, 4, len)]
def stg : State := { live with fw := { live.fw with slot := 1, slotB := ⟨4096, List.replicate 4096 1, false, false⟩ } }
def wrn (s : State) : State := { s with pins := { s.pins with supplyWarn := true } }
def cAct (n : Nat) := cmd 0x18 [(16, 1, n)]
def cRb := cmd 0x1A []
def cCm := cmd 0x19 []
def stB : State := { stg with fw := { stg.fw with slotB := ⟨4096, [], true, false⟩ } }
def stT : State := { stg with fw := { stg.fw with state := .trial } }
def stgTrial : State := { stg with fw := { stg.fw with state := .trial } }
def tkExtNew : State := setS { tk with tick := { tk.tick with last := 900, period := 5000 } } 0x0102 1
def strOff : State := (str [strO]).mod 0 fun x => { x with state := .faulted }
def smallChip (s : State) : State := { s with chip := { s.chip with model := .v8 } }
def fwOff : State := { mbx with fw := { mbx.fw with running := false } }
def scanIdle : State := { live with tb := { live.tb with now := 200000 } }
def ext2 : Cmd := cPool 3 0 (fmtId .int8) 64 0 [(32, 8, 0x100000), (40, 8, 0x10000), (48, 4, 256), (56, 4, 1)]
def fields2 : Fields := { tileF with dst := 2051, srcA := 2053, srcB := 2052 }
def startT : Run := (((runMembers (queuedT.waitingRun (queuedT.mkRun 0 4 false false)) 1 [qeT]).2.map (·.2)).head?.getD (queuedT.mkRun 0 4 false false))
def fctx (s : State) : KvCtx := s.kv.ctxs.headD (ctx1 [])
def flay (c : KvCtx) (i : Nat) : KvLayer := c.layers.getD i layFull
/-! ### A program image, a library image and a firmware image -/

/-- The image of a program of one instruction, END: its first 92 bytes, its CRC apart. -/
def prgHead : List Byte :=
  leBytes 4 0x56504731 ++ leBytes 4 1 ++ leBytes 4 128 ++ leBytes 4 1 ++ List.replicate 10 0 ++ leBytes 2 700 ++ leBytes 4 1000 ++
    List.replicate 48 0 ++ leBytes 2 16 ++ List.replicate 10 0
def prgTail : List Byte := List.replicate 32 0 ++ leBytes 16 (7 * 2 ^ 120)
def prgImage : List Byte := prgHead ++ leBytes 4 2998477116 ++ prgTail
def withImage (s : State) (img : List Byte) : State := { s with ext := Mem.writeN s.ext 4096 img }
def cLoadI : Cmd := cmd 0x04 [(16, 1, 0), (24, 8, 4096), (32, 4, 144)]
def cVerI (f : Nat) : Cmd := cmd 0x05 [(16, 1, 0), (20, 1, f), (24, 8, 4096), (32, 4, 144), (40, 8, 8192)]
def loadS : State := withImage (serv run cLoadI) prgImage
def verS (f : Nat) : State := withImage (serv run (cVerI f)) prgImage
def migS : State :=
  (serv (run.setSl 0 { sl0 with armed := true, prog0 := some { prg with image := prgImage } }) (cMig 0 1)).setSl 1
    { Slice.reset with state := .ready }
/-- A signature block over a body: usage, length and digest as R528 lays them out. -/
def sigOver (usage len : Nat) : List Byte :=
  leBytes 4 0x53494731 ++ leBytes 2 1 ++ leBytes 1 usage ++ leBytes 1 0 ++ leBytes 4 len ++ leBytes 4 0 ++ List.replicate 240 0
def libBody (op : Nat) : List Byte :=
  leBytes 4 0x564C4231 ++ leBytes 4 1 ++ leBytes 4 1 ++ leBytes 4 0 ++ leBytes 2 9 ++ leBytes 2 0 ++ leBytes 4 28 ++ leBytes 4 1 ++
    leBytes 16 (op * 2 ^ 120)
def libImage (op : Nat) : List Byte := libBody op ++ sigOver 2 44
def cLibI : Cmd := cmd 0x03 [(16, 1, 0), (24, 8, 4096), (32, 4, 300)]
def libS (op : Nat) : State := withImage (serv run cLibI) (libImage op)
def fwImage : List Byte := sigOver 1 0
def cFwI : Cmd := cmd 0x17 [(16, 4, 0), (20, 1, 3), (24, 8, 4096), (32, 4, 256)]
def fwS : State := withImage (serv stg cFwI) fwImage
def lockedS : State := { node with sec := { node.sec with lockedOut := true } }

/-! ### Ill-formed commands: one for each check of Instr.wf -/

theorem test_wf_add : (Instr.add 0 tileF).wf = true := by decide
theorem test_illformed_operandField : (Instr.add 0 { tileF with srcA := 2080 }).wf = false := by decide
theorem test_illformed_destination : (Instr.roll 0 { tileF with dst := 0xFFE }).wf = false := by decide
theorem test_illformed_crec : (Instr.move 0 { tileF with crec := 3 }).wf = false := by decide
theorem test_illformed_waitTimeout : (Instr.waitAcquire 0 { wf1 with toMode := true }).wf = false := by decide
theorem test_illformed_waitComparators : (Instr.waitDrain 0 { wf0 with cmpAband := 1 }).wf = false := by decide
theorem test_illformed_ccmpi : (Instr.ccmpi 0 0 0 6 false 0).wf = false := by decide
theorem test_illformed_ccmpc : (Instr.ccmpc 0 0 0 7 true 0).wf = false := by decide
theorem test_illformed_release : (Instr.release 0 { tileF with barrier := false }).wf = false := by decide
theorem test_illformed_reelHeader : (Instr.reelHeaderArrive false (List.replicate 63 0)).wf = false := by decide
theorem test_illformed_aperture : (Instr.apertureWrite 0 (hb 2 1)).wf = false := by decide
theorem test_illformed_apertureRead : (Instr.apertureRead 0 (hb 0 1)).wf = false := by decide
theorem test_illformed_mportKind : (Instr.mportResponse ⟨.spill, 3, 0⟩).wf = false := by decide
theorem test_illformed_mportStatus : (Instr.mportResponse ⟨.spill, 0, 3⟩).wf = false := by decide
theorem test_illformed_powerSample : (Instr.powerSample [1, 2, 3] 0 0).wf = false := by decide
theorem test_illformed_logicSensors : (Instr.logicSensorSample (List.replicate 15 0) 0).wf = false := by decide
theorem test_illformed_emulSensors : (Instr.emulThermalSample (List.replicate 127 0)).wf = false := by decide +kernel
theorem test_illformed_reelCredits : (Instr.reelCreditReturn false 26).wf = false := by decide

/-! ### Instruction words, written out bit by bit (R113, R116, R156) -/

/-- CADDC C5, C2: opcode 0x12 at 127:120, N at 119:117, the source counter at 116:114. -/
theorem test_word_caddc : decodeWord 3 (0b00010010_101_010#14 ++ 0#114) = some (.caddc 3 5 2) := by decide +kernel

/-- SIGNAL 0x9C: the semaphore at 119:112. -/
theorem test_word_signal : decodeWord 0 (0b00000110_10011100#16 ++ 0#112) = some (.signal 0 0x9C) := by decide +kernel

/-- ADD T2 = T0 + T1: FUNC 1, the four operands of 12 bits from 111 down, BARRIER at 61, the immediate at 55:0. -/
theorem test_word_add : decodeWord 0
    (0b00100000_00000001_100000000010_100000000000_100000000001_111111111111_00_1_0_0000#72 ++ 11#56) =
      some (.add 0 ⟨1, 2050, 2048, 2049, 0xFFF, 0, true, false, 11⟩) := by decide +kernel

/-- A reserved bit, a reserved opcode, and RELEASE without BARRIER spell nothing. -/
theorem test_word_refused : decodeWord 0 1#128 = none ∧ decodeWord 0 (0x1B#8 ++ 0#120) = none ∧
    decodeWord 0 (0xA2#8 ++ 0#8 ++ 0xFFF#12 ++ 0xFFF#12 ++ 0xFFF#12 ++ 0xFFF#12 ++ 0#64) = none := by decide +kernel

theorem witness_wordsRoundTrip :
    encodeWord (.add 0 tileF) = some (encodeFields 0x20 tileF) ∧ (Instr.add 0 tileF).wf = true ∧
      (Instr.add 0 tileF).engine? = some (0, 0x20, tileF) ∧ decodeWord 0 (encodeFields 0x20 tileF) = some (.add 0 tileF) := by
  decide +kernel

/-! ### The specification's worked values -/

/-- FP32 1 + 2^-24 is a tie, to even; 1 + 3 · 2^-24 rounds to an even mantissa; (2 - 2^-24) · 2^127 overflows. -/
theorem test_encode_fp32 :
    encodeElem .fp32 (.fin false (2 ^ 24 + 1) (-24)) = (0x3F800000, false) ∧
      encodeElem .fp32 (.fin false (2 ^ 24 + 3) (-24)) = (0x3F800002, false) ∧
      encodeElem .fp32 (.fin false (2 ^ 25 - 1) 103) = (0x7F800000, false) := by decide +kernel

/-- FP16 2,051 and 65,510; BF16 1 + 3 · 2^-8. -/
theorem test_encode_half :
    encodeElem .fp16 (.fin false 2051 0) = (0x6802, false) ∧ encodeElem .fp16 (.fin false 65510 0) = (0x7BFF, false) ∧
      encodeElem .bf16 (.fin false 259 (-8)) = (0x3F82, false) := by decide +kernel

/-- MXFP8 E4M3 464 and 465, E5M2 61,440. -/
theorem test_encode_fp8 :
    encodeElem .mxE4m3 (.fin false 464 0) = (0x7E, false) ∧ encodeElem .mxE4m3 (.fin false 465 0) = (0x7E, true) ∧
      encodeElem .mxE5m2 (.fin false 61440 0) = (0x7C, false) := by decide +kernel

/-- MXFP4 E2M1 2.5 and 7, E3M2 30. -/
theorem test_encode_small :
    encodeElem .mxE2m1 (.fin false 5 (-1)) = (0x4, false) ∧ encodeElem .mxE2m1 (.fin false 7 0) = (0x7, true) ∧
      encodeElem .mxE3m2 (.fin false 30 0) = (0x1F, true) := by decide +kernel

/-- CWRAP takes its immediate from a counter that has reached it, and leaves one below it (R157). -/
theorem test_cwrap :
    ((after (exec (.cwrap 0 0 7) run)).sl 0).seq.cnt[0] = 0 ∧ ((after (exec (.cwrap 0 0 8) run)).sl 0).seq.cnt[0] = 7 := by
  decide +kernel

/-- CADD wraps (R157). -/
theorem test_cadd_wraps : ((after (exec (.cadd 0 1 2) run)).sl 0).seq.cnt[1] = 1 := by decide +kernel

/-- A signed comparison tells a negative counter from a large one (R156). -/
theorem test_ccmpi_signed :
    ((after (exec (.ccmpi 0 3 1 2 true 0) run)).sl 0).seq.cmp[3] = true ∧
      ((after (exec (.ccmpi 0 3 1 2 false 0) run)).sl 0).seq.cmp[3] = false := by decide +kernel

/-- The queue is served from its front. -/
theorem test_queue : (after (step queueS)).pending = [.ret 0] := by decide +kernel

/-! ### CRCs that the premises name -/

theorem crc_hdrBytes : crc32 hdrBytes = 1736953933 := by
  simp [crc32, crcByte, crcBit, hdrBytes]

theorem crc_low : ([0, 1, 2, 3, 4, 5, 6, 7, 8, 9, 10, 11, 12, 13, 14, 15, 16, 17, 18, 19, 20, 21, 22, 23, 24, 25, 26, 27, 28, 29, 30, 31] : List Byte).foldl
    crcByte 0xFFFFFFFF#32 = 0x6ED98175#32 := by
  simp [crcByte, crcBit]

theorem crc_high : ([32, 33, 34, 35, 36, 37, 38, 39, 40, 41, 42, 43, 44, 45, 46, 47, 48, 49, 50, 51, 52, 53, 54, 55, 56, 57, 58, 59, 60, 61, 62, 63] : List Byte).foldl
    crcByte 0x6ED98175#32 = 0xEFF13173#32 := by
  simp [crcByte, crcBit]

theorem crc_payl : crc32 payl = 269405836 := by
  have h : payl = [0, 1, 2, 3, 4, 5, 6, 7, 8, 9, 10, 11, 12, 13, 14, 15, 16, 17, 18, 19, 20, 21, 22, 23, 24, 25, 26, 27, 28, 29, 30, 31] ++
    [32, 33, 34, 35, 36, 37, 38, 39, 40, 41, 42, 43, 44, 45, 46, 47, 48, 49, 50, 51, 52, 53, 54, 55, 56, 57, 58, 59, 60, 61, 62, 63] := by
    decide +kernel
  rw [crc32, h, List.foldl_append, crc_low, crc_high]
  rfl

/-! ### On the opaque constants: what Onori's fit analysis and the image checks of R529 decide (logs 3, 26) -/

theorem verdict_of_fits {v : Verify} (h : v.tickFits v.visits = true) (hh : v.header = none)
    (hr : [v.descs (v.used v.visits), v.instrs (v.outside (v.used v.visits ++ v.listed.map (·.handle))) v.visits,
      v.calls (v.outside (v.used v.visits ++ v.listed.map (·.handle))) v.visits, v.schedule].all Option.isNone = true)
    (hw : v.aliasAt v.visits = none ∧ v.tooDeep = none ∧ v.badCache v.visits = false ∧ v.crossbar = none ∧ v.cycle = false) :
    v.verdict = .ok (v.program v.visits) := by
  simp only [List.all_cons, List.all_nil, Bool.and_true, Bool.and_eq_true, Option.isNone_iff_eq_none] at hr
  obtain ⟨h1, h2, h3, h4⟩ := hr
  obtain ⟨w1, w2, w3, w4, w5⟩ := hw
  have hf : v.whole v.visits = none := by
    unfold Verify.whole
    rw [w1, w2, w3, w4, w5, h]
    rfl
  unfold Verify.verdict
  simp only [hh, h1, h2, h3, h4, hf]
  rfl

def prgBytes : List Byte :=
  [0x31, 0x47, 0x50, 0x56, 1, 0, 0, 0, 128, 0, 0, 0, 1, 0, 0, 0, 0, 0, 0, 0, 0, 0, 0, 0, 0, 0, 0xBC, 2, 0xE8, 3, 0, 0] ++
    (List.replicate 48 0 ++ ([16] ++ (List.replicate 62 0 ++ [7])))

theorem crc_zeros : (List.replicate 48 0).foldl crcByte 0x317073E7#32 = 0x2BA8E21F#32 := by
  simp [List.replicate, crcByte, crcBit]

theorem crc_zeros' : (List.replicate 62 0).foldl crcByte 0x9094B573#32 = 0xF4BF9B67#32 := by
  simp [List.replicate, crcByte, crcBit]

theorem crc_prgBytes : crc32 prgBytes = 2998477116 := by
  simp only [crc32, prgBytes, List.foldl_append]
  rw [show ([0x31, 0x47, 0x50, 0x56, 1, 0, 0, 0, 128, 0, 0, 0, 1, 0, 0, 0, 0, 0, 0, 0, 0, 0, 0, 0, 0, 0, 0xBC, 2, 0xE8, 3, 0, 0] :
    List Byte).foldl crcByte 0xFFFFFFFF#32 = 0x317073E7#32 by simp [crcByte, crcBit], crc_zeros, show [16].foldl crcByte 0x2BA8E21F#32 = 0x9094B573#32 by simp [crcByte, crcBit], crc_zeros']
  simp [crcByte, crcBit]

theorem header_of_prgImage (v : Verify) (hv : v.img = prgImage) (hf : v.s.chip.features = run.chip.features) : v.header = none := by
  obtain ⟨s, k, j, img, b⟩ := v
  subst hv
  have h : (⟨s, k, j, prgImage, b⟩ : Verify).badCrc = false := by
    have e : prgImage.take 92 ++ List.replicate 4 0 ++ prgImage.drop 96 = prgBytes := by decide +kernel
    have n : fieldOf prgImage 92 4 = 2998477116 := by decide +kernel
    simp only [Verify.badCrc, e, crc_prgBytes, Verify.h, n]
    rfl
  have h1 : (⟨s, k, j, prgImage, b⟩ : Verify).badFields = false :=
    show (⟨run, 0, 0, prgImage, false⟩ : Verify).badFields = false by decide +kernel
  have h2 : (⟨s, k, j, prgImage, b⟩ : Verify).badRegions = false :=
    show (⟨run, 0, 0, prgImage, false⟩ : Verify).badRegions = false by decide +kernel
  have h3 : (⟨s, k, j, prgImage, b⟩ : Verify).badLists = false :=
    show (⟨run, 0, 0, prgImage, false⟩ : Verify).badLists = false by decide +kernel
  have h4 : ((⟨s, k, j, prgImage, b⟩ : Verify).h 16 8 &&& (2 ^ 64 - 1 - s.chip.features) != 0 ||
      decide (0x4000 ≤ (⟨s, k, j, prgImage, b⟩ : Verify).h 24 2)) = false := by
    simp only at hf
    rw [hf]
    exact show ((⟨run, 0, 0, prgImage, false⟩ : Verify).h 16 8 &&& (2 ^ 64 - 1 - run.chip.features) != 0 ||
      decide (0x4000 ≤ (⟨run, 0, 0, prgImage, false⟩ : Verify).h 24 2)) = false by decide +kernel
  unfold Verify.header
  simp only [h, h1, h2, h3, h4]
  rfl

/-- The cycle costs of the image's frame, as its hardware has them, decide its tick fit. -/
theorem fits_of_cycles {v : Verify} (hi : v.img = prgImage) (h : Config.frameCycles prgImage ≤ 700)
    (hr : (v.visits.any fun i => i.op / 16 == 9) = false ∧ v.h 28 4 = 1000 ∧ v.h 26 2 = 700) : v.tickFits v.visits = true := by
  unfold Verify.tickFits
  rw [hr.1, hr.2.1, hr.2.2, hi]
  generalize Config.frameCycles prgImage = n at h
  exact decide_eq_true (by simp only [Bool.false_eq_true, if_false]; omega)

/-- Where the fit analysis passes the image, LOAD_PROGRAM, VERIFY with each of its flags and MIGRATE find it passed. -/
theorem witness_prgPasses (h : Config.frameCycles prgImage ≤ 700) :
    (serving loadS ch cLoadI 0x04 = true ∧ clean cLoadI [(16, 1), (24, 8), (32, 4)] = true ∧ bufferOk cLoadI 24 (cLoadI.f 32 4) = true ∧
      cLoadI.f 32 4 ≤ 2 ^ 20 ∧ loadS.isAvail (cLoadI.f 16 1) = true ∧ (loadS.sl 0).state = .running ∧ (loadS.sl 0).switchReq = false) ∧
    (∃ p, (⟨loadS, 0, 0, loadS.ext.readN 4096 144, false⟩ : Verify).verdict = .ok p ∧ p.batched = false) ∧
    (∃ p, (⟨verS 0, 0, 0, (verS 0).ext.readN 4096 144, false⟩ : Verify).verdict = .ok p) ∧
    (∃ p, (⟨verS 2, 0, 0, (verS 2).ext.readN 4096 144, false⟩ : Verify).verdict = .ok p) ∧
    (∃ p, (⟨verS 1, 0, 0, (verS 1).ext.readN 4096 144, true⟩ : Verify).verdict = .ok p) ∧
    (∃ p, (⟨migS, 1, 0, prgImage, false⟩ : Verify).verdict = .ok p) := by
  have e1 : loadS.ext.readN 4096 144 = prgImage := by decide +kernel
  have e2 : ∀ f, (verS f).ext.readN 4096 144 = prgImage := fun _ =>
    show (verS 0).ext.readN 4096 144 = prgImage by decide +kernel
  have f1 : loadS.chip.features = run.chip.features := by decide +kernel
  have f2 : ∀ f, (verS f).chip.features = run.chip.features := fun _ =>
    show (verS 0).chip.features = run.chip.features by decide +kernel
  have f3 : migS.chip.features = run.chip.features := by decide +kernel
  rw [e1, e2, e2, e2]
  refine ⟨by decide +kernel, ⟨_, verdict_of_fits (fits_of_cycles rfl h ?_) (header_of_prgImage _ rfl f1) ?_ ?_, ?_⟩,
    ⟨_, verdict_of_fits (fits_of_cycles rfl h ?_) (header_of_prgImage _ rfl (f2 0)) ?_ ?_⟩, ⟨_, verdict_of_fits (fits_of_cycles rfl h ?_) (header_of_prgImage _ rfl (f2 2)) ?_ ?_⟩,
    ⟨_, verdict_of_fits (fits_of_cycles rfl h ?_) (header_of_prgImage _ rfl (f2 1)) ?_ ?_⟩, ⟨_, verdict_of_fits (fits_of_cycles rfl h ?_) (header_of_prgImage _ rfl (f3)) ?_ ?_⟩⟩ <;>
    decide +kernel

theorem imageCheck_passes {s : State} {usage : Nat} {image : List Byte}
    (h1 : ((fieldOf (sigBlock image) 0 4 == 0x53494731 && fieldOf (sigBlock image) 4 2 == 1 && fieldOf (sigBlock image) 6 1 == usage &&
      ((List.range' 14 2).all fun i => ((sigBlock image)[i]?).getD 0 == 0) &&
      ((List.range' 160 96).all fun i => ((sigBlock image)[i]?).getD 0 == 0) && decide (256 ≤ image.length)) = true) ∧
      (fieldOf (sigBlock image) 8 4 + 256 == image.length) = true ∧
      (decide (fieldOf (sigBlock image) 7 1 < 4) && !s.chip.keyRevoked.getLsbD (fieldOf (sigBlock image) 7 1)) = true ∧
      (usage != 1 || decide (s.sec.minSvn ≤ fieldOf (sigBlock image) 12 2)) = true)
    (h4 : ((sigBlock image).drop 16).take 48 = Config.digest (image.take (image.length - 256)))
    (h5 : Config.signatureValid (fieldOf (sigBlock image) 7 1) ((sigBlock image).take 160) = true) :
    s.imageCheck usage image = none := by
  obtain ⟨a, b, c, d⟩ := h1
  unfold State.imageCheck
  simp only [a, b, c, d, h4, h5, beq_self_eq_true]
  rfl

/-- Where the digest and the signature are what the block holds, LOAD_LIBRARY finds the image right: one with a routine that returns
passes, and one with a routine that does not is rejected. -/
theorem witness_libraryPasses (op : Nat) (ho : op = 2 ∨ op = 0) (hd : Config.digest (libBody op) = List.replicate 48 0)
    (hs : Config.signatureValid 0 ((sigOver 2 44).take 160) = true) :
    serving (libS op) ch cLibI 0x03 = true ∧ (libS op).imageCheck 2 ((libS op).ext.readN 4096 300) = none ∧
      libBad (libImage op) = false ∧ (((libS op).libReject (libRoutines (libImage op))).isNone = true ↔ op = 2) := by
  rcases ho with rfl | rfl
  · have e : (libS 2).ext.readN 4096 300 = libImage 2 := by decide +kernel
    rw [e]
    refine ⟨by decide +kernel, imageCheck_passes (by decide +kernel) ?_ ?_, by decide +kernel, by decide +kernel⟩
    · rw [show (libImage 2).take ((libImage 2).length - 256) = libBody 2 by decide +kernel, hd]
      decide +kernel
    · rw [show fieldOf (sigBlock (libImage 2)) 7 1 = 0 by decide +kernel,
        show (sigBlock (libImage 2)).take 160 = (sigOver 2 44).take 160 by decide +kernel, hs]
  · have e : (libS 0).ext.readN 4096 300 = libImage 0 := by decide +kernel
    rw [e]
    refine ⟨by decide +kernel, imageCheck_passes (by decide +kernel) ?_ ?_, by decide +kernel, by decide +kernel⟩
    · rw [show (libImage 0).take ((libImage 0).length - 256) = libBody 0 by decide +kernel, hd]
      decide +kernel
    · rw [show fieldOf (sigBlock (libImage 0)) 7 1 = 0 by decide +kernel,
        show (sigBlock (libImage 0)).take 160 = (sigOver 2 44).take 160 by decide +kernel, hs]

/-- And FW_STAGE with the LAST flag finds its image right. -/
theorem witness_stagePasses (hd : Config.digest [] = List.replicate 48 0)
    (hs : Config.signatureValid 0 ((sigOver 1 0).take 160) = true) :
    serving fwS ch cFwI 0x17 = true ∧ clean cFwI [(16, 4), (20, 1), (24, 8), (32, 4)] = true ∧ fwS.fw.state = .committed ∧
      fwS.pins.supplyWarn = false ∧ fwS.imageCheck 1 (fwS.ext.readN 4096 256) = none := by
  have e : fwS.ext.readN 4096 256 = fwImage := by decide +kernel
  rw [e]
  refine ⟨by decide +kernel, by decide +kernel, by decide +kernel, by decide +kernel, imageCheck_passes (by decide +kernel) ?_ ?_⟩
  · rw [show fwImage.take (fwImage.length - 256) = [] by decide +kernel, hd]
    decide +kernel
  · rw [show fieldOf (sigBlock fwImage) 7 1 = 0 by decide +kernel,
      show (sigBlock fwImage).take 160 = (sigOver 1 0).take 160 by decide +kernel, hs]

/-! ### What the generated conjunctions leave out -/

theorem witness_parameterInstructions :
    run.takes 0 = true ∧ patched.takes 0 = true ∧ ((patched.sl 0).hostNs.any fun e => e.1 == 3 && decide (patched.now ≤ e.2 + 1)) = true := by
  decide +kernel

theorem witness_waitDrain :
    running.takes 0 = true ∧ wfQ.cmpEn = false ∧ ∃ e ∈ (running.sl 0).flight, wfQ.qmask.toNat.testBit e.unit = true := by
  decide +kernel

/-- A queued ADD of two tile registers, to the register 2. -/
theorem witness_elementwiseOnTiles :
    queued.live = true ∧ queued.clockStopped 0 = false ∧ (queued.sl 0).busy 0 = false ∧ ((queued.sl 0).queue 0).head? = some qe ∧
      qe.group = none ∧ (∀ y ∈ (queued.sl 0).flight, y.key = qe.key → y = qe) ∧
      (0x20 ≤ qe.op ∧ qe.op < 0x60 ∧ qe.op ≠ 0x2C ∧ qe.op ≠ 0x2D ∧ qe.op ≠ 0x42) ∧
      qe.opds = ⟨.tile 2, .tile 0, .tile 1, .none, .none, none, none, []⟩ ∧ fmtBits (immFmt qe.fields.imm.toNat) = 8 ∧
      Mem.wf (queued.sl 0).tiles = true := by
  and_intros <;> decide +kernel

theorem witness_ownerAndUnlock :
    (node.live = true ∧ node.node.valid = true ∧ node.sec.ownerValid = false ∧ node.sec.lockedOut = false) ∧
    (own.live = true ∧ own.node.valid = true ∧ own.sec.ownerValid = true ∧ (own.sec.owner != 8) = true ∧ (own.sec.owner != 9) = false) ∧
    (lockedS.live = true ∧ lockedS.node.valid = true ∧ lockedS.sec.ownerValid = false ∧ lockedS.sec.lockedOut = true) := by
  and_intros <;> decide +kernel

/-- Either clause on a token is met, as the signature's opaque check says (log 26). -/
theorem witness_tokens (scope : Byte) : node.tokenValid scope = true ∨ node.tokenValid scope = false := by
  cases node.tokenValid scope <;> simp

theorem witness_memoryStaysCanonical : run.memOk ∧ step run = .next { run with tb := { run.tb with now := run.tb.now + 1 } } := by
  refine ⟨?_, rfl⟩
  unfold State.memOk
  decide +kernel

/-! ### Clause by clause: the premises of each statement, met together -/

theorem witness_frontCommandRuns :
    (queueS.pending = [Instr.nop (0 : SliceId), Instr.ret (0 : SliceId)]) ∧
    (run.pending = [] ∧ run.tb.running = true ∧ run.pins.resetLow = false ∧ run.reel.blocks = [] ∧ run.reel.portA.cur = none ∧
      run.reel.portB.cur = none) ∧
    ((reelCur oBig 3).pending = [] ∧ (reelCur oBig 3).tb.running = true ∧ (reelCur oBig 3).pins.resetLow = false) ∧
    ((chipIdle true true).pending = [] ∧ ((chipIdle true true).tb.running = false ∨ (chipIdle true true).pins.resetLow = true)) := by
  and_intros <;> decide +kernel

theorem witness_deadBlockIgnoresCommands :
    ((deadS.pins.resetLow = true ∨ deadS.pins.testStopped = true)) := by
  decide +kernel

theorem witness_counterInstructions :
    (run.takes 0 = true) := by
  decide +kernel

theorem witness_comparatorInstructions :
    (run.takes 0 = true ∧ (run.sl 0).seq.cmpOpen[(0 : Fin 4)] = false ∧ 5 < 6) ∧
    ((cmpS #v[true, false, false, true]).takes 0 = true ∧ (((cmpS #v[true, false, false, true]).sl 0).seq.cmpOpen[(0 : Fin 4)] = true ∨
      ((cmpS #v[true, false, false, true]).sl 0).seq.cmpOpen[(0 : Fin 4)] = true)) := by
  and_intros <;> decide +kernel

theorem witness_nopTickwaitAndGroups :
    (run.takes 0 = true) ∧
    (grpS.takes 0 = true ∧ (grpS.sl 0).seq.group = some grp0 ∧ (bindPlain (grpS.sl 0) grp0.shape).bind = none ∧ (grpS.sl 0).groupFault
      grp0.num (bindPlain (grpS.sl 0) grp0.shape).t.count = none) ∧
    (grpBusy.takes 0 = true ∧ (grpBusy.sl 0).seq.group = some grp0 ∧ (bindPlain (grpBusy.sl 0) grp0.shape).bind = none ∧ (grpBusy.sl
      0).groupFault grp0.num (bindPlain (grpBusy.sl 0) grp0.shape).t.count = none ∧
      ({ (grpBusy.sl 0).afterIssue with seq := { (grpBusy.sl 0).afterIssue.seq with pc := (grpBusy.sl 0).seq.pc + 1, group := none }, flight := List.map (fun (e : Entry) => if e.group = some grp0.num then { e with args := [(bindPlain (grpBusy.sl 0) grp0.shape).t.count, if grp0.double = true then 1 else 0] } else e) (grpBusy.sl 0).flight }.groupReady
      grp0.num = false)) := by
  and_intros <;> decide +kernel

theorem witness_callAndReturn :
    (run.takes 0 = true ∧ ((callF false true).pred = false ∨ (run.sl 0).seq.cmpOpen[(callF false true).cmp] = false ∧ (run.sl
      0).seq.cmp[(callF false true).cmp] = (callF false true).sense)) ∧
    (run.takes 0 = true ∧ (callF true true).pred = true ∧ (run.sl 0).seq.cmpOpen[(callF true true).cmp] = false ∧ (run.sl 0).seq.cmp[(callF
      true true).cmp] ≠ (callF true true).sense) ∧
    ((cmpS #v[false, true, false, false]).takes 0 = true ∧ (callF true true).pred = true ∧ ((cmpS #v[false, true, false, false]).sl
      0).seq.cmpOpen[(callF true true).cmp] = true) ∧
    (stackS.takes 0 = true ∧ (stackS.sl 0).seq.stack = [frame0]) := by
  and_intros <;> decide +kernel

theorem witness_waitInstructions :
    (run.takes 0 = true ∧ (wf0.cmpEn = false ∨ (run.sl 0).seq.cmpOpen[wf0.cmpHeld] = false ∧ (run.sl 0).seq.cmpOpen[wf0.cmpAband] = false)
      ∧ (run.sem wf0.sem.toNat).held = false ∧ (run.sem wf0.sem.toNat).waiters = []) ∧
    (run.takes 0 = true ∧ (wf0.cmpEn = false ∨ (run.sl 0).seq.cmpOpen[wf0.cmpHeld] = false ∧ (run.sl 0).seq.cmpOpen[wf0.cmpAband] = false)
      ∧ (∀ e ∈ (run.sl 0).flight, wf0.qmask.toNat.testBit e.unit = false)) ∧
    ((semS semOwn).takes 0 = true ∧ (wf0.cmpEn = false ∨ ((semS semOwn).sl 0).seq.cmpOpen[wf0.cmpHeld] = false ∧ ((semS semOwn).sl
      0).seq.cmpOpen[wf0.cmpAband] = false) ∧ ((semS semOwn).sem wf0.sem.toNat).held = true ∧ ((semS semOwn).sem wf0.sem.toNat).kind = (1 :
      BitVec 2) ∧ BitVec.toNat ((semS semOwn).sem wf0.sem.toNat).owner = 0) ∧
    ((semS semOther).takes 0 = true ∧ (wf0.cmpEn = false ∨ ((semS semOther).sl 0).seq.cmpOpen[wf0.cmpHeld] = false ∧ ((semS semOther).sl
      0).seq.cmpOpen[wf0.cmpAband] = false) ∧ ((semS semOther).sem wf0.sem.toNat).held = true ∧ (¬(((semS semOther).sem wf0.sem.toNat).kind
      = (1 : BitVec 2) ∧ BitVec.toNat ((semS semOther).sem wf0.sem.toNat).owner = 0))) := by
  and_intros <;> decide +kernel

theorem witness_signalReleases :
    ((semS semOwn).takes 0 = true ∧ ((semS semOwn).sl 0).flight = [] ∧ ((semS semOwn).sem 5).held = true ∧ ((semS semOwn).sem 5).kind = (1
      : BitVec 2) ∧ BitVec.toNat ((semS semOwn).sem 5).owner = 0 ∧ ((semS semOwn).sem 5).waiters = []) ∧
    (running.takes 0 = true ∧ (running.sl 0).flight ≠ []) ∧
    (semWait.takes 0 = true ∧ (semWait.sl 0).flight = [] ∧ (semWait.sem 5).held = true ∧ (semWait.sem 5).kind = (1 : BitVec 2) ∧
      BitVec.toNat (semWait.sem 5).owner = 0 ∧ (semWait.sem 5).waiters = [1, 2] ∧ (semWait.sl 1).seq.wait = some w1 ∧ w1.fields.cmpEn =
      false ∧ 1 < 32 ∧ 1 ≠ 0) ∧
    ((semS semTwo).takes 0 = true ∧ ((semS semTwo).sl 0).flight = [] ∧ ((semS semTwo).sem 5).held = true ∧ ((semS semTwo).sem 5).kind = (1
      : BitVec 2) ∧ BitVec.toNat ((semS semTwo).sem 5).owner = 0 ∧ ((semS semTwo).sem 5).waiters = [1, 2] ∧ ((semS semTwo).sl 1).seq.wait =
      none ∧ 1 ≠ 0) := by
  and_intros <;> decide +kernel

theorem witness_engineInstructionsIssue :
    ((Instr.add (0 : SliceId) tileF).engine? = some ((0 : SliceId), 32, tileF) ∧ run1.takes 0 = true ∧ (run1.sl 0).stall 32 tileF
      (readsWrites (run1.sl 0) 32 tileF).1 (readsWrites (run1.sl 0) 32 tileF).2 = none ∧ run1.descBad 0 32 tileF = none ∧ ((run1.issueCheck
      0 32 tileF (if 32 < 144 then (run1.sl 0).seq.group else none).isSome).toOption = some (okOf run1 32 tileF)) ∧ (((if 32 < 144 then
      (run1.sl 0).seq.group else none).isSome || (run1.sl 0).busy (unitOf 32) || !((run1.sl 0).queue (unitOf 32)).isEmpty) = false) ∧ 0 =
      unitOf 32) ∧
    ((Instr.rmask (0 : SliceId) rmaskF).engine? = some ((0 : SliceId), 102, rmaskF) ∧ run1.takes 0 = true ∧ (run1.sl 0).stall 102 rmaskF
      (readsWrites (run1.sl 0) 102 rmaskF).1 (readsWrites (run1.sl 0) 102 rmaskF).2 = none ∧ run1.descBad 0 102 rmaskF = none ∧
      ((run1.issueCheck 0 102 rmaskF (if 102 < 144 then (run1.sl 0).seq.group else none).isSome).toOption = some (okOf run1 102 rmaskF)) ∧
      (((if 102 < 144 then (run1.sl 0).seq.group else none).isSome || (run1.sl 0).busy (unitOf 102) || !((run1.sl 0).queue (unitOf
      102)).isEmpty) = false) ∧ 0 = unitOf 102) ∧
    ((Instr.add (0 : SliceId) fields2).engine? = some ((0 : SliceId), 32, fields2) ∧ running.takes 0 = true ∧ (running.sl 0).stall 32
      fields2 (readsWrites (running.sl 0) 32 fields2).1 (readsWrites (running.sl 0) 32 fields2).2 = none ∧ running.descBad 0 32 fields2 =
      none ∧ ((running.issueCheck 0 32 fields2 (if 32 < 144 then (running.sl 0).seq.group else none).isSome).toOption = some (okOf running
      32 fields2)) ∧ (((if 32 < 144 then (running.sl 0).seq.group else none).isSome || (running.sl 0).busy (unitOf 32) || !((running.sl
      0).queue (unitOf 32)).isEmpty) = true)) := by
  and_intros <;> decide +kernel

theorem witness_interlockHolds :
    ((Instr.add (0 : SliceId) tileF).engine? = some ((0 : SliceId), 32, tileF) ∧ queued.takes 0 = true ∧ qe ∈ (queued.sl 0).flight ∧ ((32 <
      144 ∧ ∃ (g : Machine.Group), (queued.sl 0).seq.group = some g ∧ qe.group = some g.num) → False) ∧ ((∃ r ∈ qe.writes, r ∈ (readsWrites
      (queued.sl 0) 32 tileF).1 ∨ r ∈ (readsWrites (queued.sl 0) 32 tileF).2) ∨ ∃ r ∈ qe.reads, r ∈ (readsWrites (queued.sl 0) 32 tileF).2)) := by
  and_intros <;> decide +kernel

theorem witness_issueStalls :
    ((Instr.add (0 : SliceId) tileF).engine? = some ((0 : SliceId), 32, tileF) ∧ full.takes 0 = true ∧ tileF.barrier = false ∧ (((full.sl
      0).flight.any fun (x : Entry) => x.blocks (Option.map (fun (x : Machine.Group) => x.num) (if 32 < 144 then (full.sl 0).seq.group else
      none)) (readsWrites (full.sl 0) 32 tileF).1 (readsWrites (full.sl 0) 32 tileF).2) = false) ∧
      ((match cmpTarget 32 tileF with | some c => (full.sl 0).seq.cmpOpen[c] | none => false) = false) ∧ [16, 16, 8, 8, 4, 8][unitOf
      32]?.getD 0 ≤ ((full.sl 0).queue (unitOf 32)).length) ∧
    ((Instr.add (0 : SliceId) barF).engine? = some ((0 : SliceId), 32, barF) ∧ full.takes 0 = true ∧ barF.barrier = true ∧ (full.sl
      0).flight ≠ []) := by
  and_intros <;> decide +kernel

theorem witness_issueFaultAborts :
    ((Instr.add (0 : SliceId) badF).engine? = some ((0 : SliceId), 32, badF) ∧ badS.takes 0 = true ∧ (badS.sl 0).stall 32 badF (readsWrites
      (badS.sl 0) 32 badF).1 (readsWrites (badS.sl 0) 32 badF).2 = none ∧ badS.descBad 0 32 badF = none ∧ (badS.issueFault 0 32 badF (if 32
      < 144 then (badS.sl 0).seq.group else none).isSome = some badT)) := by
  and_intros <;> decide +kernel

theorem witness_unitStartsHead :
    (queuedT.live = true ∧ queuedT.clockStopped 0 = false ∧ 0 < 4 ∧ (queuedT.sl 0).busy 0 = false ∧ ((queuedT.sl 0).queue 0).head? = some
      qeT ∧ qeT.group = none ∧ queuedT.attnReady qeT = true ∧ (∀ y ∈ (queuedT.sl 0).flight, y.key = qeT.key → y
      = qeT) ∧ (runMembers (queuedT.waitingRun (queuedT.mkRun 0 (ownCount qeT.op qeT.opds) false false)) qeT.units [qeT]).2 = [(qeT,
      startT)] ∧ startT.fault = none ∧ startT.kvErrs = []) := by
  and_intros <;> decide +kernel

theorem witness_unitCompletes :
    (running.live = true ∧ running.clockStopped 0 = false ∧ (List.find? (fun (y : Entry) => y.unit == 0 && y.run?.isSome) (running.sl
      0).flight = some re) ∧ re.run? = some r0 ∧ re.op < 160 ∧ running.tagged 0 re.key = false ∧ r0.status = 0 ∧ r0.feeds = [] ∧
      re.fields.crec ≠ (1 : BitVec 2) ∧ re.fields.crec ≠ (2 : BitVec 2) ∧ re.fields.trace = false ∧ re.group = none ∧ r0.pend = Pend.none ∧
      running.keptBytes ≤ 50331648 ∧ (running.sl 0).seq.wait = none ∧ running.kv.waiters = [] ∧
      (∀ q ∈ running.kv.ctxs, ∀ p ∈ q.pins, ¬(p.slice = 0 ∧ p.key = re.key))) ∧
    (runningRmw.live = true ∧ runningRmw.clockStopped 0 = false ∧ (List.find? (fun (y : Entry) => y.unit == 2 && y.run?.isSome)
      (runningRmw.sl 0).flight = some reRmw) ∧ reRmw.run? = some rRmw ∧ reRmw.op < 160 ∧ runningRmw.tagged 0 reRmw.key = false ∧
      rRmw.status = 0 ∧ rRmw.pend.rmws ≠ [] ∧ (∀ w ∈ rRmw.pend.rmws, w.bad runningRmw.ectl.poisoned = false) ∧
      (runningRmw.sl 0).seq.wait = none ∧ runningRmw.kv.waiters = [] ∧ runningRmw.kv.ctxs = []) ∧
    (runningTag.live = true ∧ runningTag.clockStopped 0 = false ∧ (List.find? (fun (y : Entry) => y.unit == 0 && y.run?.isSome)
      (runningTag.sl 0).flight = some re) ∧ re.run? = some r0 ∧ re.op < 160 ∧ runningTag.tagged 0 re.key = true ∧ r0.status = 0) := by
  and_intros <;> decide +kernel

theorem witness_completionRecords :
    (runningRec.live = true ∧ runningRec.clockStopped 0 = false ∧ (List.find? (fun (y : Entry) => y.unit == 0 && y.run?.isSome)
      (runningRec.sl 0).flight = some re1) ∧ re1.run? = some r0 ∧ re1.op < 160 ∧ r0.status = 0 ∧ runningRec.tagged 0 re1.key = false ∧
      re1.fields.crec = (1 : BitVec 2) ∧ r0.pend = Pend.none ∧ (runningRec.sl 0).recOut = [] ∧ runningRec.kv.waiters = [] ∧
      (runningRec.sl 0).cring.virt = false ∧ (runningRec.sl 0).cring.base + (runningRec.sl 0).cring.entries * 128 ≤ 25165824 ∧
      (runningRec.sl 0).store.wf = true ∧
      ((runningRec.sl 0).cring.wr - (runningRec.sl 0).cring.rd).toNat < (runningRec.sl 0).cring.entries) ∧
    (runningFull.live = true ∧ runningFull.clockStopped 0 = false ∧ (List.find? (fun (y : Entry) => y.unit == 0 && y.run?.isSome)
      (runningFull.sl 0).flight = some re1) ∧ runningFull.tagged 0 re1.key = false ∧ (runningFull.sl 0).recOut = [] ∧
      runningFull.kv.waiters = [] ∧ (runningFull.sl 0).cring.virt = false ∧ (runningFull.sl 0).cring.base + (runningFull.sl
      0).cring.entries * 128 ≤ 25165824 ∧ (runningFull.sl 0).store.wf = true ∧
      (runningFull.sl 0).cring.entries ≤ ((runningFull.sl 0).cring.wr - (runningFull.sl 0).cring.rd).toNat) := by
  and_intros <;> decide +kernel

theorem witness_waitsTimeOut :
    ((waiting w0).live = true ∧ ((waiting w0).sl 0).seq.wait = some w0 ∧ w0.deadline ≤ (waiting w0).now ∧ w0.fields.toMode = true) ∧
    ((waiting w1).live = true ∧ ((waiting w1).sl 0).seq.wait = some w1 ∧ w1.deadline ≤ (waiting w1).now ∧ w1.fields.toMode = false ∧
      ((waiting w1).sl 0).state = SliceState.running) ∧
    ((waiting w2).live = true ∧ ((waiting w2).sl 0).seq.wait = some w2 ∧ (waiting w2).now < w2.deadline) := by
  and_intros <;> decide +kernel

theorem witness_waitCyclesBreak :
    (cyc.live = true ∧ cyc.now % 100000 = 0 ∧ cyc.fw.running = true ∧ cyc.chip.model = Model.v32 ∧ (0 : SliceId) ≠ (1 : SliceId) ∧ (cyc.sl
      0).seq.wait = some w3 ∧ (cyc.sl 1).seq.wait = some w4 ∧ (∀ (i : SliceId), i ≠ (0 : SliceId) → i ≠ (1 : SliceId) → (cyc.sl
      i.val).seq.wait = none) ∧ w3.kind = WaitKind.acquire 6 ∧ w4.kind = WaitKind.acquire 5 ∧ w3.startNs * 32 + 0 < w4.startNs * 32 + 1 ∧
      cyc.sem 6 = { cyc.sem 6 with held := true, kind := (1 : BitVec 2), owner := BitVec.ofNat 12 1 } ∧ cyc.sem 5 =
      { cyc.sem 5 with held := true, kind := (1 : BitVec 2), owner := BitVec.ofNat 12 0 } ∧ cyc.now < w3.deadline ∧ cyc.now < w4.deadline ∧ w4.fields.toMode = true) ∧
    (cycDue.live = true ∧ cycDue.now % 100000 = 0 ∧ cycDue.fw.running = true ∧ cycDue.chip.model = Model.v32 ∧ (cycDue.sl 0).seq.wait =
      some w5 ∧ (cycDue.sl 1).seq.wait = some w4 ∧ (∀ (i : SliceId), i ≠ (0 : SliceId) → i ≠ (1 : SliceId) → (cycDue.sl i.val).seq.wait =
      none) ∧ w5.kind = WaitKind.acquire 6 ∧ w4.kind = WaitKind.acquire 5 ∧ w5.startNs * 32 + 0 < w4.startNs * 32 + 1 ∧ cycDue.sem 6 =
      { cycDue.sem 6 with held := true, kind := (1 : BitVec 2), owner := BitVec.ofNat 12 1 } ∧ cycDue.sem 5 =
      { cycDue.sem 5 with held := true, kind := (1 : BitVec 2), owner := BitVec.ofNat 12 0 } ∧ w5.deadline ≤ cycDue.now ∧ cycDue.now <
      w4.deadline ∧ w5.fields.toMode = true) ∧
    (run.live = true ∧ (run.now % 100000 ≠ 0 ∨ run.fw.running = false)) ∧
    (scanIdle.live = true ∧ scanIdle.now % 100000 = 0 ∧ (∀ (k : SliceId), (scanIdle.sl k.val).seq.wait = none)) := by
  and_intros <;> decide +kernel

theorem witness_predicatedCallsResolve :
    ((preds pw).live = true ∧ ((preds pw).sl 0).seq.pred = some pw ∧ ((preds pw).sl 0).seq.cmpOpen[pw.call.cmp] = false ∧ pw.call.pred =
      true ∧ ((preds pw).sl 0).cutHits ((preds pw).sl 0).seq.pc ((preds pw).sl 0).seq.routine = false ∧ (preds pw).sheet.trace.getLsbD 1 =
      false) ∧
    (predOpen.live = true ∧ (predOpen.sl 0).seq.pred = some pw ∧ (predOpen.sl 0).seq.cmpOpen[pw.call.cmp] = true) := by
  and_intros <;> decide +kernel

theorem witness_tickEdges :
    (tkInt.live = true ∧ quiet tkInt = true ∧ tkInt.tick.active = true ∧ (tkInt.setting 258 == 1) = false ∧ tkInt.tick.next ≤ tkInt.now) ∧
    (tkInt.live = true ∧ quiet tkInt = true ∧ (tkInt.tick.active = false ∨ (tkInt.setting 258 == 1) = false)) ∧
    (tkExt.live = true ∧ quiet tkExt = true ∧ (tkExt.tick.active = false ∨ (tkExt.setting 258 == 1) = true ∨ tkExt.now < tkExt.tick.next)) ∧
    (tkExt.live = true ∧ quiet tkExt = true ∧ tkExt.tick.active = true ∧ (tkExt.setting 258 == 1) = true ∧ 3 ≤ tkExt.now ∧ tkExt.tick.count
      ≠ (0 : W64) ∧ tkExt.now - 3 < BitVec.toNat tkExt.tick.last + 1000) ∧
    (tkExt.live = true ∧ quiet tkExt = true ∧ tkExt.tick.active = true ∧ (tkExt.setting 258 == 1) = true ∧ 3 ≤ tkExt.now ∧ tkExt.tick.count
      ≠ (0 : W64) ∧ tkExt.tick.flywheel = false ∧ tkExt.now < BitVec.toNat tkExt.tick.last + tkExt.tick.period + tkExt.setting 259) ∧
    (tkExtOld.live = true ∧ quiet tkExtOld = true ∧ tkExtOld.tick.active = true ∧ (tkExtOld.setting 258 == 1) = true ∧ 3 ≤ tkExtOld.now ∧
      (tkExtOld.tick.count = (0 : W64) ∨ BitVec.toNat tkExtOld.tick.last + 1000 ≤ tkExtOld.now - 3) ∧ tkExtOld.tick.flywheel = false) ∧
    (tkExtOld.live = true ∧ quiet tkExtOld = true ∧ tkExtOld.tick.active = true ∧ (tkExtOld.setting 258 == 1) = true ∧ 3 ≤ tkExtOld.now ∧
      tkExtOld.tick.count ≠ (0 : W64) ∧ tkExtOld.tick.flywheel = false ∧ BitVec.toNat tkExtOld.tick.last + tkExtOld.tick.period +
      tkExtOld.setting 259 ≤ tkExtOld.now) ∧
    (tkFly.live = true ∧ quiet tkFly = true ∧ tkFly.tick.active = true ∧ (tkFly.setting 258 == 1) = true ∧ 3 ≤ tkFly.now ∧
      (tkFly.tick.count = (0 : W64) ∨ BitVec.toNat tkFly.tick.last + 1000 ≤ tkFly.now - 3) ∧ tkFly.tick.flywheel = true) ∧
    (tkExtNew.live = true ∧ quiet tkExtNew = true ∧ (tkExtNew.tick.active = false ∨ (tkExtNew.setting 258 == 1) = true ∨ tkExtNew.now <
      tkExtNew.tick.next)) ∧
    (tkExtNew.live = true ∧ quiet tkExtNew = true ∧ tkExtNew.tick.active = true ∧ (tkExtNew.setting 258 == 1) = true ∧ 3 ≤ tkExtNew.now ∧
      tkExtNew.tick.count ≠ (0 : W64) ∧ tkExtNew.now - 3 < BitVec.toNat tkExtNew.tick.last + 1000) ∧
    (tkExtNew.live = true ∧ quiet tkExtNew = true ∧ tkExtNew.tick.active = true ∧ (tkExtNew.setting 258 == 1) = true ∧ 3 ≤ tkExtNew.now ∧
      tkExtNew.tick.count ≠ (0 : W64) ∧ tkExtNew.now < BitVec.toNat tkExtNew.tick.last + tkExtNew.tick.period) ∧
    (tkExtNew.live = true ∧ quiet tkExtNew = true ∧ tkExtNew.tick.active = true ∧ (tkExtNew.setting 258 == 1) = true ∧ 3 ≤ tkExtNew.now ∧
      tkExtNew.tick.count ≠ (0 : W64) ∧ tkExtNew.tick.flywheel = false ∧ tkExtNew.now < BitVec.toNat tkExtNew.tick.last +
      tkExtNew.tick.period + tkExtNew.setting 259) := by
  and_intros <;> decide +kernel

theorem witness_frameEdge :
    (fe.live = true ∧ frameEnds fe (0 : SliceId) = true ∧ fe.tick.active = true ∧ fe.setting 258 ≠ 1 ∧ fe.tick.next = 750 ∧ 750 ≤ fe.now) := by
  and_intros <;> decide +kernel

theorem witness_overexposedFrames :
    (ovr.live = true ∧ (quiet (ovr.mod 0 fun (x : Slice) => { x with state := SliceState.ready }) = true) ∧ 0 < ovr.chip.model.slices ∧
      ovr.tick.active = true ∧ ovr.setting 258 ≠ 1 ∧ ovr.tick.next ≤ ovr.now ∧ (ovr.sl 0).state = SliceState.running ∧ (ovr.sl 0).frameDone
      = false ∧ (ovr.sl 0).overexp = false ∧ (ovr.sl 0).held = false ∧ (ovr.sl 0).drain = none ∧ ovr.scrubDue 0 = false ∧ (((ovr.sl
      0).flight.any fun (x : Entry) => x.run?.isSome) = true)) := by
  and_intros <;> decide +kernel

theorem witness_heldEdges :
    (held.live = true ∧ (held.sl 0).state = SliceState.running ∧ (held.sl 0).held = true ∧ (held.sl 0).frameDone = true ∧ (held.sl 0).drain
      = none ∧ held.scrubDue 0 = false ∧ held.cmds = [] ∧ (held.sl 0).sticky = [] ∧ (held.sl 0).switchReq = false ∧ (∀ (i : Fin 8) (m :
      MeterCtl), (held.sl 0).slotCtl i.val = some m → m.pub = false)) ∧
    (fe.live = true ∧ (¬((fe.sl 0).state = SliceState.running ∧ (fe.sl 0).held = true ∧ (fe.sl 0).frameDone = true))) := by
  and_intros <;> decide +kernel

theorem witness_timeSynchronisation :
    (ts1.live = true ∧ ts1.tb.running = true ∧ ts1.tb.lastCap = some 100 ∧ ts1.now < 100 + 1000) ∧
    (ts1.live = true ∧ (ts1.tb.slewRemain = (0 : ℤ) ∨ ts1.now < ts1.tb.nextSlew)) ∧
    (ts2.live = true ∧ ts2.tb.running = true ∧ (∀ (c : ℕ), ts2.tb.lastCap = some c → c + 1000 ≤ ts2.now)) ∧
    (ts2.live = true ∧ (0 : ℤ) < ts2.tb.slewRemain ∧ ts2.tb.nextSlew ≤ ts2.now) ∧
    (ts3.live = true ∧ ts3.tb.running = false) ∧
    (ts3.live = true ∧ ts3.tb.slewRemain < (0 : ℤ) ∧ ts3.tb.nextSlew ≤ ts3.now) := by
  and_intros <;> decide +kernel

theorem witness_drainsEnd :
    (drain.live = true ∧ (drain.sl 0).state = SliceState.draining ∧ (drain.sl 0).drain = some dr ∧ (drain.sl 0).flight = [] ∧ (drain.sl
      0).seq.wait = none ∧ drain.cmds = []) ∧
    (run.live = true ∧ ((run.sl 0).state ≠ SliceState.draining ∨ (run.sl 0).flight ≠ [] ∨ (run.sl 0).seq.wait ≠ none)) := by
  and_intros <;> decide +kernel

theorem witness_timedBeatsLeave :
    ((str [strO]).live = true ∧ streamOf ((str [strO]).sl 0) false 7 = some strO ∧ ((str [strO]).sl 0).sendsBeats = true ∧ (str
      [strO]).clockStopped 0 = false ∧ ((str [strO]).sl 0).beatsDone strO.id < strO.count ∧ strO.peerSlice = false ∧ strO.peer < (str
      [strO]).chip.model.sports) ∧
    ((str [strO2]).live = true ∧ streamOf ((str [strO2]).sl 0) false 7 = some strO2 ∧ ((str [strO2]).sl 0).sendsBeats = true ∧ (str
      [strO2]).clockStopped 0 = false ∧ ((str [strO2]).sl 0).beatsDone strO2.id < strO2.count ∧ strO2.peerSlice = true) ∧
    (strOff.live = true ∧ streamOf (strOff.sl 0) false 7 = some strO ∧ ((strOff.sl 0).sendsBeats = false ∨ strOff.clockStopped 0 = true ∨
      strO.count ≤ (strOff.sl 0).beatsDone strO.id)) := by
  and_intros <;> decide +kernel

theorem witness_timedBeatsArrive :
    (str2.live = true ∧ (beat (1 : BitVec 2) (150 : W32)).sport = true ∧ ↑(beat (1 : BitVec 2) (150 : W32)).port < str2.chip.model.sports ∧
      strI.peer = ↑(beat (1 : BitVec 2) (150 : W32)).port ∧ strI.peerSlice = false ∧ strI.tolerant = false ∧ 0 < strI.interval ∧
      (List.find? (fun (j : ℕ) => Option.any (fun (t : TimedStream) => t.peer == ↑(beat (1 : BitVec 2) (150 : W32)).port) ((str2.sl
      j).inbound (BitVec.toNat (beat (1 : BitVec 2) (150 : W32)).stream) false)) str2.present = some 0) ∧ (str2.sl 0).inbound (BitVec.toNat
      (beat (1 : BitVec 2) (150 : W32)).stream) false = some strI ∧ (str2.sl 0).state = SliceState.running ∧ strI.start + 1 * strI.interval
      ≤ BitVec.toNat (beat (1 : BitVec 2) (150 : W32)).cycle ∧ BitVec.toNat (beat (1 : BitVec 2) (150 : W32)).cycle < strI.start + (1 + 1)
      * strI.interval ∧ 1 < strI.count ∧ (beat (1 : BitVec 2) (150 : W32)).phase.toNat = 1 % 4 ∧ (str2.sl 0).beatsDone strI.id = 1 ∧ (∀ y ∈
      (str2.sl 0).timed.skid, y.stream ≠ strI.id) ∧ str2.pastEdge (BitVec.toNat (beat (1 : BitVec 2) (150 : W32)).cycle + strI.landing 0) =
      false) ∧
    (str2.live = true ∧ (beat (2 : BitVec 2) (150 : W32)).sport = true ∧ ↑(beat (2 : BitVec 2) (150 : W32)).port < str2.chip.model.sports ∧
      strI.peer = ↑(beat (2 : BitVec 2) (150 : W32)).port ∧ strI.peerSlice = false ∧ strI.tolerant = false ∧ 0 < strI.interval ∧
      (List.find? (fun (j : ℕ) => Option.any (fun (t : TimedStream) => t.peer == ↑(beat (2 : BitVec 2) (150 : W32)).port) ((str2.sl
      j).inbound (BitVec.toNat (beat (2 : BitVec 2) (150 : W32)).stream) false)) str2.present = some 0) ∧ (str2.sl 0).inbound (BitVec.toNat
      (beat (2 : BitVec 2) (150 : W32)).stream) false = some strI ∧ (str2.sl 0).state = SliceState.running ∧ (strI.start ≤ BitVec.toNat
      (beat (2 : BitVec 2) (150 : W32)).cycle → (beat (2 : BitVec 2) (150 : W32)).phase.toNat ≠ (BitVec.toNat (beat (2 : BitVec 2) (150 :
      W32)).cycle - strI.start) / strI.interval % 4)) := by
  and_intros <;> decide +kernel

theorem witness_lostAndTolerated :
    (str2.live = true ∧ streamOf (str2.sl 0) true 8 = some strI ∧ (str2.sl 0).state = SliceState.running ∧ 2 = (str2.sl 0).beatsDone
      strI.id + 1 ∧ (str2.sl 0).beatsDone strI.id < strI.count) ∧
    (str2.live = true ∧ (∀ y ∈ (str2.sl 0).timed.skid, y.stream ≠ 8)) ∧
    (str2.live = true ∧ streamOf (str2.sl 0) true 8 = some strI ∧ ((str2.sl 0).state ≠ SliceState.running ∨ 3 ≠ (str2.sl 0).beatsDone
      strI.id + 1 ∨ strI.count ≤ (str2.sl 0).beatsDone strI.id)) ∧
    (skid.live = true ∧ skB ∈ (skid.sl 0).timed.skid ∧ skB.stream = 8 ∧ (∀ z ∈ (skid.sl 0).timed.skid, z.stream = 8 → z ≠ skB →
      skB.due < z.due) ∧ (skid.sl 0).inbound 8 false = some strI) ∧
    (skid2.live = true ∧ skB ∈ (skid2.sl 0).timed.skid ∧ (∀ z ∈ (skid2.sl 0).timed.skid, z.stream = 8 → z ≠ skB → skB.due < z.due) ∧
      (skid2.sl 0).timed.skid.head? = some skB2 ∧ skB2 ≠ skB ∧ (skid2.sl 0).inbound 8 false = some strI) := by
  and_intros <;> decide +kernel

theorem witness_hostSemaphores :
    (node.live = true ∧ node.node.valid = true ∧ (node.sem 3).held = false ∧ (node.sem 3).waiters = []) ∧
    (node.live = true ∧ node.node.valid = true ∧ ((node.sem 3).held && (node.sem 3).kind == (2 : BitVec 2) && (node.sem 3).owner == (9 :
      W12)) = false) ∧
    (node.live = true ∧ node.node.valid = true ∧ (node.sec.ownerValid && node.sec.owner != (9 : W12)) = false ∧ (node.sem 3).held = false) ∧
    (live.live = true ∧ live.node.valid = false) ∧
    (smA.live = true ∧ smA.node.valid = true ∧ ((smA.sem 3).held = true ∨ (smA.sem 3).waiters ≠ [])) ∧
    (smA.live = true ∧ smA.node.valid = true ∧ ((smA.sem 3).held && (smA.sem 3).kind == (2 : BitVec 2) && (smA.sem 3).owner == (9 : W12)) =
      true ∧ (smA.sem 3).waiters = []) ∧
    (smA.live = true ∧ smA.node.valid = true ∧ (smA.sec.ownerValid && smA.sec.owner != (9 : W12)) = false ∧ (smA.sem 3).held = true ∧
      (smA.sem 3).waiters = []) ∧
    (own.live = true ∧ own.node.valid = true ∧ (own.sem 3).held = false ∧ (own.sem 3).waiters = []) ∧
    (own.live = true ∧ own.node.valid = true ∧ ((own.sem 3).held && (own.sem 3).kind == (2 : BitVec 2) && (own.sem 3).owner == (8 : W12)) =
      false) ∧
    (own.live = true ∧ own.node.valid = true ∧ (own.sec.ownerValid && own.sec.owner != (8 : W12)) = true) ∧
    (own.live = true ∧ own.node.valid = true ∧ (own.sec.ownerValid && own.sec.owner != (9 : W12)) = false ∧ (own.sem 3).held = false) := by
  and_intros <;> decide +kernel

theorem witness_invalidations :
    (inv.live = true ∧ inv.node.valid = true ∧ inv.xl.invals = [Inval.range 4 65536 1, Inval.all] ∧ inv.inFlight (.range 4 65536 1) =
      false) ∧
    (invFly.live = true ∧ invFly.node.valid = true ∧ invFly.xl.invals = [Inval.range 4 65536 1, Inval.all] ∧ invFly.inFlight
      (.range 4 65536 1) = true) ∧
    (node.live = true ∧ node.node.valid = true ∧ node.xl.invals = []) := by
  and_intros <;> decide +kernel

theorem witness_domainEntries :
    (dom.live = true ∧ dom.node.valid = true ∧ ((dom.xl.domSel != (0 : W12) && dom.xl.commit.isNone && !(dom.sec.ownerValid &&
      dom.sec.owner != (9 : W12)) && !((dom.staged.root != ((List.find? (fun (d : Domain) => d.id == dom.staged.id)
      dom.xl.hub.domains).getD ⟨dom.staged.id, false, 0, 0, false, false⟩).root || dom.staged.target != ((List.find? (fun (d : Domain) =>
      d.id == dom.staged.id) dom.xl.hub.domains).getD ⟨dom.staged.id, false, 0, 0, false, false⟩).target) && dom.kv.ctxs.any fun (c :
      KvCtx) => c.domain == dom.staged.id)) = true)) ∧
    (dom.live = true ∧ dom.node.valid = true ∧ dom.xl.commit = none) ∧
    (dom2.live = true ∧ dom2.node.valid = true ∧ ((dom2.xl.domSel != (0 : W12) && dom2.xl.commit.isNone && !(dom2.sec.ownerValid &&
      dom2.sec.owner != (9 : W12)) && !((dom2.staged.root != ((List.find? (fun (d : Domain) => d.id == dom2.staged.id)
      dom2.xl.hub.domains).getD ⟨dom2.staged.id, false, 0, 0, false, false⟩).root || dom2.staged.target != ((List.find? (fun (d : Domain)
      => d.id == dom2.staged.id) dom2.xl.hub.domains).getD ⟨dom2.staged.id, false, 0, 0, false, false⟩).target) && dom2.kv.ctxs.any fun (c
      : KvCtx) => c.domain == dom2.staged.id)) = false)) ∧
    (dom2.live = true ∧ dom2.node.valid = true ∧ dom2.xl.commit = some 4 ∧ dom2.inFlight (.whole 4) = false) ∧
    (dom3.live = true ∧ dom3.node.valid = true ∧ dom3.xl.commit = some 4 ∧ dom3.inFlight (.whole 4) = true) := by
  and_intros <;> decide +kernel

theorem witness_walksCache :
    (walkS.live = true ∧ (List.find? (fun (d : Domain) => d.id == 4 && d.valid) walkS.xl.hub.domains = some dm) ∧ (∀ e ∈ walkS.xl.hub.tlb,
      e.covers 4 4660 = false) ∧ dm.target < 2 ∧ walkFrom (walkS.waitingRun (walkS.mkRun 0 0 false
      false)).env walkS.emul walkS.ext 4 4660 4 (dm.target == 1) dm.root walkS.xl.hub.walkc = (WalkEnd.leaf (leafOf walkR.1), walkR.2)) ∧
    (walkH.live = true ∧ (List.find? (fun (d : Domain) => d.id == 4 && d.valid) walkH.xl.hub.domains = some { dm with target := 1, root :=
      4096 }) ∧ (∀ e ∈ walkH.xl.hub.tlb, e.covers 4 4660 = false) ∧ (match walkRH.1 with | .stop 0 _ _ => true | _ => false) = true) ∧
    (node.live = true ∧ (List.find? (fun (d : Domain) => d.id == 4 && d.valid) node.xl.hub.domains = none)) := by
  and_intros <;> decide +kernel

theorem witness_sportCredits :
    (ports2.live = true ∧ (decide (2 < ports2.chip.model.sports) = false ∨ (decide (2 < ports2.chip.model.sports) && BitVec.getLsbD
      ports2.ports.spUp 2) = true)) ∧
    (ports2.live = true ∧ (decide (2 < ports2.chip.model.sports) && BitVec.getLsbD ports2.ports.spUp 2) = true ∧ (1 = 1 ∨ 1 = 3) ∧ ((if 1 =
      1 then (ports2.sport 2).out1 else (ports2.sport 2).out3) < 255) ∧ (∀ b ∈ (ports2.sport 2).wait, b.vc ≠ 1)) ∧
    (ports2.live = true ∧ decide (2 < ports2.chip.model.sports) = true) ∧
    (ports2.live = true ∧ ((decide (2 < ports2.chip.model.sports) && BitVec.getLsbD ports2.ports.spUp 2) = false ∨ 2 ≠ 1 ∧ 2 ≠ 3)) ∧
    (ports2.live = true ∧ (decide (2 < ports2.chip.model.sports) && BitVec.getLsbD ports2.ports.spUp 2) = true ∧ (3 = 1 ∨ 3 = 3) ∧ (255 ≤
      if 3 = 1 then (ports2.sport 2).out1 else (ports2.sport 2).out3)) ∧
    (ports2.live = true ∧ decide (1 < ports2.chip.model.sports) = true ∧ (decide (1 < ports2.chip.model.sports) && BitVec.getLsbD
      ports2.ports.spUp 1) = false ∧ ports2.start.done.length = 4) ∧
    ((smallChip ports2).live = true ∧ (decide (15 < (smallChip ports2).chip.model.sports) = false ∨ (decide (15 < (smallChip
      ports2).chip.model.sports) && BitVec.getLsbD (smallChip ports2).ports.spUp 15) = true)) ∧
    ((smallChip ports2).live = true ∧ (decide (15 < (smallChip ports2).chip.model.sports) && BitVec.getLsbD (smallChip ports2).ports.spUp
      15) = false) ∧
    ((smallChip ports2).live = true ∧ ((decide (15 < (smallChip ports2).chip.model.sports) && BitVec.getLsbD (smallChip ports2).ports.spUp
      15) = false ∨ 1 ≠ 1 ∧ 1 ≠ 3)) ∧
    ((smallChip ports2).live = true ∧ decide (15 < (smallChip ports2).chip.model.sports) = false) := by
  and_intros <;> decide +kernel

theorem witness_apertureAccesses :
    (apr.live = true ∧ 0 < apr.chip.model.sports ∧ apr.start.done.length = 4 ∧ ((hb (1 : BitVec 2) 1).vc = (1 : BitVec 2) ∨ (hb (1 : BitVec
      2) 1).vc = (3 : BitVec 2)) ∧ ((if (hb (1 : BitVec 2) 1).vc.toNat = 1 then (apr.sport 0).in1 else (apr.sport 0).in3) ≠ 0) ∧ (apr.sport
      0).wait = [] ∧ 77 < 4096 ∧ 2 < 98304 ∧ (BitVec.getLsbD apr.ports.aperture 0 && decide (0 < apr.chip.model.slices) && (apr.sl 0).state
      != SliceState.off && (apr.sl 0).state != SliceState.cold) = true ∧ (hb (1 : BitVec 2) 1).hdr = BitVec.ofNat 64 (1 + 77 * 2 ^ 4 + 0 *
      2 ^ 16 + 2 * 2 ^ 24)) ∧
    (apr.live = true ∧ 0 < apr.chip.model.sports ∧ apr.start.done.length = 4 ∧ ((hb (1 : BitVec 2) 2).vc = (1 : BitVec 2) ∨ (hb (1 : BitVec
      2) 2).vc = (3 : BitVec 2)) ∧ ((if (hb (1 : BitVec 2) 2).vc.toNat = 1 then (apr.sport 0).in1 else (apr.sport 0).in3) ≠ 0) ∧ (apr.sport
      0).wait = [] ∧ 77 < 4096 ∧ 2 < 98304 ∧ (BitVec.getLsbD apr.ports.aperture 0 && decide (0 < apr.chip.model.slices) && (apr.sl 0).state
      != SliceState.off && (apr.sl 0).state != SliceState.cold) = true ∧ (hb (1 : BitVec 2) 2).hdr = BitVec.ofNat 64 (2 + 77 * 2 ^ 4 + 0 *
      2 ^ 16 + 2 * 2 ^ 24)) ∧
    (apx.live = true ∧ 0 < apx.chip.model.sports ∧ apx.start.done.length = 4 ∧ ((hb (1 : BitVec 2) 1).vc = (1 : BitVec 2) ∨ (hb (1 : BitVec
      2) 1).vc = (3 : BitVec 2)) ∧ ((if (hb (1 : BitVec 2) 1).vc.toNat = 1 then (apx.sport 0).in1 else (apx.sport 0).in3) ≠ 0) ∧ (apx.sport
      0).wait = [] ∧ 77 < 4096 ∧ 2 < 98304 ∧ (BitVec.getLsbD apx.ports.aperture 0 && decide (0 < apx.chip.model.slices) && (apx.sl 0).state
      != SliceState.off && (apx.sl 0).state != SliceState.cold) = false ∧ ((hb (1 : BitVec 2) 1).hdr = BitVec.ofNat 64 (1 + 77 * 2 ^ 4 + 0
      * 2 ^ 16 + 2 * 2 ^ 24) ∨ (hb (1 : BitVec 2) 1).hdr = BitVec.ofNat 64 (2 + 77 * 2 ^ 4 + 0 * 2 ^ 16 + 2 * 2 ^ 24))) ∧
    (ports.live = true ∧ 0 < ports.chip.model.sports ∧ ports.start.done.length = 4 ∧ ((hb (1 : BitVec 2) 1).vc = (1 : BitVec 2) ∨ (hb (1 :
      BitVec 2) 1).vc = (3 : BitVec 2)) ∧ ((if (hb (1 : BitVec 2) 1).vc.toNat = 1 then (ports.sport 0).in1 else (ports.sport 0).in3) = 0)) := by
  and_intros <;> decide +kernel

theorem witness_mportResponses :
    (node.live = true ∧ (1 : BitVec 2) ≠ (3 : BitVec 2) ∧ (1 : BitVec 2) ≠ (3 : BitVec 2) ∧ (List.find? (fun (t : MTag) => t.tag == (0 :
      W12)) node.ports.tags = none)) ∧
    (runningTag.live = true ∧ (1 : BitVec 2) ≠ (3 : BitVec 2) ∧ (1 : BitVec 2) ≠ (3 : BitVec 2) ∧ (List.find? (fun (t : MTag) => t.tag ==
      (0 : W12)) runningTag.ports.tags = some tag0) ∧ (1 : BitVec 2) ≠ (0 : BitVec 2) ∧ runningTag.ports.waits = [] ∧
      runningTag.running tag0.slice tag0.key = some (re, r0) ∧ stoppedStatus r0.status = false ∧ (runningTag.sl tag0.slice).state =
      SliceState.running ∧ tag0.slice < 32) ∧
    (runningTag.live = true ∧ (1 : BitVec 2) ≠ (3 : BitVec 2) ∧ (0 : BitVec 2) ≠ (3 : BitVec 2) ∧ (List.find? (fun (t : MTag) => t.tag ==
      (0 : W12)) runningTag.ports.tags = some tag0) ∧ (0 : BitVec 2) = (0 : BitVec 2) ∧ runningTag.ports.waits = []) ∧
    (runningWait.live = true ∧ (List.find? (fun (t : MTag) => t.tag == (0 : W12)) runningWait.ports.tags = some tag0) ∧
      runningWait.ports.waits = [tagQ] ∧ tagQ.slice / 8 = (0 : W12).toNat / 1024 ∧ (0 : W12).toNat % 1024 < 768) ∧
    (spill.live = true ∧ (1 : BitVec 2) ≠ (3 : BitVec 2) ∧ (1 : BitVec 2) ≠ (3 : BitVec 2) ∧ spill.sheet.spillOn = true ∧ (1 : BitVec 2) ≠
      (0 : BitVec 2)) := by
  and_intros <;> decide +kernel

theorem witness_registerAccesses :
    (live.live = true ∧ live.node.valid = false) ∧
    (cnts.live = true ∧ cnts.node.valid = true ∧ ((acc (8240 : W16)).size != (3 : BitVec 2) || decide (BitVec.toNat (acc (8240 :
      W16)).offset % 8 ≠ 0)) = false ∧ BitVec.toNat (acc (8240 : W16)).offset = 8240) ∧
    (cnts.live = true ∧ cnts.node.valid = true ∧ ((acc (64 : W16)).size != (3 : BitVec 2) || decide (BitVec.toNat (acc (64 : W16)).offset %
      8 ≠ 0)) = false ∧ (BitVec.toNat (acc (64 : W16)).offset < 4096 ∨ 61440 ≤ BitVec.toNat (acc (64 : W16)).offset)) ∧
    (cnts.live = true ∧ cnts.node.valid = true ∧ ((acc (61440 : W16)).size != (3 : BitVec 2) || decide (BitVec.toNat (acc (61440 :
      W16)).offset % 8 ≠ 0)) = false ∧ 61440 ≤ BitVec.toNat (acc (61440 : W16)).offset) ∧
    (cnts.live = true ∧ cnts.node.valid = true ∧ ((acc (12320 : W16)).size != (3 : BitVec 2) || decide (BitVec.toNat (acc (12320 :
      W16)).offset % 8 ≠ 0)) = false ∧ BitVec.toNat (acc (12320 : W16)).offset = 12320) ∧
    (cnts.live = true ∧ cnts.node.valid = true ∧ ((acc (12344 : W16)).size != (3 : BitVec 2) || decide (BitVec.toNat (acc (12344 :
      W16)).offset % 8 ≠ 0)) = false ∧ BitVec.toNat (acc (12344 : W16)).offset = 12344) ∧
    (cnts.live = true ∧ cnts.node.valid = true ∧ ((acc (4872 : W16)).size != (3 : BitVec 2) || decide (BitVec.toNat (acc (4872 :
      W16)).offset % 8 ≠ 0)) = false ∧ BitVec.toNat (acc (4872 : W16)).offset = 4096 + 3 * 256 + 1 * 8) ∧
    (cnts.live = true ∧ cnts.node.valid = true ∧ ((acc (53352 : W16)).size != (3 : BitVec 2) || decide (BitVec.toNat (acc (53352 :
      W16)).offset % 8 ≠ 0)) = false ∧ BitVec.toNat (acc (53352 : W16)).offset = 53344 + 1 * 8 ∧ (cnts.sec.ownerValid = false ∨
      cnts.sec.owner = (acc (53352 : W16)).src)) ∧
    (cnts.live = true ∧ cnts.node.valid = true ∧ (accLoad.size != (3 : BitVec 2) || decide (BitVec.toNat accLoad.offset % 8 ≠ 0)) = true) := by
  and_intros <;> decide +kernel

theorem witness_identityIsFixed :
    (exec (Instr.nop (0 : SliceId)) run = Host.Outcome.next (after (exec (Instr.nop (0 : SliceId)) run)) ∧ 64 < 4096 ∧ 64 ≠ 24) := by
  refine ⟨rfl, ?_, ?_⟩ <;> decide +kernel

theorem witness_ownerAlone :
    (node.live = true ∧ node.node.valid = true ∧ node.sec.ownerValid = false) ∧
    (own.live = true ∧ own.node.valid = true ∧ own.sec.ownerValid = true ∧ (8 : W12) ≠ own.sec.owner ∧ accOther.src = (8 : W12) ∧
      accOther.size = (3 : BitVec 2) ∧ BitVec.toNat accOther.offset = 53344 + 1 * 8) := by
  and_intros <;> decide +kernel

theorem witness_pointersAndInterrupts :
    (node.live = true ∧ node.node.valid = true ∧ 0 < node.chip.model.slices) := by
  and_intros <;> decide +kernel

theorem witness_spillControl :
    (node.live = true ∧ node.node.valid = true ∧ node.sheet.spillOn = false ∧ BitVec.getLsbD (1048601 : W64) 0 = true ∧ ((decide (12 ≤
      (BitVec.setWidth 5 ((1048601 : W64) >>> 1)).toNat ∧ (BitVec.setWidth 5 ((1048601 : W64) >>> 1)).toNat ≤ 25) && decide
      ((BitVec.setWidth 40 ((1048601 : W64) >>> 12)).toNat * 4096 % 2 ^ ((BitVec.setWidth 5 ((1048601 : W64) >>> 1)).toNat + 5) = 0)) =
      true) ∧ node.sheet.ring = []) ∧
    (node.live = true ∧ node.node.valid = true ∧ (node.sheet.spillOn = false ∨ (BitVec.setWidth 40 ((131096 : W64) >>> 12) !=
      node.sheet.base || BitVec.setWidth 5 ((131096 : W64) >>> 1) != node.sheet.log2) = false) ∧ BitVec.getLsbD (131096 : W64) 0 = false) ∧
    (node.live = true ∧ node.node.valid = true ∧ BitVec.getLsbD (131081 : W64) 0 = true ∧ ((decide (12 ≤ (BitVec.setWidth 5 ((131081 : W64)
      >>> 1)).toNat ∧ (BitVec.setWidth 5 ((131081 : W64) >>> 1)).toNat ≤ 25) && decide ((BitVec.setWidth 40 ((131081 : W64) >>> 12)).toNat
      * 4096 % 2 ^ ((BitVec.setWidth 5 ((131081 : W64) >>> 1)).toNat + 5) = 0)) = false)) ∧
    (spill.live = true ∧ spill.node.valid = true ∧ spill.sheet.spillOn = true ∧ (BitVec.setWidth 40 ((1048601 : W64) >>> 12) !=
      spill.sheet.base || BitVec.setWidth 5 ((1048601 : W64) >>> 1) != spill.sheet.log2) = true) := by
  and_intros <;> decide +kernel

theorem witness_doorbellsAndPops :
    (notReady.live = true ∧ notReady.node.valid = true ∧ notReady.start.phase ≠ Start.ready) ∧
    (notReady.live = true ∧ notReady.node.valid = true ∧ (notReady.chan 3).cpls = []) ∧
    (mbx.live = true ∧ mbx.node.valid = true ∧ mbx.start.phase = Start.ready ∧ (mbx.chan 3).reqs.length < 64) ∧
    (mbx.live = true ∧ mbx.node.valid = true ∧ (mbx.chan 3).cpls = [[(1 : Byte), (2 : Byte), (3 : Byte)]] ∧ (mbx.chan 3).held = []) ∧
    (mbx3.live = true ∧ mbx3.node.valid = true ∧ mbx3.start.phase = Start.ready ∧ 64 ≤ (mbx3.chan 3).reqs.length) ∧
    (mbx3.live = true ∧ mbx3.node.valid = true ∧ (mbx3.chan 3).cpls = [[(1 : Byte), (2 : Byte), (3 : Byte)]] ∧ ([] : List Nat).length < 64
      ∧ (mbx3.chan 3).held = [req]) := by
  and_intros <;> decide +kernel

theorem witness_requestsStart :
    (mbx.live = true ∧ mbx.fw.running = true ∧ mbx.fw.rrLast < 16 ∧ (mbx.chan 3).reqs = [req] ∧ (mbx.chan 3).running = none ∧ (mbx.chan
      3).cpls.length < 64 ∧ (mbx.chan 3).held = [] ∧ (∀ (c : Channel), (c + 15 - mbx.fw.rrLast) % 16 < (3 + 15 - mbx.fw.rrLast) % 16 →
      (mbx.chan c.val).canStart = false) ∧ mbx.headerBad 3 req = none ∧ (((popOf mbx).needOf 1).fields (newOf mbx req)) = none ∧
      ((popOf mbx).needOf 1).limit (newOf mbx req) = none ∧ (∀ o ∈ ((popOf mbx).needOf 1).objs (newOf mbx req), ∀ x ∈ (popOf mbx).cmds, o ∉
      x.objs)) ∧
    (mbxF.live = true ∧ (mbxF.chan 3).reqs = [reqF] ∧ mbxF.headerBad 3 reqF = none ∧ ((popOf mbxF).needOf 1).fields (newOf mbxF reqF) ≠
      none) ∧
    (mbxH.live = true ∧ (mbxH.chan 3).reqs = [reqH] ∧ (∀ (c : Channel), (c + 15 - mbxH.fw.rrLast) % 16 < (3 + 15 - mbxH.fw.rrLast) % 16 →
      (mbxH.chan c.val).canStart = false) ∧ mbxH.headerBad 3 reqH = none ∧ ((popOf mbxH).needOf 15).fields (newOf mbxH reqH) = none ∧
      ((popOf mbxH).needOf 15).objs (newOf mbxH reqH) = [.context 7] ∧ cHold ∈ (popOf mbxH).cmds ∧ cHold ≠ newOf mbxH reqH ∧
      Obj.context 7 ∈ cHold.objs) ∧
    (mbx2.live = true ∧ mbx2.fw.running = true ∧ mbx2.fw.rrLast < 16 ∧ (mbx2.chan 3).reqs = [badReq] ∧ (mbx2.chan 3).running = none ∧
      (mbx2.chan 3).cpls.length < 64 ∧ (mbx2.chan 3).held = [] ∧ (∀ (c : Channel), (c + 15 - mbx2.fw.rrLast) % 16 < (3 + 15 -
      mbx2.fw.rrLast) % 16 → (mbx2.chan c.val).canStart = false) ∧ mbx2.headerBad 3 badReq = some badEnds) ∧
    (node.live = true ∧ (∀ (c : Channel), (node.chan c.val).canStart = false)) ∧
    (fwOff.live = true ∧ fwOff.fw.running = false) := by
  and_intros <;> decide +kernel

theorem witness_commandsTimeOut :
    (node.live = true ∧ (node.chan 3).running = none) ∧
    ((ser (cmdOf 1 [] 900)).live = true ∧ ((ser (cmdOf 1 [] 900)).chan 3).running = some (cmdOf 1 [] 900) ∧ (cmdOf 1 [] 900).chan = 3 ∧
      (cmdOf 1 [] 900).late = false ∧ (ser (cmdOf 1 [] 900)).fw.running = true ∧ (cmdOf 1 [] 900).deadline ≤ (ser (cmdOf 1 [] 900)).now ∧
      ((ser (cmdOf 1 [] 900)).chan 3).cpls.length < 64 ∧ ((ser (cmdOf 1 [] 900)).chan 3).held = []) ∧
    ((ser (cmdOf 8 [] 9000)).live = true ∧ ((ser (cmdOf 8 [] 9000)).chan 3).running = some (cmdOf 8 [] 9000) ∧ (ser (cmdOf 8 [] 9000)).now
      < (cmdOf 8 [] 9000).deadline) := by
  and_intros <;> decide +kernel

theorem witness_trayTransitionsEnd :
    (fixS.live = true ∧ fixS.layer 7 0 = some layFix ∧ (layFix.tray ≠ TrayState.parking ∨ fixS.haltColumns.contains layFix.column = true)) ∧
    (fixS.live = true ∧ fixS.layer 7 0 = some layFix ∧ (layFix.tray ≠ TrayState.restoring ∨ 50331648 < fixS.trayBytes)) ∧
    (fixS.live = true ∧ fixS.layer 7 0 = some layFix ∧ layFix.tray = TrayState.fixing ∧ fixS.groupOf 7 0 layFix.k = some (grp 1 1
      [FrameState.writing], poolX) ∧ fixS.haltColumns = [] ∧ fixS.kv.waiters = [] ∧ noRetiring fixS = true ∧ fixS.keptBytes ≤ 50331648) ∧
    (fixS.live = true ∧ fixS.layer 7 1 = some (lay 0 TrayState.resident []) ∧ (lay 0 TrayState.resident []).tray ≠ TrayState.fixing) ∧
    (parkS.live = true ∧ parkS.layer 7 0 = some layPark ∧ layPark.tray = TrayState.parking ∧ parkS.haltColumns.contains layPark.column =
      false ∧ parkS.keptBytes ≤ 50331648) ∧
    (restS.live = true ∧ restS.layer 7 0 = some layRest ∧ layRest.tray = TrayState.restoring ∧ restS.trayBytes ≤ 50331648 ∧
      restS.haltColumns.contains layRest.column = false ∧ (∀ w ∈ restS.kv.waiters, ¬(w.kind = KvWaitKind.restore ∧ w.ctx = 7 ∧ w.layer =
      0)) ∧ ∀ g ∈ restS.slotGranules 7 0, g ∉ restS.ectl.poisoned) ∧
    (restP.live = true ∧ restP.layer 7 0 = some layRest ∧ layRest.tray = TrayState.restoring ∧ restP.trayBytes ≤ 50331648 ∧
      restP.haltColumns.contains layRest.column = false ∧ layRest.tokens ≠ [] ∧ 0x6C000000 ∈ restP.slotGranules 7 0 ∧ 0x6C000000 ∈
      restP.ectl.poisoned ∧ restP.kv.waiters = []) ∧
    (parkH.live = true ∧ parkH.layer 7 0 = some layPark ∧ parkH.haltColumns.contains layPark.column = true) := by
  and_intros <;> decide +kernel

theorem witness_fixWaitsTimeOut :
    (live.live = true ∧ (List.find? (fun (w : KvWaiter) => w.slice == 0 && w.kind == KvWaitKind.group) live.kv.waiters = none)) ∧
    ((fixW none).live = true ∧ (List.find? (fun (w : KvWaiter) => w.slice == 0 && w.kind == KvWaitKind.group) (fixW none).kv.waiters = some
      (wG none)) ∧ (∀ (d : ℕ), (wG none).deadline = some d → (fixW none).now < d)) ∧
    ((fixW (some 990)).live = true ∧ (List.find? (fun (w : KvWaiter) => w.slice == 0 && w.kind == KvWaitKind.group) (fixW (some
      990)).kv.waiters = some (wG (some 990))) ∧ (wG (some 990)).deadline = some 990 ∧ 990 ≤ (fixW (some 990)).now ∧ (fixW (some
      990)).running 0 (wG (some 990)).key = some (kvRe, r0)) := by
  and_intros <;> decide +kernel

theorem witness_hintsAndCloses :
    (node.live = true ∧ node.node.valid = true ∧ node.kv.ctx 7 = none) ∧
    (parkS.live = true ∧ parkS.node.valid = true ∧ parkS.kv.ctx 7 = some (ctx1 [lay 20 TrayState.parking (List.replicate 4 (tt 5)), lay 0
      TrayState.resident []]) ∧ ((ctx1 [lay 20 TrayState.parking (List.replicate 4 (tt 5)), lay 0 TrayState.resident []]).closing = false ∨
      (ctx1 [lay 20 TrayState.parking (List.replicate 4 (tt 5)), lay 0 TrayState.resident []]).pins ≠ [] ∨ (parkS.kv.fades.any fun (x :
      FadeStep) => x.ctx == 7) = true ∨ parkS.fw.running = false)) ∧
    (closing.live = true ∧ closing.node.valid = true ∧ closing.kv.ctx 7 = some ctxClosing ∧ closing.fw.running = true ∧ ctxClosing.closing
      = true ∧ ctxClosing.pins = [] ∧ ((closing.kv.fades.any fun (x : FadeStep) => x.ctx == 7) = false) ∧ ((ctxClosing.layers.any fun (l :
      KvLayer) => l.tray == TrayState.fixing) = false) ∧ closing.cmds = [] ∧ closing.kv.waiters = [] ∧ noRetiring closing = true ∧ closing.keptBytes ≤ 50331648) := by
  and_intros <;> decide +kernel

theorem witness_fadeStepsBegin :
    (fadeErr.live = true ∧ noRetiring fadeErr = true ∧ fadeErr.kv.waiters = [] ∧ fadeErr.fw.running = true ∧ fadeErr.kv.fades.length < 4 ∧
      fadeErr.kv.errFades = [⟨7, 16, none⟩] ∧ fadeErr.kv.ctx 7 = some (ctx1 [layFull]) ∧ fadeErr.canFade (ctx1 [layFull]) 16 none = true) ∧
    (fadeVic.live = true ∧ noRetiring fadeVic = true ∧ fadeVic.kv.waiters = [] ∧ fadeVic.fw.running = true ∧ fadeVic.kv.fades.length < 4 ∧
      fadeVic.kv.errFades = [] ∧ fadeVic.kv.press = [[1]] ∧ [1].contains 1 = true ∧ fadeVic.relieved [1] = false ∧ fadeVic.victims [1] =
      [ctx1 [lay 800 TrayState.resident []]]) ∧
    (fixNoFw.live = true ∧ noRetiring fixNoFw = true ∧ fixNoFw.kv.waiters = [] ∧ (fixNoFw.fw.running = false ∨ 4 ≤ fixNoFw.kv.fades.length)) := by
  and_intros <;> decide +kernel

theorem witness_fadeStepsRun :
    ((fadeS 1 []).live = true ∧ (fadeS 1 []).fw.running = true ∧ (fadeS 1 []).kv.ctx 7 = some (fctx (fadeS 1 [])) ∧ (fadeS 1 []).kv.waiters
      = [] ∧ (fadeS 1 []).kv.fades = [fade 1] ∧ (fade 1).ctx = 7 ∧ (fade 1).layer = none ∧ (fade 1).step = 1 ∧ (((fctx (fadeS 1 [])).pins.any fun (x : KvPin) =>
      x.write) = false) ∧ (((fctx (fadeS 1 [])).layers.any fun (l : KvLayer) => l.tray == TrayState.fixing) = false)) ∧
    ((fadeS 1 [pinW 0 true]).live = true ∧ (fadeS 1 [pinW 0 true]).fw.running = true ∧ (fadeS 1 [pinW 0 true]).kv.ctx 7 = some (fctx (fadeS
      1 [pinW 0 true])) ∧ (fadeS 1 [pinW 0 true]).kv.waiters = [] ∧ (fadeS 1 [pinW 0 true]).kv.fades = [fade 1] ∧ (fade 1).ctx = 7 ∧ (fade
      1).step = 1 ∧ (((fctx (fadeS 1 [pinW 0 true])).pins.any fun (x : KvPin) => x.write) = true ∨ ((fctx (fadeS 1 [pinW 0
      true])).layers.any fun (l : KvLayer) => l.tray == TrayState.fixing) = true)) ∧
    ((fadeS 2 [pinW 1 true]).live = true ∧ (fadeS 2 [pinW 1 true]).fw.running = true ∧ (fadeS 2 [pinW 1 true]).kv.ctx 7 = some (fctx (fadeS
      2 [pinW 1 true])) ∧ (fadeS 2 [pinW 1 true]).kv.waiters = [] ∧ (fadeS 2 [pinW 1 true]).kv.fades = [fade 2] ∧ (fade 2).ctx = 7 ∧ (fade
      2).step = 2 ∧ (((fctx (fadeS 2 [pinW 1 true])).pins.any fun (p : KvPin) => p.gen != (fctx (fadeS 2 [pinW 1 true])).fadeGen) = false) ∧ (fadeS 2 [pinW 1 true]).ctxPool (fctx (fadeS 2 [pinW 1 true])) = some poolX) ∧
    ((fadeS 2 [pinW 0 false]).live = true ∧ (fadeS 2 [pinW 0 false]).fw.running = true ∧ (fadeS 2 [pinW 0 false]).kv.ctx 7 = some (fctx
      (fadeS 2 [pinW 0 false])) ∧ (fadeS 2 [pinW 0 false]).kv.waiters = [] ∧ (fadeS 2 [pinW 0 false]).kv.fades = [fade 2] ∧ (fade 2).ctx =
      7 ∧ (fade 2).step = 2 ∧ (((fctx (fadeS 2 [pinW 0 false])).pins.any fun (p : KvPin) => p.gen != (fctx (fadeS 2 [pinW 0
      false])).fadeGen) = true)) ∧
    ((fadeS 4 []).live = true ∧ (fadeS 4 []).fw.running = true ∧ (fadeS 4 []).kv.ctx 7 = some (fctx (fadeS 4 [])) ∧ (fadeS 4 []).kv.waiters
      = [] ∧ (fadeS 4 []).kv.fades = [fade 4] ∧ (fade 4).ctx = 7 ∧ (fade 4).step = 4 ∧ noRetiring (fadeS 4 []) = true ∧ (fctx (fadeS 4
      [])).notice < 16 ∧ ((fadeS 4 []).chan (fctx (fadeS 4 [])).notice).cpls.length < 64 ∧ ((fadeS 4 []).chan (fctx (fadeS 4
      [])).notice).held = []) := by
  and_intros <;> decide +kernel

theorem witness_reelHeaders :
    (reelS.live = true ∧ (reelS.rport (portOf false)).up = true ∧ (fieldOf hgood 60 4 == crc32 (List.take 60 hgood)) = true ∧ (reelS.round
      (fieldOf hgood 4 1 % 4)).opened = true ∧ fieldOf hgood 16 4 = (reelS.round (fieldOf hgood 4 1 % 4)).round ∧ fieldOf hgood 8 2 =
      (reelS.round (fieldOf hgood 4 1 % 4)).n ∧ ((if fieldOf hgood 5 1 / 2 % 2 = 1 then 2 else 1) = (reelS.round (fieldOf hgood 4 1 %
      4)).mode) ∧ (reelS.round (fieldOf hgood 4 1 % 4)).stepOf (fieldOf hgood 6 2) ≠ 0 ∧ ((reelS.round (fieldOf hgood 4 1 % 4)).step
      ((reelS.round (fieldOf hgood 4 1 % 4)).stepOf (fieldOf hgood 6 2))).outcome = none ∧ (reelS.round (fieldOf hgood 4 1 % 4)).fwdOnly =
      false ∧ (reelS.round (fieldOf hgood 4 1 % 4)).disagrees hgood = false ∧ (reelS.round (fieldOf hgood 4 1 % 4)).maskPasses (fieldOf
      hgood 20 4) (fieldOf hgood 24 4) = true ∧ (reelS.round (fieldOf hgood 4 1 % 4)).slotFree ((reelS.round (fieldOf hgood 4 1 %
      4)).stepOf (fieldOf hgood 6 2)) = true) ∧
    (reelS.live = true ∧ (reelS.rport (portOf false)).up = true ∧ (fieldOf hbad 60 4 == crc32 (List.take 60 hbad)) = false) ∧
    (reelC.live = true ∧ (reelC.rport (portOf false)).up = true ∧ (fieldOf hgood 60 4 == crc32 (List.take 60 hgood)) = true ∧ (reelC.round
      (fieldOf hgood 4 1 % 4)).opened = false) ∧
    ((reelB (BlkState.landing 1)).live = true ∧ ((reelB (BlkState.landing 1)).rport (portOf true)).up = true ∧ (fieldOf hbad 60 4 == crc32
      (List.take 60 hbad)) = false ∧ (reelB (BlkState.landing 1)).inProgress (portOf true) = none) ∧
    (live.live = true ∧ (live.rport (portOf false)).up = false) := by
  have e : hgood.take 60 = hdrBytes := by decide +kernel
  have f : hbad.take 60 = hdrBytes := by decide +kernel
  rw [e, f, crc_hdrBytes]
  and_intros <;> decide +kernel

theorem witness_reelSends :
    (reelS.live = true ∧ ((reelS.rport (portOf false)).up = false ∨ (reelS.rport (portOf false)).credits = 0 ∨ (reelS.rport (portOf
      false)).cur ≠ none ∨ (reelS.rport (portOf false)).queue = [])) ∧
    (reelS.live = true ∧ (reelS.rport (portOf false)).up = true ∧ (reelS.rport (portOf false)).cur = none ∧ (reelS.rport (portOf
      false)).queue = []) ∧
    ((reelQ oF).live = true ∧ ((reelQ oF).rport (portOf false)).up = true ∧ ((reelQ oF).rport (portOf false)).cur = none ∧ ((reelQ
      oF).rport (portOf false)).queue = [oF] ∧ 0 < ((reelQ oF).rport (portOf false)).credits ∧ 0 < oF.units ∧ sendable (reelQ oF) oF
      ((reelQ oF).rport (portOf false)).credits = oF.units ∧ oF.isFwd = true) ∧
    ((reelQ oI).live = true ∧ ((reelQ oI).rport (portOf false)).up = true ∧ ((reelQ oI).rport (portOf false)).cur = none ∧ ((reelQ
      oI).rport (portOf false)).queue = [oI] ∧ 0 < ((reelQ oI).rport (portOf false)).credits ∧ 0 < oI.units ∧ sendable (reelQ oI) oI
      ((reelQ oI).rport (portOf false)).credits = oI.units ∧ oI.isFwd = false ∧ oI.round < 4) ∧
    ((reelQ oBig).live = true ∧ ((reelQ oBig).rport (portOf false)).up = true ∧ ((reelQ oBig).rport (portOf false)).cur = none ∧ ((reelQ
      oBig).rport (portOf false)).queue = [oBig] ∧ 0 < ((reelQ oBig).rport (portOf false)).credits ∧ 0 < oBig.units ∧ sendable (reelQ oBig)
      oBig ((reelQ oBig).rport (portOf false)).credits < oBig.units) ∧
    ((reelCur oBig 0).live = true ∧ ((reelCur oBig 0).rport (portOf false)).up = true ∧ ((reelCur oBig 0).rport (portOf false)).cur = some
      oBig ∧ ((reelCur oBig 0).rport (portOf false)).credits = 0 ∧ sendable (reelCur oBig 0) oBig (5 : BitVec 5).toNat < oBig.units) ∧
    ((reelQ oF).live = true ∧ ((reelQ oF).rport (portOf false)).up = true ∧ ((reelQ oF).rport (portOf false)).cur = none ∧
      (∀ o, ((reelQ oF).rport (portOf false)).queue.head? = some o → o.isFwd = true)) ∧
    (live.live = true ∧ (live.rport (portOf false)).up = false) := by
  and_intros <;> decide +kernel

theorem witness_reelLandings :
    (live.live = true ∧ (List.find? (fun (b : Blk) => b.port == portOf true &&
      (match b.state with | BlkState.landing _ => true | _ => false)) live.reel.blocks = none)) ∧
    (live.live = true ∧ (List.find? (fun (b : Blk) => b.port == portOf true &&
      (match b.state with | BlkState.held n => decide (n ≤ live.now) | _ => false)) live.reel.blocks = none)) ∧
    (live.live = true ∧ (List.find? (fun (b : Blk) => b.port == portOf true &&
      (match b.state with | BlkState.waiting _ n => decide (n ≤ live.now) | _ => false)) live.reel.blocks = none)) ∧
    ((reelB (BlkState.landing 1)).live = true ∧ (List.find? (fun (b : Blk) => b.port == portOf true &&
      (match b.state with | BlkState.landing _ => true | _ => false)) (reelB (BlkState.landing 1)).reel.blocks = some (blk
      (BlkState.landing 1))) ∧ (blk (BlkState.landing 1)).state = BlkState.landing 1 ∧ payl.length = payloadBytes (blk (BlkState.landing
      1)).hdr ∧ ((reelB (BlkState.landing 1)).round (fieldOf (blk (BlkState.landing 1)).hdr 4 1 % 4)).opened = true ∧ ((((reelB
      (BlkState.landing 1)).round (fieldOf (blk (BlkState.landing 1)).hdr 4 1 % 4)).steps.any fun (x : StepRec) => x.k == 1) = true) ∧
      (((reelB (BlkState.landing 1)).round (fieldOf (blk (BlkState.landing 1)).hdr 4 1 % 4)).step 1).outcome = none ∧ (reelB
      (BlkState.landing 1)).haltColumns = [] ∧ ((reelB (BlkState.landing 1)).round (fieldOf (blk (BlkState.landing 1)).hdr 4 1 % 4)).land0
      = some landT ∧ landT.virt = false ∧ landT.limit = none ∧ fieldOf (blk (BlkState.landing 1)).hdr 5 1 / 4 % 2 = 0 ∧ (0 : ℤ) ≤
      landT.base ∧ (0 : ℤ) ≤ landT.scaleBase ∧ ((reelB (BlkState.landing 1)).round (fieldOf (blk (BlkState.landing 1)).hdr 4 1 % 4)).slice
      < 32 ∧ landT.base.toNat + ((reelB (BlkState.landing 1)).round (fieldOf (blk (BlkState.landing 1)).hdr 4 1 % 4)).seq 1 % max 1 ((reelB
      (BlkState.landing 1)).round (fieldOf (blk (BlkState.landing 1)).hdr 4 1 % 4)).nslot * ((reelB (BlkState.landing 1)).round (fieldOf
      (blk (BlkState.landing 1)).hdr 4 1 % 4)).stride + fieldOf (blk (BlkState.landing 1)).hdr 32 4 ≤ 25165824 ∧ landT.scaleBase.toNat +
      ((reelB (BlkState.landing 1)).round (fieldOf (blk (BlkState.landing 1)).hdr 4 1 % 4)).seq 1 % max 1 ((reelB (BlkState.landing
      1)).round (fieldOf (blk (BlkState.landing 1)).hdr 4 1 % 4)).nslot * ((reelB (BlkState.landing 1)).round (fieldOf (blk
      (BlkState.landing 1)).hdr 4 1 % 4)).stride + fieldOf (blk (BlkState.landing 1)).hdr 36 4 ≤ 25165824) ∧
    ((reelB (BlkState.held 900)).live = true ∧ (List.find? (fun (b : Blk) => b.port == portOf true &&
      (match b.state with | BlkState.held n => decide (n ≤ (reelB (BlkState.held 900)).now) | _ => false)) (reelB (BlkState.held
      900)).reel.blocks = some (blk (BlkState.held 900)))) ∧
    ((reelB (BlkState.waiting 1 900)).live = true ∧ (List.find? (fun (b : Blk) => b.port == portOf true &&
      (match b.state with | BlkState.waiting _ n => decide (n ≤ (reelB (BlkState.waiting 1 900)).now) | _ => false)) (reelB
      (BlkState.waiting 1 900)).reel.blocks = some (blk (BlkState.waiting 1 900))) ∧ ((reelB (BlkState.waiting 1 900)).round (fieldOf (blk
      (BlkState.waiting 1 900)).hdr 4 1 % 4)).opened = true ∧ ((((reelB (BlkState.waiting 1 900)).round (fieldOf (blk (BlkState.waiting 1
      900)).hdr 4 1 % 4)).steps.any fun (x : StepRec) => x.k == 1) = true) ∧ (((reelB (BlkState.waiting 1 900)).round (fieldOf (blk
      (BlkState.waiting 1 900)).hdr 4 1 % 4)).step 1).outcome = none ∧ (blk (BlkState.waiting 1 900)).state = .waiting 1 900 ∧ ∀ i : Fin 4,
      ((reelB (BlkState.waiting 1 900)).round i.val).fwdOnly = false) := by
  and_intros <;> decide +kernel

theorem witness_takesTimeOut :
    (live.live = true ∧ (List.find? (fun (e : Entry) => e.op == 161 && e.run?.isSome && e.args.length == 2) (live.sl 0).flight = none)) ∧
    ((takes takeE).live = true ∧ (List.find? (fun (e : Entry) => e.op == 161 && e.run?.isSome && e.args.length == 2) ((takes takeE).sl
      0).flight = some takeE) ∧ takeE.run? = some r0 ∧ takeE.args[1]? = some 990 ∧ 990 ≤ (takes takeE).now ∧ ((takes takeE).round
      takeE.takeStep.1).opened = true ∧ ((((takes takeE).round takeE.takeStep.1).steps.any fun (x : StepRec) => x.k == takeE.takeStep.2) =
      true) ∧ (((takes takeE).round takeE.takeStep.1).step takeE.takeStep.2).outcome = none ∧ stoppedStatus r0.status = false ∧ (∀ y ∈
      ((takes takeE).sl 0).flight, y.key = takeE.key → y = takeE)) ∧
    ((takes takeE').live = true ∧ (List.find? (fun (e : Entry) => e.op == 161 && e.run?.isSome && e.args.length == 2) ((takes takeE').sl
      0).flight = some takeE') ∧ takeE'.args[1]? = some 9900 ∧ (takes takeE').now < 9900) := by
  and_intros <;> decide +kernel

/-- RELEASE of step 3 on channel 1, by counter 2. -/
theorem witness_releaseRuns :
    reelS.takes 0 = true ∧ (reelS.sl 0).stall 0xA2 relF (readsWrites (reelS.sl 0) 0xA2 relF).1 (readsWrites (reelS.sl 0) 0xA2 relF).2 = none ∧
      reelS.descBad 0 0xA2 relF = none ∧ ((reelS.issueCheck 0 0xA2 relF false).toOption).isSome = true ∧ (reelS.sl 0).busy 4 = false ∧
      (reelS.sl 0).queue 4 = [] ∧ reelS.clockStopped 0 = false ∧ (∀ e ∈ (reelS.sl 0).flight, e.key ≠ (reelS.sl 0).seq.nextKey) ∧
      relF.imm.toNat / 2 ^ 54 % 4 = 1 ∧ (((reelS.sl 0).seq.cnt.toList[relF.imm.toNat / 2 ^ 51 % 8]?).getD 0).toNat = 3 ∧
      (reelS.round 1).opened = true ∧ 3 < (reelS.round 1).n := by
  and_intros <;> decide +kernel

theorem witness_reelLinks :
    (live.live = true ∧ (live.rport (portOf true)).up = false) ∧
    (live.live = true ∧ ((List.filter (fun (b : Blk) => b.port == portOf true) live.reel.blocks).getLast? = none)) ∧
    ((reelB BlkState.passing).live = true ∧ (List.filter (fun (b : Blk) => b.port == portOf true) (reelB
      BlkState.passing).reel.blocks).getLast? = some (blk BlkState.passing) ∧ (blk BlkState.passing).whole = true) ∧
    (reelS.live = true ∧ (reelS.rport (portOf true)).up = true ∧ (reelS.round 1).opened = true ∧ (reelS.round 1).portOf 1 = portOf true ∧
      ((reelS.round 1).steps.any fun (x : StepRec) => x.k == 1) = true ∧ ((reelS.round 1).step 1).outcome = none ∧ reelS.reel.blocks = []) ∧
    (reelHalf.live = true ∧ ((List.filter (fun (b : Blk) => b.port == portOf true) reelHalf.reel.blocks).getLast? = some
      { blk BlkState.passing with got := 1 }) ∧ ({ blk BlkState.passing with got := 1 } : Blk).whole = false ∧
      (reelHalf.rport (portOf false)).cur = some oF ∧ oF.isFwd = true ∧ oF.id = (blk BlkState.passing).id) := by
  and_intros <;> decide +kernel

theorem witness_emulsionSamples :
    (cold.live = true ∧ (∀ k : SliceId, (cold.sl k.val).recOut = []) ∧ (1 : Fin 32).val ∈ cold.present ∧ (cold.col 1).thermal ≠ 3) ∧
    (cold.live = true ∧ ((cold.col 1).haltNs = none ∨ cold.now < (cold.col 1).reportNs + 10000000)) ∧
    ((late (hotC 3)).live = true ∧ ((late (hotC 3)).col 1).haltNs.isSome = true ∧ ((late (hotC 3)).col 1).reportNs + 10000000 ≤ (late (hotC
      3)).now) := by
  and_intros <;> decide +kernel

theorem witness_emulsionEvents :
    (cold.live = true ∧ ((cold.col 1).copy = none ∨ (cold.col 1).state ≠ ColState.sparing ∨ (cold.col 1).thermal = 3)) ∧
    (cold.live = true ∧ (cold.ectl.initDone = false ∨ cold.now < cold.ectl.passNs ∨ (cold.columns.any fun (c : ℕ) => (cold.col c).thermal
      == 3) = true)) ∧
    (cold.live = true ∧ cold.start.phase ≠ Start.training) ∧
    (cold.live = true ∧ (cold.ectl.trained = false ∨ cold.ectl.initDone = true)) ∧
    ((sparing 0).live = true ∧ ((sparing 0).col 1).copy = some spC ∧ ((sparing 0).col 1).state = ColState.sparing ∧ ((sparing 0).col
      1).thermal ≠ 3 ∧ (sparing 0).cmds = []) ∧
    (pat.live = true ∧ pat.ectl.initDone = true ∧ pat.ectl.passNs ≤ pat.now ∧ ((pat.columns.any fun (c : ℕ) => (pat.col c).thermal == 3) =
      false) ∧ err1.col = (1 : Fin 32) ∧ (pat.col 1).state = ColState.live ∧ BitVec.toNat err1.offset < 1879048192 ∧ pat.ectl.poisoned = []) ∧
    (patP.live = true ∧ patP.ectl.initDone = true ∧ patP.ectl.passNs ≤ patP.now ∧ ((patP.columns.any fun (c : ℕ) => (patP.col c).thermal ==
      3) = false) ∧ patP.ectl.poisoned = [2 ^ 31 + 64] ∧ (2 ^ 31 + 64) % 64 = 0 ∧ (2 ^ 31 + 64) / 2 ^ 31 = 1 ∧ (patP.col 1).state =
      ColState.live) ∧
    (train.live = true ∧ train.start.phase = Start.training) ∧
    (ini.live = true ∧ ini.ectl.trained = true ∧ ini.ectl.initDone = false) := by
  and_intros <;> decide +kernel

theorem witness_powerMeasurement :
    (live.live = true ∧ live.tb.running = true ∧ (live.start.phase ≠ Start.ready ∨ live.now < live.power.winStart + live.power.windowMs *
      1000000)) ∧
    (liveNoTb.live = true ∧ liveNoTb.tb.running = false) ∧
    ((pwLate 5).live = true ∧ (pwLate 5).start.phase = Start.ready ∧ (pwLate 5).power.winStart + (pwLate 5).power.windowMs * 1000000 ≤
      (pwLate 5).now) := by
  and_intros <;> decide +kernel

theorem witness_thermalSteps :
    (live.live = true ∧ (live.fw.running && live.start.phase == Start.ready) = true) ∧
    (live.live = true ∧ (((List.range 32).any fun (c : ℕ) => decide (2 ≤ (live.col c).thermal)) = false) ∧ (live.power.emulHotNs = none ∨
      Option.any (fun (t : ℕ) => decide (t + 1000000 ≤ live.now)) live.power.emulCoolNs = false)) ∧
    (live.live = true ∧ (((live.sl 0).flight.any fun (e : Entry) => e.unit == 3) = false)) ∧
    (noPh.live = true ∧ (noPh.fw.running && noPh.start.phase == Start.ready) = false) ∧
    ((emLim none none 4 2).live = true ∧ (((List.range 32).any fun (c : ℕ) => decide (2 ≤ ((emLim none none 4 2).col c).thermal)) = true) ∧
      (emLim none none 4 2).power.emulHotNs = none ∧ (((List.range 32).any fun (c : ℕ) => Option.any (fun (t : ℕ) => decide (t + 1000000 ≤
      (emLim none none 4 2).now)) ((emLim none none 4 2).col c).hotNs) = true)) ∧
    ((emLim (some 0) none 2 2).live = true ∧ (((List.range 32).any fun (c : ℕ) => decide (2 ≤ ((emLim (some 0) none 2 2).col c).thermal)) =
      true) ∧ (emLim (some 0) none 2 2).power.emulHotNs.isSome = true ∧ (Option.any (fun (t : ℕ) => decide (t + 1000000 ≤ (emLim (some 0)
      none 2 2).now)) (emLim (some 0) none 2 2).power.emulHotNs = true)) ∧
    ((emLim (some 19999999) none 2 2).live = true ∧ (((List.range 32).any fun (c : ℕ) => decide (2 ≤ ((emLim (some 19999999) none 2 2).col
      c).thermal)) = true) ∧ ((if (emLim (some 19999999) none 2 2).power.emulHotNs.isSome = true then Option.any (fun (t : ℕ) => decide (t
      + 1000000 ≤ (emLim (some 19999999) none 2 2).now)) (emLim (some 19999999) none 2 2).power.emulHotNs else (List.range 32).any fun (c :
      ℕ) => Option.any (fun (t : ℕ) => decide (t + 1000000 ≤ (emLim (some 19999999) none 2 2).now)) ((emLim (some 19999999) none 2 2).col
      c).hotNs) = false)) ∧
    ((emLim (some 0) (some 5) 3 0).live = true ∧ (((List.range 32).any fun (c : ℕ) => decide (2 ≤ ((emLim (some 0) (some 5) 3 0).col
      c).thermal)) = false) ∧ (emLim (some 0) (some 5) 3 0).power.emulHotNs.isSome = true ∧ (Option.any (fun (t : ℕ) => decide (t + 1000000
      ≤ (emLim (some 0) (some 5) 3 0).now)) (emLim (some 0) (some 5) 3 0).power.emulCoolNs = true) ∧ 3 ≤ (emLim (some 0) (some 5) 3
      0).power.emulLimit) ∧
    ((emLim (some 0) (some 5) 1 0).live = true ∧ (((List.range 32).any fun (c : ℕ) => decide (2 ≤ ((emLim (some 0) (some 5) 1 0).col
      c).thermal)) = false) ∧ (emLim (some 0) (some 5) 1 0).power.emulHotNs.isSome = true ∧ (Option.any (fun (t : ℕ) => decide (t + 1000000
      ≤ (emLim (some 0) (some 5) 1 0).now)) (emLim (some 0) (some 5) 1 0).power.emulCoolNs = true) ∧ (emLim (some 0) (some 5) 1
      0).power.emulLimit < 3) := by
  and_intros <;> decide +kernel

theorem witness_operatingPoints :
    (live.live = true ∧ live.start.phase = Start.ready) ∧
    (live.live = true ∧ live.ports.dvfs.settle = none) ∧
    (live.live = true ∧ (live.ports.dvfs.req = false ∨ live.ports.dvfs.switchAt ≠ none ∨ live.ports.dvfs.reqAt + 100000 < live.now)) ∧
    (live.live = true ∧ (live.ports.dvfs.req = false ∨ live.ports.dvfs.switchAt ≠ none ∨ live.now < live.ports.dvfs.reqAt + 100000)) ∧
    (live.live = true ∧ (live.ports.dvfs.req = false ∨ live.ports.dvfs.switchAt = none)) ∧
    (noPh.live = true ∧ noPh.start.phase ≠ Start.ready) ∧
    ((dv dvA).live = true ∧ (dv dvA).ports.dvfs.settle = some 3) ∧
    ((dv dvB).live = true ∧ (dv dvB).ports.dvfs.req = true ∧ (dv dvB).ports.dvfs.switchAt = none ∧ (dv dvB).now ≤ (dv dvB).ports.dvfs.reqAt
      + 100000) ∧
    ((late (dv dvB)).live = true ∧ (late (dv dvB)).ports.dvfs.req = true ∧ (late (dv dvB)).ports.dvfs.switchAt = none ∧ (late (dv
      dvB)).ports.dvfs.reqAt + 100000 ≤ (late (dv dvB)).now) ∧
    ((dv dvC).live = true ∧ (dv dvC).ports.dvfs.req = true ∧ (dv dvC).ports.dvfs.switchAt = some 950 ∧ ((if ((dv dvC).ports.dvfs.atEdge ||
      (dv dvC).timedArmed) = true then (dv dvC).tick.count != (0 : W64) && decide (950 ≤ BitVec.toNat (dv dvC).tick.last) else decide (950 ≤ (dv dvC).now)) =
      false)) ∧
    ((dv dvD).live = true ∧ (dv dvD).ports.dvfs.req = true ∧ (dv dvD).ports.dvfs.switchAt = some 950 ∧ ((if ((dv dvD).ports.dvfs.atEdge ||
      (dv dvD).timedArmed) = true then (dv dvD).tick.count != (0 : W64) && decide (950 ≤ BitVec.toNat (dv dvD).tick.last) else decide (950
      ≤ (dv dvD).now)) = true) ∧ (!(dv dvD).ports.dvfs.therm && decide ((dv dvD).ports.dvfs.op < (dv dvD).power.op) && decide
      ((dv dvD).ports.dvfs.op < (dv dvD).floor)) = false) ∧
    (dvLow.live = true ∧ dvLow.ports.dvfs.req = true ∧ dvLow.ports.dvfs.switchAt = some 950 ∧ dvLow.ports.dvfs.atEdge = false ∧
      dvLow.timedArmed = false ∧ 950 ≤ dvLow.now ∧ (!dvLow.ports.dvfs.therm && decide (dvLow.ports.dvfs.op < dvLow.power.op) && decide
      (dvLow.ports.dvfs.op < dvLow.floor)) = true) ∧
    (dvTimed.live = true ∧ dvTimed.ports.dvfs.req = true ∧ dvTimed.ports.dvfs.switchAt = some 950 ∧ dvTimed.ports.dvfs.atEdge = false ∧
      dvTimed.timedArmed = true ∧ (dvTimed.tick.count != (0 : W64) && decide (950 ≤ BitVec.toNat dvTimed.tick.last)) = false) := by
  and_intros <;> decide +kernel

theorem witness_supplyWarnings :
    (live.live = true ∧ live.start.phase = Start.ready) ∧
    (live.live = true ∧ live.pins.supplyWarn = false) ∧
    (live.live = true ∧ live.power.clampUntil = none) ∧
    (noPh.live = true ∧ noPh.start.phase ≠ Start.ready) ∧
    ((clampS none true).live = true ∧ (clampS none true).pins.supplyWarn = true) ∧
    ((clampS (some 900) false).live = true ∧ (clampS (some 900) false).power.clampUntil = some 900 ∧ 900 ≤ (clampS (some 900) false).now) ∧
    ((clampS (some 2000) false).live = true ∧ (clampS (some 2000) false).power.clampUntil = some 2000 ∧ (clampS (some 2000) false).now <
      2000) := by
  and_intros <;> decide +kernel

theorem witness_resetAndTest :
    (live.pins.resetLow = false) ∧
    (live.live = true ∧ (!live.node.valid && true && BitVec.setWidth 12 (5 : W64) != (0 : W12) && BitVec.setWidth 12 (5 : W64) != (4095 :
      W12)) = true) ∧
    (live.live = true ∧ (!live.node.valid && false && BitVec.setWidth 12 (5 : W64) != (0 : W12) && BitVec.setWidth 12 (5 : W64) != (4095 :
      W12)) = false) ∧
    (low.pins.resetLow = true) := by
  and_intros <;> decide +kernel

theorem witness_startUpSteps :
    (lockS.live = true ∧ (lockS.start.phase == Start.steps && !lockS.start.done.contains 0) = true ∧ 200 ≤ 200) ∧
    (lockS.live = true ∧ (lockS.start.phase ≠ Start.steps ∨ lockS.start.done.length ≠ 4)) ∧
    (lockS.live = true ∧ ((lockS.start.phase == Start.steps && !lockS.start.done.contains 0) = false ∨ 200 < 201)) ∧
    (zeroS.live = true ∧ (zeroS.start.phase == Start.steps && !zeroS.start.done.contains 0) = false) ∧
    (zeroS.live = true ∧ zeroS.start.phase = Start.steps ∧ zeroS.start.done.length = 4) ∧
    (stopS.live = true ∧ stopS.start.phase = Start.stoppedLock) := by
  and_intros <;> decide +kernel

theorem witness_firmwareBoots :
    (live.live = true ∧ live.start.phase ≠ Start.boot) ∧
    (live.live = true ∧ (live.fw.running = true ∨ live.start.phase ≠ Start.ready)) ∧
    (live.live = true ∧ live.fw.dogUntil = none) ∧
    (bootS.live = true ∧ bootS.start.phase = Start.boot ∧ bootS.slotCheck bootS.fw.boot.preferred = none) ∧
    (bootF.live = true ∧ bootF.start.phase = Start.boot ∧ bootF.slotCheck bootF.fw.boot.preferred ≠ none ∧ bootF.slotCheck (3 -
      bootF.fw.boot.preferred) = none) ∧
    ((rdy bootS).live = true ∧ (rdy bootS).fw.running = false ∧ (rdy bootS).start.phase = Start.ready ∧ (rdy bootS).slotCheck (rdy
      bootS).fw.boot.preferred = none) ∧
    ((rdy bootF).live = true ∧ (rdy bootF).fw.running = false ∧ (rdy bootF).start.phase = Start.ready ∧ (rdy bootF).slotCheck (rdy
      bootF).fw.boot.preferred ≠ none ∧ (rdy bootF).slotCheck (3 - (rdy bootF).fw.boot.preferred) = none) ∧
    ((rdy bootX).live = true ∧ (rdy bootX).fw.running = false ∧ (rdy bootX).start.phase = Start.ready ∧ (rdy bootX).slotCheck (rdy
      bootX).fw.boot.preferred ≠ none ∧ (rdy bootX).slotCheck (3 - (rdy bootX).fw.boot.preferred) ≠ none) ∧
    (bootX.live = true ∧ bootX.start.phase = Start.boot ∧ bootX.slotCheck bootX.fw.boot.preferred ≠ none ∧ bootX.slotCheck (3 -
      bootX.fw.boot.preferred) ≠ none) ∧
    ((dog 5).live = true ∧ (dog 5).fw.dogUntil = some 5 ∧ 5 ≤ (dog 5).now ∧ (dog 5).cmds = []) ∧
    ((dog 5000).live = true ∧ (dog 5000).fw.dogUntil = some 5000 ∧ (dog 5000).now < 5000) := by
  and_intros <;> decide +kernel

theorem witness_maintenanceSteps :
    (live.live = true ∧ (live.fw.running && live.start.phase == Start.ready && decide (0 < live.chip.model.slices) && (live.sl 0).state ==
      SliceState.cold) = true ∧ live.cmds = []) ∧
    (live.live = true ∧ (live.power.wakes = [] ∨ live.power.clamp = true ∨ 2 ≤ (List.filter (fun (n : ℕ) => decide (live.now ≤ n + 4000))
      live.power.admits).length)) ∧
    (live.live = true ∧ live.start.phase = Start.ready ∧ (∀ n, live.scrub.startNs = some n → n ≤ live.now)) ∧
    ((wk [0] []).live = true ∧ ((wk [0] []).fw.running && (wk [0] []).start.phase == Start.ready && decide (0 < (wk [0]
      []).chip.model.slices) && ((wk [0] []).sl 0).state == SliceState.cold) = false) ∧
    ((wk [0] []).live = true ∧ (wk [0] []).power.wakes = [0] ∧ (wk [0] []).power.clamp = false ∧ ((List.filter (fun (n : ℕ) => decide ((wk
      [0] []).now ≤ n + 4000)) (wk [0] []).power.admits).length < 2)) ∧
    ((wk [0] []).live = true ∧ (wk [0] []).start.phase = Start.ready ∧ (∀ n, (wk [0] []).scrub.startNs = some n → n ≤ (wk [0] []).now) ∧ (cfgE (3 :
      W12)).slice = (0 : SliceId) ∧ 0 < (wk [0] []).chip.model.slices ∧ ((wk [0] []).sl 0).state ≠ SliceState.off ∧ ((wk [0] []).sl
      0).state ≠ SliceState.cold ∧ BitVec.toNat (cfgE (3 : W12)).frame < 3140) ∧
    (noPh.live = true ∧ (noPh.fw.running && noPh.start.phase == Start.ready && decide (0 < noPh.chip.model.slices) && (noPh.sl 0).state ==
      SliceState.cold) = false) ∧
    (noPh.live = true ∧ (noPh.power.wakes = [] ∨ noPh.power.clamp = true ∨ 2 ≤ (List.filter (fun (n : ℕ) => decide (noPh.now ≤ n + 4000))
      noPh.power.admits).length)) ∧
    (noPh.live = true ∧ noPh.start.phase ≠ Start.ready) ∧
    (scrubbed.live = true ∧ ∃ n, scrubbed.scrub.startNs = some n ∧ scrubbed.now < n) := by
  and_intros <;> decide +kernel

theorem witness_mailboxChecks :
    (live.live = true ∧ pc 0 (0 : BitVec 4) ∈ mailCommands ch (0 : BitVec 4) ∧ (live.fw.running = false ∨ (live.chan 3).running = none ∧
      live.fw.conts = [])) ∧
    ((serv live c1b).live = true ∧ pc 0 (0 : BitVec 4) ∈ mailCommands ch (0 : BitVec 4) ∧ serving (serv live c1b) ch c1b (pc 0 (0 : BitVec
      4)).2.1 = true ∧ noRetiring (serv live c1b) = true ∧ 16 ≤ 30 ∧ 30 < 64 ∧ covered (pc 0 (0 : BitVec 4)).2.2 30 = false ∧
      c1b.msg[30]?.getD (0 : Byte) ≠ (0 : Byte) ∧ (((List.range' 16 (30 - 16)).all fun (j : ℕ) => covered (pc 0 (0 : BitVec 4)).2.2 j ||
      c1b.msg[j]?.getD (0 : Byte) == (0 : Byte)) = true)) := by
  and_intros <;> decide +kernel

theorem witness_mailboxReports :
    (serving (serv live c1) ch c1 1 = true ∧ clean c1 [(16, 8)] = true) ∧
    (serving (serv live c2) ch c2 2 = true ∧ clean c2 [] = true) ∧
    (serving (serv live c1D) ch c1D 29 = true ∧ clean c1D [] = true) ∧
    (serving (serv live (cGet 257 0)) ch (cGet 257 0) 12 = true ∧ clean (cGet 257 0) [(16, 2), (18, 1)] = true ∧ settingInfo (serv live
      (cGet 257 0)).chip.model ((cGet 257 0).f 16 2) = some tickInfo ∧ (cGet 257 0).f 18 1 ≤ 2 ∧ ((cGet 257 0).f 18 1 = 1 → (serv live
      (cGet 257 0)).fw.state ≠ FwState.limited)) ∧
    (serving (serv live (cGet 257 3)) ch (cGet 257 3) 12 = true ∧ clean (cGet 257 3) [(16, 2), (18, 1)] = true ∧ settingInfo (serv live
      (cGet 257 3)).chip.model ((cGet 257 3).f 16 2) = some tickInfo ∧ 2 < (cGet 257 3).f 18 1) ∧
    (serving (serv live (cGet 2457 0)) ch (cGet 2457 0) 12 = true ∧ clean (cGet 2457 0) [(16, 2), (18, 1)] = true ∧ settingInfo (serv live
      (cGet 2457 0)).chip.model ((cGet 2457 0).f 16 2) = none) ∧
    (serving (serv kvC (cQ 7 0 0)) ch (cQ 7 0 0) 16 = true ∧ clean (cQ 7 0 0) [(16, 5), (24, 14)] = true ∧ (serv kvC (cQ 7 0 0)).kv.ctx
      ((cQ 7 0 0).f 16 2) = some (ctx1 [layFull]) ∧ (cQ 7 0 0).f 18 2 < (ctx1 [layFull]).layers.length ∧ ((cQ 7 0 0).f 20 1 = 0 ∨ (cQ 7 0
      0).f 20 1 = 1 ∧ 1 ≤ (cQ 7 0 0).f 36 2 ∧ (cQ 7 0 0).f 36 2 ≤ 4095) ∧ (decide ((cQ 7 0 0).f 24 8 % 64 = 0 ∧ ((cQ 7 0 0).f 24 8 + if (cQ
      7 0 0).f 20 1 = 0 then 64 else 16 * (cQ 7 0 0).f 36 2) ≤ 2 ^ 52) = true)) ∧
    (serving (serv kvC (cQ 8 0 0)) ch (cQ 8 0 0) 16 = true ∧ clean (cQ 8 0 0) [(16, 5), (24, 14)] = true ∧ (serv kvC (cQ 8 0 0)).kv.ctx
      ((cQ 8 0 0).f 16 2) = none) ∧
    (serving (serv logged cCs) ch cCs 18 = true ∧ clean cCs [(16, 4), (20, 1), (24, 8)] = true ∧ cCs.f 20 1 ≤ 1 ∧ 1 ≤ cCs.f 16 4 ∧ cCs.f 16
      4 ≤ 32768 ∧ (decide (cCs.f 24 8 % 64 = 0 ∧ cCs.f 24 8 + 32 * cCs.f 16 4 ≤ 2 ^ 52) = true) ∧ (serv logged cCs).sheet.spillOn = false) ∧
    (serving (serv spillS cCs) ch cCs 18 = true ∧ clean cCs [(16, 4), (20, 1), (24, 8)] = true ∧ cCs.f 20 1 ≤ 1 ∧ 1 ≤ cCs.f 16 4 ∧ cCs.f 16
      4 ≤ 32768 ∧ (decide (cCs.f 24 8 % 64 = 0 ∧ cCs.f 24 8 + 32 * cCs.f 16 4 ≤ 2 ^ 52) = true) ∧ (serv spillS cCs).sheet.spillOn = true) ∧
    (serving (serv live (cCert 1)) ch (cCert 1) 27 = true ∧ clean (cCert 1) [(16, 1), (24, 8), (32, 4)] = true ∧ (cCert 1).f 16 1 ≤ 2 ∧
      (decide ((cCert 1).f 24 8 % 64 = 0 ∧ (cCert 1).f 24 8 + (cCert 1).f 32 4 ≤ 2 ^ 52) = true)) ∧
    (serving (serv live (cCert 3)) ch (cCert 3) 27 = true ∧ clean (cCert 3) [(16, 1), (24, 8), (32, 4)] = true ∧ 2 < (cCert 3).f 16 1) ∧
    (serving (serv live cAtt) ch cAtt 28 = true ∧ clean cAtt [(24, 8), (32, 4), (40, 8), (48, 4)] = true ∧ (decide (cAtt.f 24 8 % 64 = 0 ∧
      cAtt.f 24 8 + cAtt.f 32 4 ≤ 2 ^ 52) = true) ∧ 4 ≤ cAtt.f 32 4 ∧ cAtt.f 32 4 ≤ 4096 ∧ (decide (cAtt.f 40 8 % 64 = 0 ∧ cAtt.f 40 8 +
      cAtt.f 48 4 ≤ 2 ^ 52) = true)) ∧
    (serving attLost ch cAtt 28 = true ∧ attLost.sec.resync = true ∧ fieldOf (attLost.ext.readN (cAtt.f 24 8) (cAtt.f 32 4)) 1 1 ≠ 0x84) ∧
    (serving (serv live cAtt) ch cAtt 28 = true ∧ (serv live cAtt).sec.resync = false ∧ fieldOf ((serv live cAtt).ext.readN (cAtt.f 24 8)
      (cAtt.f 32 4)) 1 1 ∉ [0x84, 0xE1, 0xE3, 0x81, 0x82, 0x83, 0xE0]) := by
  and_intros <;> decide +kernel

theorem witness_settingsChange :
    (serving (serv live sm1) ch sm1 11 = true ∧ clean sm1 [(16, 2), (18, 1), (24, 8)] = true ∧ sm1.f 18 1 ≤ 1 ∧ settingInfo (serv live
      sm1).chip.model (sm1.f 16 2) = none) ∧
    (serving (serv live sm2) ch sm2 11 = true ∧ clean sm2 [(16, 2), (18, 1), (24, 8)] = true ∧ sm2.f 18 1 ≤ 1 ∧ settingInfo (serv live
      sm2).chip.model (sm2.f 16 2) = some i1 ∧ i1.inRange (BitVec.ofNat 64 (sm2.f 24 8)) = false) ∧
    (serving (serv run sm3) ch sm3 11 = true ∧ clean sm3 [(16, 2), (18, 1), (24, 8)] = true ∧ sm3.f 18 1 ≤ 1 ∧ settingInfo (serv run
      sm3).chip.model (sm3.f 16 2) = some i2 ∧ i2.inRange (BitVec.ofNat 64 (sm3.f 24 8)) = true ∧ (serv run sm3).settingRefused (sm3.f 16
      2) 1 (sm3.f 18 1 == 1) = true) ∧
    (serving (serv live sm4) ch sm4 11 = true ∧ clean sm4 [(16, 2), (18, 1), (24, 8)] = true ∧ sm4.f 18 1 ≤ 1 ∧ settingInfo (serv live
      sm4).chip.model (sm4.f 16 2) = some i3 ∧ i3.inRange (BitVec.ofNat 64 (sm4.f 24 8)) = true ∧ (serv live sm4).settingRefused (sm4.f 16
      2) 10000 (sm4.f 18 1 == 1) = false ∧ (serv live sm4).comboBad (sm4.f 16 2) 10000 (some 3) = some (770, 0)) ∧
    (serving (serv tk sm5) ch sm5 11 = true ∧ clean sm5 [(16, 2), (18, 1), (24, 8)] = true ∧ sm5.f 18 1 ≤ 1 ∧ settingInfo (serv tk
      sm5).chip.model (sm5.f 16 2) = some i1 ∧ i1.inRange (BitVec.ofNat 64 (sm5.f 24 8)) = true ∧ (!(serv tk sm5).settingRefused (sm5.f 16
      2) 5000 (sm5.f 18 1 == 1) && ((serv tk sm5).comboBad (sm5.f 16 2) 5000 (some 3)).isNone) = true ∧ (sm5.f 18 1 == 1) = false) ∧
    (serving (serv live sm6) ch sm6 11 = true ∧ clean sm6 [(16, 2), (18, 1), (24, 8)] = true ∧ sm6.f 18 1 ≤ 1 ∧ settingInfo (serv live
      sm6).chip.model (sm6.f 16 2) = some i1 ∧ i1.inRange (BitVec.ofNat 64 (sm6.f 24 8)) = true ∧ (!(serv live sm6).settingRefused (sm6.f
      16 2) 5000 (sm6.f 18 1 == 1) && ((serv live sm6).comboBad (sm6.f 16 2) 5000 (some 3)).isNone) = true ∧ (sm6.f 18 1 == 1) = true ∧
      (serv live sm6).fw.state = FwState.committed ∧ (serv live sm6).pins.supplyWarn = false ∧ 0 ≤ 8) ∧
    (serving (serv live sm6) ch sm6 11 = true ∧ clean sm6 [(16, 2), (18, 1), (24, 8)] = true ∧ sm6.f 18 1 ≤ 1 ∧ settingInfo (serv live
      sm6).chip.model (sm6.f 16 2) = some i1 ∧ i1.inRange (BitVec.ofNat 64 (sm6.f 24 8)) = true ∧ (!(serv live sm6).settingRefused (sm6.f
      16 2) 5000 (sm6.f 18 1 == 1) && ((serv live sm6).comboBad (sm6.f 16 2) 5000 (some 3)).isNone) = true ∧ (sm6.f 18 1 == 1) = true ∧
      (serv live sm6).fw.state = FwState.committed ∧ (serv live sm6).pins.supplyWarn = false ∧ 8 < 9) ∧
    (serving (serv warnS sm6) ch sm6 11 = true ∧ clean sm6 [(16, 2), (18, 1), (24, 8)] = true ∧ sm6.f 18 1 ≤ 1 ∧ settingInfo (serv warnS
      sm6).chip.model (sm6.f 16 2) = some i1 ∧ i1.inRange (BitVec.ofNat 64 (sm6.f 24 8)) = true ∧ (!(serv warnS sm6).settingRefused (sm6.f
      16 2) 5000 (sm6.f 18 1 == 1) && ((serv warnS sm6).comboBad (sm6.f 16 2) 5000 (some 3)).isNone) = true ∧ (sm6.f 18 1 == 1) = true ∧
      (serv warnS sm6).fw.state = FwState.committed ∧ (serv warnS sm6).pins.supplyWarn = true) ∧
    (serving (serv trialS sm6) ch sm6 11 = true ∧ clean sm6 [(16, 2), (18, 1), (24, 8)] = true ∧ sm6.f 18 1 ≤ 1 ∧ settingInfo (serv trialS
      sm6).chip.model (sm6.f 16 2) = some i1 ∧ i1.inRange (BitVec.ofNat 64 (sm6.f 24 8)) = true ∧ (!(serv trialS sm6).settingRefused (sm6.f
      16 2) 5000 (sm6.f 18 1 == 1) && ((serv trialS sm6).comboBad (sm6.f 16 2) 5000 (some 3)).isNone) = true ∧ (sm6.f 18 1 == 1) = true ∧
      (serv trialS sm6).fw.state ≠ FwState.committed) := by
  and_intros <;> decide +kernel

theorem witness_powerAndTimeCommands :
    (serving (serv live (cPow 5 0)) ch (cPow 5 0) 21 = true ∧ clean (cPow 5 0) [(16, 2), (18, 1), (20, 4)] = true ∧ (cPow 5 0).f 18 1 = 0 ∧
      ((cPow 5 0).f 20 4 = 0 ∨ 10 ≤ (cPow 5 0).f 20 4 ∧ (cPow 5 0).f 20 4 ≤ 1000) ∧ ((cPow 5 0).f 16 2 < (serv live (cPow 5
      0)).chip.model.capMinW ∨ (serv live (cPow 5 0)).chip.model.peakW < (cPow 5 0).f 16 2)) ∧
    (serving (serv live (cPow 300 0)) ch (cPow 300 0) 21 = true ∧ clean (cPow 300 0) [(16, 2), (18, 1), (20, 4)] = true ∧ (cPow 300 0).f 18
      1 = 0 ∧ ((cPow 300 0).f 20 4 = 0 ∨ 10 ≤ (cPow 300 0).f 20 4 ∧ (cPow 300 0).f 20 4 ≤ 1000) ∧ (serv live (cPow 300
      0)).chip.model.capMinW ≤ (cPow 300 0).f 16 2 ∧ (cPow 300 0).f 16 2 ≤ (serv live (cPow 300 0)).chip.model.peakW) ∧
    (serving (serv live (cTh 0)) ch (cTh 0) 22 = true ∧ clean (cTh 0) [(16, 1), (17, 1), (18, 2), (20, 4), (24, 4), (28, 2)] = true ∧ (cTh
      0).f 16 1 = 1 ∧ 1 < (serv live (cTh 0)).chip.model.quads ∧ (cTh 0).f 17 1 = 0 ∧ 280 ≤ (cTh 0).f 18 2 ∧ (cTh 0).f 18 2 ≤ 420 ∧ 50 ≤
      (cTh 0).f 20 4 ∧ (cTh 0).f 20 4 ≤ 5000 ∧ 1000 ≤ (cTh 0).f 24 4 ∧ (cTh 0).f 24 4 ≤ 1000000 ∧ 1 ≤ (cTh 0).f 28 2 ∧ (cTh 0).f 28 2 ≤ 100) ∧
    (serving (serv live (cTh 2)) ch (cTh 2) 22 = true ∧ clean (cTh 2) [(16, 1), (17, 1), (18, 2), (20, 4), (24, 4), (28, 2)] = true ∧ (cTh
      2).f 16 1 = 1 ∧ 1 < (serv live (cTh 2)).chip.model.quads ∧ (cTh 2).f 17 1 = 2) ∧
    (serving (serv live (cTs 0 1000)) ch (cTs 0 1000) 31 = true ∧ clean (cTs 0 1000) [(16, 2), (18, 1), (24, 8)] = true ∧ (cTs 0 1000).f 18
      1 ≤ 1 ∧ ((serv live (cTs 0 1000)).tb.lastCap.isNone || (cTs 0 1000).f 16 2 != BitVec.toNat (serv live (cTs 0 1000)).tb.seq) = true) ∧
    (serving (serv (capd live) (cTs 0 1000)) ch (cTs 0 1000) 31 = true ∧ clean (cTs 0 1000) [(16, 2), (18, 1), (24, 8)] = true ∧ (cTs 0
      1000).f 18 1 = 0 ∧ ((serv (capd live) (cTs 0 1000)).tb.lastCap.isNone || (cTs 0 1000).f 16 2 != BitVec.toNat (serv (capd live) (cTs 0
      1000)).tb.seq) = false ∧ (0 : ℤ) ≤ ↑((cTs 0 1000).f 24 8) + (serv (capd live) (cTs 0 1000)).settingInt 260 - ↑(BitVec.toNat (serv
      (capd live) (cTs 0 1000)).tb.capture) - (serv (capd live) (cTs 0 1000)).tb.capAdj ∧ ((((serv (capd live) (cTs 0
      1000)).reel.rounds.toList.any fun (x : Round) => x.opened) || (serv (capd live) (cTs 0 1000)).present.any fun (k : ℕ) => ((serv (capd
      live) (cTs 0 1000)).sl k).state == SliceState.running || ((serv (capd live) (cTs 0 1000)).sl k).state == SliceState.draining) =
      false)) ∧
    (serving (serv (capd live) (cTs 0 10)) ch (cTs 0 10) 31 = true ∧ clean (cTs 0 10) [(16, 2), (18, 1), (24, 8)] = true ∧ (cTs 0 10).f 18
      1 = 0 ∧ ((serv (capd live) (cTs 0 10)).tb.lastCap.isNone || (cTs 0 10).f 16 2 != BitVec.toNat (serv (capd live) (cTs 0 10)).tb.seq) =
      false ∧ (↑((cTs 0 10).f 24 8) + (serv (capd live) (cTs 0 10)).settingInt 260 - ↑(BitVec.toNat (serv (capd live) (cTs 0
      10)).tb.capture) - (serv (capd live) (cTs 0 10)).tb.capAdj < (0 : ℤ) ∨ (((serv (capd live) (cTs 0 10)).reel.rounds.toList.any fun (x
      : Round) => x.opened) || (serv (capd live) (cTs 0 10)).present.any fun (k : ℕ) => ((serv (capd live) (cTs 0 10)).sl k).state ==
      SliceState.running || ((serv (capd live) (cTs 0 10)).sl k).state == SliceState.draining) = true)) ∧
    (serving (serv (capd run) (cTs 1 1000)) ch (cTs 1 1000) 31 = true ∧ clean (cTs 1 1000) [(16, 2), (18, 1), (24, 8)] = true ∧ (cTs 1
      1000).f 18 1 = 1 ∧ ((serv (capd run) (cTs 1 1000)).tb.lastCap.isNone || (cTs 1 1000).f 16 2 != BitVec.toNat (serv (capd run) (cTs 1
      1000)).tb.seq) = false ∧ (((cTs 1 1000).f 24 8) + (serv (capd run) (cTs 1 1000)).settingInt 260 - ↑(BitVec.toNat (serv (capd run)
      (cTs 1 1000)).tb.capture) - (serv (capd run) (cTs 1 1000)).tb.capAdj).natAbs ≤ 1000000) ∧
    (serving (serv (capd run) (cTs 1 10000000)) ch (cTs 1 10000000) 31 = true ∧ clean (cTs 1 10000000) [(16, 2), (18, 1), (24, 8)] = true ∧
      (cTs 1 10000000).f 18 1 = 1 ∧ ((serv (capd run) (cTs 1 10000000)).tb.lastCap.isNone || (cTs 1 10000000).f 16 2 != BitVec.toNat (serv
      (capd run) (cTs 1 10000000)).tb.seq) = false ∧ 1000000 < (((cTs 1 10000000).f 24 8) + (serv (capd run) (cTs 1 10000000)).settingInt
      260 - ↑(BitVec.toNat (serv (capd run) (cTs 1 10000000)).tb.capture) - (serv (capd run) (cTs 1 10000000)).tb.capAdj).natAbs) ∧
    (serving (serv (capd run) (cTs 2 10000000)) ch (cTs 2 10000000) 31 = true ∧ clean (cTs 2 10000000) [(16, 2), (18, 1), (24, 8)] = true ∧
      1 < (cTs 2 10000000).f 18 1) := by
  and_intros <;> decide +kernel

theorem witness_programCommands :
    (serving (serv run (cLoad 0)) ch (cLoad 0) 4 = true ∧ clean (cLoad 0) [(16, 1), (24, 8), (32, 4)] = true ∧ (cLoad 0).f 16 1 < (serv run
      (cLoad 0)).chip.model.slices ∧ bufferOk (cLoad 0) 24 ((cLoad 0).f 32 4) = true ∧ (cLoad 0).f 32 4 ≤ 2 ^ 20 ∧ (serv run (cLoad
      0)).isAvail ((cLoad 0).f 16 1) = true ∧ (((serv run (cLoad 0)).sl ((cLoad 0).f 16 1)).state == SliceState.ready || ((serv run (cLoad
      0)).sl ((cLoad 0).f 16 1)).state == SliceState.running || ((serv run (cLoad 0)).sl ((cLoad 0).f 16 1)).state == SliceState.service) =
      true ∧ ((serv run (cLoad 0)).sl ((cLoad 0).f 16 1)).switchReq = false ∧ (⟨serv run (cLoad 0), (cLoad 0).f 16 1, (cLoad 0).f 16 1,
      (serv run (cLoad 0)).ext.readN ((cLoad 0).f 24 8) ((cLoad 0).f 32 4), false⟩ : Verify).verdict = Except.error (rj run)) ∧
    (serving (serv run (cLoad 40)) ch (cLoad 40) 4 = true ∧ clean (cLoad 40) [(16, 1), (24, 8), (32, 4)] = true ∧ (serv run (cLoad
      40)).chip.model.slices ≤ (cLoad 40).f 16 1) ∧
    (serving (serv cldS (cLoad 0)) ch (cLoad 0) 4 = true ∧ clean (cLoad 0) [(16, 1), (24, 8), (32, 4)] = true ∧ (cLoad 0).f 16 1 < (serv
      cldS (cLoad 0)).chip.model.slices ∧ bufferOk (cLoad 0) 24 ((cLoad 0).f 32 4) = true ∧ (cLoad 0).f 32 4 ≤ 2 ^ 20 ∧ ((serv cldS (cLoad
      0)).isAvail ((cLoad 0).f 16 1) = false ∨ (((serv cldS (cLoad 0)).sl ((cLoad 0).f 16 1)).state == SliceState.ready || ((serv cldS
      (cLoad 0)).sl ((cLoad 0).f 16 1)).state == SliceState.running || ((serv cldS (cLoad 0)).sl ((cLoad 0).f 16 1)).state ==
      SliceState.service) = false)) ∧
    (serving (serv swS (cLoad 0)) ch (cLoad 0) 4 = true ∧ clean (cLoad 0) [(16, 1), (24, 8), (32, 4)] = true ∧ (cLoad 0).f 16 1 < (serv swS
      (cLoad 0)).chip.model.slices ∧ bufferOk (cLoad 0) 24 ((cLoad 0).f 32 4) = true ∧ (cLoad 0).f 32 4 ≤ 2 ^ 20 ∧ (serv swS (cLoad
      0)).isAvail ((cLoad 0).f 16 1) = true ∧ (((serv swS (cLoad 0)).sl ((cLoad 0).f 16 1)).state == SliceState.ready || ((serv swS (cLoad
      0)).sl ((cLoad 0).f 16 1)).state == SliceState.running || ((serv swS (cLoad 0)).sl ((cLoad 0).f 16 1)).state == SliceState.service) =
      true ∧ ((serv swS (cLoad 0)).sl ((cLoad 0).f 16 1)).switchReq = true) ∧
    (serving (serv run (cVer 0 0)) ch (cVer 0 0) 5 = true ∧ clean (cVer 0 0) [(16, 1), (20, 1), (24, 8), (32, 4), (40, 8), (48, 4)] = true
      ∧ (cVer 0 0).f 16 1 < (serv run (cVer 0 0)).chip.model.slices ∧ bufferOk (cVer 0 0) 24 ((cVer 0 0).f 32 4) = true ∧ (cVer 0 0).f 32 4
      ≤ 2 ^ 20 ∧ bufferOk (cVer 0 0) 40 ((cVer 0 0).f 48 4) = true ∧ (cVer 0 0).f 20 1 = 0 ∧ ((serv run (cVer 0 0)).sl ((cVer 0 0).f 16
      1)).state ≠ SliceState.cold ∧ (⟨serv run (cVer 0 0), (cVer 0 0).f 16 1, (cVer 0 0).f 16 1, (serv run (cVer 0 0)).ext.readN ((cVer 0
      0).f 24 8) ((cVer 0 0).f 32 4), false⟩ : Verify).verdict = Except.error (rj run)) ∧
    (serving (serv run (cVer 0 1)) ch (cVer 0 1) 5 = true ∧ clean (cVer 0 1) [(16, 1), (20, 1), (24, 8), (32, 4), (40, 8), (48, 4)] = true
      ∧ (cVer 0 1).f 16 1 < (serv run (cVer 0 1)).chip.model.slices ∧ bufferOk (cVer 0 1) 24 ((cVer 0 1).f 32 4) = true ∧ (cVer 0 1).f 32 4
      ≤ 2 ^ 20 ∧ bufferOk (cVer 0 1) 40 ((cVer 0 1).f 48 4) = true ∧ (cVer 0 1).f 20 1 = 1 ∧ (⟨serv run (cVer 0 1), (cVer 0 1).f 16 1,
      (cVer 0 1).f 16 1, (serv run (cVer 0 1)).ext.readN ((cVer 0 1).f 24 8) ((cVer 0 1).f 32 4), true⟩ : Verify).verdict = Except.error
      (rj run)) ∧
    (serving (serv cldS (cVer 0 0)) ch (cVer 0 0) 5 = true ∧ clean (cVer 0 0) [(16, 1), (20, 1), (24, 8), (32, 4), (40, 8), (48, 4)] = true
      ∧ (cVer 0 0).f 16 1 < (serv cldS (cVer 0 0)).chip.model.slices ∧ bufferOk (cVer 0 0) 24 ((cVer 0 0).f 32 4) = true ∧ (cVer 0 0).f 32
      4 ≤ 2 ^ 20 ∧ bufferOk (cVer 0 0) 40 ((cVer 0 0).f 48 4) = true ∧ (cVer 0 0).f 20 1 % 2 = 0 ∧ (cVer 0 0).f 20 1 < 4 ∧ ((serv cldS
      (cVer 0 0)).sl ((cVer 0 0).f 16 1)).state = SliceState.cold) ∧
    (serving (serv rdyS (cArm 1 0)) ch (cArm 1 0) 6 = true ∧ clean (cArm 1 0) [(16, 4), (20, 1)] = true ∧ (∀ j ∈ maskBits 32 ((cArm 1 0).f
      16 4), j < (serv rdyS (cArm 1 0)).chip.model.slices) ∧ (cArm 1 0).f 20 1 ≤ 1 ∧ (serv rdyS (cArm 1 0)).armRefused (maskBits 32 ((cArm
      1 0).f 16 4)) ((cArm 1 0).f 20 1 == 1) = none ∧ ((cArm 1 0).f 20 1 == 1) = false) ∧
    (serving (serv run (cArm 1 0)) ch (cArm 1 0) 6 = true ∧ clean (cArm 1 0) [(16, 4), (20, 1)] = true ∧ (∀ j ∈ maskBits 32 ((cArm 1 0).f
      16 4), j < (serv run (cArm 1 0)).chip.model.slices) ∧ (cArm 1 0).f 20 1 ≤ 1 ∧ (List.find? (fun (j : ℕ) => ((serv run (cArm 1 0)).sl
      j).state != if ((cArm 1 0).f 20 1 == 1) = true then SliceState.running else SliceState.ready) (maskBits 32 ((cArm 1 0).f 16 4)) =
      some 0)) ∧
    (serving (serv run (cArm 1 0)) ch (cArm 1 0) 6 = true ∧ clean (cArm 1 0) [(16, 4), (20, 1)] = true ∧ (∀ j ∈ maskBits 32 ((cArm 1 0).f
      16 4), j < (serv run (cArm 1 0)).chip.model.slices) ∧ (cArm 1 0).f 20 1 ≤ 1 ∧ (serv run (cArm 1 0)).armRefused (maskBits 32 ((cArm 1
      0).f 16 4)) ((cArm 1 0).f 20 1 == 1) = some (en0 (serv run (cArm 1 0)))) ∧
    (serving (serv runL (cArm 1 1)) ch (cArm 1 1) 6 = true ∧ clean (cArm 1 1) [(16, 4), (20, 1)] = true ∧ (∀ j ∈ maskBits 32 ((cArm 1 1).f
      16 4), j < (serv runL (cArm 1 1)).chip.model.slices) ∧ (cArm 1 1).f 20 1 ≤ 1 ∧ (serv runL (cArm 1 1)).armRefused (maskBits 32 ((cArm
      1 1).f 16 4)) ((cArm 1 1).f 20 1 == 1) = none ∧ ((cArm 1 1).f 20 1 == 1) = true ∧ 0 ∈ maskBits 32 ((cArm 1 1).f 16 4) ∧ ((serv runL (cArm
      1 1)).sl 0).loadedProg = some prg ∧ prg.routines = []) ∧
    (serving (smallChip (serv rdyS (cArm 512 0))) ch (cArm 512 0) 6 = true ∧ clean (cArm 512 0) [(16, 4), (20, 1)] = true ∧ (((maskBits 32
      ((cArm 512 0).f 16 4)).any fun (j : ℕ) => decide ((smallChip (serv rdyS (cArm 512 0))).chip.model.slices ≤ j)) = true)) := by
  and_intros <;> decide +kernel

theorem witness_libraryLoads :
    (serving (serv run (cLib 0)) ch (cLib 0) 3 = true ∧ clean (cLib 0) [(16, 1), (24, 8), (32, 4)] = true ∧ (cLib 0).f 16 1 ≤ 1 ∧ bufferOk
      (cLib 0) 24 ((cLib 0).f 32 4) = true ∧ (cLib 0).f 32 4 ≤ 9437184 ∧ (serv run (cLib 0)).imageCheck 2 ((serv run (cLib 0)).ext.readN
      ((cLib 0).f 24 8) ((cLib 0).f 32 4)) = some 1) := by
  and_intros <;> decide +kernel

theorem witness_sliceCommands :
    (serving (serv armdS (cStart 1 5)) ch (cStart 1 5) 7 = true ∧ clean (cStart 1 5) [(16, 4), (24, 8)] = true ∧ (((maskBits 32 ((cStart 1
      5).f 16 4)).all fun (j : ℕ) => decide (j < (serv armdS (cStart 1 5)).chip.model.slices)) = true) ∧ (∀ j ∈ maskBits 32 ((cStart 1 5).f
      16 4), ((serv armdS (cStart 1 5)).sl j).armed = true ∧ ((serv armdS (cStart 1 5)).sl j).state = SliceState.ready)) ∧
    (serving (serv run (cStart 1 5)) ch (cStart 1 5) 7 = true ∧ clean (cStart 1 5) [(16, 4), (24, 8)] = true ∧ (((maskBits 32 ((cStart 1
      5).f 16 4)).all fun (j : ℕ) => decide (j < (serv run (cStart 1 5)).chip.model.slices)) = true) ∧ (List.find? (fun (j : ℕ) => !(((serv
      run (cStart 1 5)).sl j).armed && ((serv run (cStart 1 5)).sl j).state == SliceState.ready)) (maskBits 32 ((cStart 1 5).f 16 4)) =
      some 0)) ∧
    (serving (serv run (cStop 1 0)) ch (cStop 1 0) 8 = true ∧ clean (cStop 1 0) [(16, 4), (20, 1)] = true ∧ (((maskBits 32 ((cStop 1 0).f
      16 4)).all fun (j : ℕ) => decide (j < (serv run (cStop 1 0)).chip.model.slices)) = true) ∧ (cStop 1 0).f 20 1 ≤ 1 ∧ (∀ j ∈ maskBits
      32 ((cStop 1 0).f 16 4), ((serv run (cStop 1 0)).sl j).state ≠ SliceState.cold) ∧ (∀ j ∈ List.filter (fun (j : ℕ) => ((serv run
      (cStop 1 0)).sl j).state == SliceState.running) (maskBits 32 ((cStop 1 0).f 16 4)), (serv run (cStop 1 0)).splitsStream (List.filter
      (fun (j : ℕ) => ((serv run (cStop 1 0)).sl j).state == SliceState.running) (maskBits 32 ((cStop 1 0).f 16 4))) j = false) ∧
      (List.filter (fun (j : ℕ) => ((serv run (cStop 1 0)).sl j).state == SliceState.running) (maskBits 32 ((cStop 1 0).f 16 4)) ≠ []) ∧
      (cStop 1 0).f 20 1 = 0) ∧
    (serving (serv running (cStop 1 1)) ch (cStop 1 1) 8 = true ∧ clean (cStop 1 1) [(16, 4), (20, 1)] = true ∧ (((maskBits 32 ((cStop 1
      1).f 16 4)).all fun (j : ℕ) => decide (j < (serv running (cStop 1 1)).chip.model.slices)) = true) ∧ (cStop 1 1).f 20 1 ≤ 1 ∧ (∀ j ∈
      maskBits 32 ((cStop 1 1).f 16 4), ((serv running (cStop 1 1)).sl j).state ≠ SliceState.cold) ∧ (∀ j ∈ List.filter (fun (j : ℕ) =>
      ((serv running (cStop 1 1)).sl j).state == SliceState.running) (maskBits 32 ((cStop 1 1).f 16 4)), (serv running (cStop 1
      1)).splitsStream (List.filter (fun (j : ℕ) => ((serv running (cStop 1 1)).sl j).state == SliceState.running) (maskBits 32 ((cStop 1
      1).f 16 4))) j = false) ∧ (List.filter (fun (j : ℕ) => ((serv running (cStop 1 1)).sl j).state == SliceState.running) (maskBits 32
      ((cStop 1 1).f 16 4)) ≠ []) ∧ (cStop 1 1).f 20 1 = 1) ∧
    (serving (serv live (cStop 2 0)) ch (cStop 2 0) 8 = true ∧ clean (cStop 2 0) [(16, 4), (20, 1)] = true ∧ (((maskBits 32 ((cStop 2 0).f
      16 4)).all fun (j : ℕ) => decide (j < (serv live (cStop 2 0)).chip.model.slices)) = true) ∧ (cStop 2 0).f 20 1 ≤ 1 ∧ (List.find? (fun
      (j : ℕ) => ((serv live (cStop 2 0)).sl j).state == SliceState.cold) (maskBits 32 ((cStop 2 0).f 16 4)) = some 1)) ∧
    (serving (serv armdS (cStop 1 0)) ch (cStop 1 0) 8 = true ∧ clean (cStop 1 0) [(16, 4), (20, 1)] = true ∧ (((maskBits 32 ((cStop 1 0).f
      16 4)).all fun (j : ℕ) => decide (j < (serv armdS (cStop 1 0)).chip.model.slices)) = true) ∧ (cStop 1 0).f 20 1 ≤ 1 ∧ (∀ j ∈ maskBits
      32 ((cStop 1 0).f 16 4), ((serv armdS (cStop 1 0)).sl j).state ≠ SliceState.cold) ∧ (∀ j ∈ List.filter (fun (j : ℕ) => ((serv armdS
      (cStop 1 0)).sl j).state == SliceState.running) (maskBits 32 ((cStop 1 0).f 16 4)), (serv armdS (cStop 1 0)).splitsStream
      (List.filter (fun (j : ℕ) => ((serv armdS (cStop 1 0)).sl j).state == SliceState.running) (maskBits 32 ((cStop 1 0).f 16 4))) j =
      false) ∧ (List.filter (fun (j : ℕ) => ((serv armdS (cStop 1 0)).sl j).state == SliceState.running) (maskBits 32 ((cStop 1 0).f 16 4))
      = [])) ∧
    (serving (serv cldS (cSvc 40 1)) ch (cSvc 40 1) 9 = true ∧ clean (cSvc 40 1) [(16, 1), (17, 1)] = true ∧ (serv cldS (cSvc 40
      1)).chip.model.slices ≤ (cSvc 40 1).f 16 1) ∧
    (serving (serv (svcS SliceState.ready) (cSvc 0 0)) ch (cSvc 0 0) 9 = true ∧ clean (cSvc 0 0) [(16, 1), (17, 1)] = true ∧ (cSvc 0 0).f
      16 1 < (serv (svcS SliceState.ready) (cSvc 0 0)).chip.model.slices ∧ ((cSvc 0 0).f 17 1 = 0 ∧ (((serv (svcS SliceState.ready) (cSvc 0
      0)).sl ((cSvc 0 0).f 16 1)).state = SliceState.ready ∨ ((serv (svcS SliceState.ready) (cSvc 0 0)).sl ((cSvc 0 0).f 16 1)).state =
      SliceState.faulted) ∨ (cSvc 0 0).f 17 1 = 1 ∧ ((serv (svcS SliceState.ready) (cSvc 0 0)).sl ((cSvc 0 0).f 16 1)).state =
      SliceState.service)) ∧
    (serving (serv run (cSvc 0 0)) ch (cSvc 0 0) 9 = true ∧ clean (cSvc 0 0) [(16, 1), (17, 1)] = true ∧ (cSvc 0 0).f 16 1 < (serv run
      (cSvc 0 0)).chip.model.slices ∧ (cSvc 0 0).f 17 1 = 0 ∧ ((serv run (cSvc 0 0)).sl ((cSvc 0 0).f 16 1)).state = SliceState.running ∧
      (serv run (cSvc 0 0)).splitsStream [(cSvc 0 0).f 16 1] ((cSvc 0 0).f 16 1) = false) ∧
    (serving (serv (svcS SliceState.ready) (cSvc 0 2)) ch (cSvc 0 2) 9 = true ∧ clean (cSvc 0 2) [(16, 1), (17, 1)] = true ∧ (cSvc 0 2).f
      16 1 < (serv (svcS SliceState.ready) (cSvc 0 2)).chip.model.slices ∧ (cSvc 0 2).f 17 1 = 2 ∧ (((serv (svcS SliceState.ready) (cSvc 0
      2)).sl ((cSvc 0 2).f 16 1)).state = SliceState.ready ∨ ((serv (svcS SliceState.ready) (cSvc 0 2)).sl ((cSvc 0 2).f 16 1)).state =
      SliceState.faulted ∨ ((serv (svcS SliceState.ready) (cSvc 0 2)).sl ((cSvc 0 2).f 16 1)).state = SliceState.service)) ∧
    (serving (serv (svcS SliceState.service) (cSvc 0 3)) ch (cSvc 0 3) 9 = true ∧ clean (cSvc 0 3) [(16, 1), (17, 1)] = true ∧ (cSvc 0 3).f
      16 1 < (serv (svcS SliceState.service) (cSvc 0 3)).chip.model.slices ∧ (cSvc 0 3).f 17 1 = 3 ∧ (((serv (svcS SliceState.service)
      (cSvc 0 3)).sl ((cSvc 0 3).f 16 1)).state = SliceState.cold ∨ ((serv (svcS SliceState.service) (cSvc 0 3)).sl ((cSvc 0 3).f 16
      1)).state = SliceState.faulted ∨ ((serv (svcS SliceState.service) (cSvc 0 3)).sl ((cSvc 0 3).f 16 1)).state = SliceState.service ∨
      ((serv (svcS SliceState.service) (cSvc 0 3)).sl ((cSvc 0 3).f 16 1)).state = SliceState.ready ∧ ((serv (svcS SliceState.service)
      (cSvc 0 3)).sl ((cSvc 0 3).f 16 1)).armed = false)) ∧
    (serving (serv (offS false) (cSvc 0 4)) ch (cSvc 0 4) 9 = true ∧ clean (cSvc 0 4) [(16, 1), (17, 1)] = true ∧ (cSvc 0 4).f 16 1 < (serv
      (offS false) (cSvc 0 4)).chip.model.slices ∧ (cSvc 0 4).f 17 1 = 4 ∧ ((serv (offS false) (cSvc 0 4)).sl ((cSvc 0 4).f 16 1)).state =
      SliceState.off ∧ ((serv (offS false) (cSvc 0 4)).sl ((cSvc 0 4).f 16 1)).retired = false ∧ BitVec.getLsbD (serv (offS false) (cSvc 0
      4)).chip.mfgRetired ((cSvc 0 4).f 16 1) = false) ∧
    (serving (serv (offS true) (cSvc 0 4)) ch (cSvc 0 4) 9 = true ∧ clean (cSvc 0 4) [(16, 1), (17, 1)] = true ∧ (cSvc 0 4).f 16 1 < (serv
      (offS true) (cSvc 0 4)).chip.model.slices ∧ (cSvc 0 4).f 17 1 ≤ 4 ∧ (serv (offS true) (cSvc 0 4)).serviceOk ((cSvc 0 4).f 16 1)
      ((cSvc 0 4).f 17 1) = false) ∧
    (serving (serv run (cSvc 0 9)) ch (cSvc 0 9) 9 = true ∧ clean (cSvc 0 9) [(16, 1), (17, 1)] = true ∧ (cSvc 0 9).f 16 1 < (serv run
      (cSvc 0 9)).chip.model.slices ∧ 4 < (cSvc 0 9).f 17 1) ∧
    (serving (smallChip (serv armdS (cStart 512 5))) ch (cStart 512 5) 7 = true ∧ clean (cStart 512 5) [(16, 4), (24, 8)] = true ∧
      (((maskBits 32 ((cStart 512 5).f 16 4)).all fun (j : ℕ) => decide (j < (smallChip (serv armdS (cStart 512 5))).chip.model.slices)) =
      false)) ∧
    (serving (smallChip (serv armdS (cStop 512 0))) ch (cStop 512 0) 8 = true ∧ clean (cStop 512 0) [(16, 4), (20, 1)] = true ∧ (((maskBits
      32 ((cStop 512 0).f 16 4)).all fun (j : ℕ) => decide (j < (smallChip (serv armdS (cStop 512 0))).chip.model.slices)) = false)) := by
  and_intros <;> decide +kernel

theorem witness_debugCommands :
    (serving (serv run (cPat 1 1)) ch (cPat 1 1) 17 = true ∧ clean (cPat 1 1) [(16, 8), (24, 32)] = true ∧ (cPat 1 1).f 17 1 ≤ 1 ∧ (cPat 1
      1).f 16 1 < (serv run (cPat 1 1)).chip.model.slices ∧ 1 ≤ (cPat 1 1).f 18 1 ∧ (cPat 1 1).f 18 1 ≤ 4 ∧ ((List.map (fun (x : ℕ × BitVec
      64) => x.1) (List.map (fun (i : ℕ) => ((cPat 1 1).f (20 + i) 1, BitVec.ofNat 64 ((cPat 1 1).f (24 + 8 * i) 8))) (List.range ((cPat 1
      1).f 18 1)))).Nodup) ∧ (((List.map (fun (i : ℕ) => ((cPat 1 1).f (20 + i) 1, BitVec.ofNat 64 ((cPat 1 1).f (24 + 8 * i) 8)))
      (List.range ((cPat 1 1).f 18 1))).all fun (p : ℕ × BitVec 64) => decide (p.1 < 64)) = true) ∧ ((serv run (cPat 1 1)).sl ((cPat 1 1).f
      16 1)).armed = false ∧ ((cPat 1 1).f 19 1 ≤ 1 ∨ (cPat 1 1).f 19 1 = 255)) ∧
    (serving (serv armR (cPat 1 2)) ch (cPat 1 2) 17 = true ∧ clean (cPat 1 2) [(16, 8), (24, 32)] = true ∧ (cPat 1 2).f 17 1 ≤ 1 ∧ (cPat 1
      2).f 16 1 < (serv armR (cPat 1 2)).chip.model.slices ∧ 1 ≤ (cPat 1 2).f 18 1 ∧ (cPat 1 2).f 18 1 ≤ 4 ∧ ((List.map (fun (x : ℕ ×
      BitVec 64) => x.1) (List.map (fun (i : ℕ) => ((cPat 1 2).f (20 + i) 1, BitVec.ofNat 64 ((cPat 1 2).f (24 + 8 * i) 8))) (List.range
      ((cPat 1 2).f 18 1)))).Nodup) ∧ (((List.map (fun (i : ℕ) => ((cPat 1 2).f (20 + i) 1, BitVec.ofNat 64 ((cPat 1 2).f (24 + 8 * i) 8)))
      (List.range ((cPat 1 2).f 18 1))).all fun (p : ℕ × BitVec 64) => decide (p.1 < 64)) = true) ∧ ((serv armR (cPat 1 2)).sl ((cPat 1
      2).f 16 1)).armed = true ∧ (((cPat 1 2).f 19 1 = if ((serv armR (cPat 1 2)).sl ((cPat 1 2).f 16 1)).bracket = true then 0 else 1) ∨
      (cPat 1 2).f 19 1 = 255) ∧ ((serv armR (cPat 1 2)).sl 0).progNs = []) ∧
    (serving (serv armR (cPat 0 2)) ch (cPat 0 2) 17 = true ∧ clean (cPat 0 2) [(16, 8), (24, 32)] = true ∧ (cPat 0 2).f 17 1 ≤ 1 ∧ (cPat 0
      2).f 16 1 < (serv armR (cPat 0 2)).chip.model.slices ∧ 1 ≤ (cPat 0 2).f 18 1 ∧ (cPat 0 2).f 18 1 ≤ 4 ∧ ((List.map (fun (x : ℕ ×
      BitVec 64) => x.1) (List.map (fun (i : ℕ) => ((cPat 0 2).f (20 + i) 1, BitVec.ofNat 64 ((cPat 0 2).f (24 + 8 * i) 8))) (List.range
      ((cPat 0 2).f 18 1)))).Nodup) ∧ (((List.map (fun (i : ℕ) => ((cPat 0 2).f (20 + i) 1, BitVec.ofNat 64 ((cPat 0 2).f (24 + 8 * i) 8)))
      (List.range ((cPat 0 2).f 18 1))).all fun (p : ℕ × BitVec 64) => decide (p.1 < 64)) = true) ∧ ((serv armR (cPat 0 2)).sl ((cPat 0
      2).f 16 1)).armed = true ∧ ((cPat 0 2).f 19 1 = if ((serv armR (cPat 0 2)).sl ((cPat 0 2).f 16 1)).bracket = true then 1 else 0)) ∧
    (serving (serv armR (cCut 1 2 0)) ch (cCut 1 2 0) 20 = true ∧ clean (cCut 1 2 0) [(16, 1), (17, 1), (18, 2), (20, 4), (24, 8)] = true ∧
      (cCut 1 2 0).f 16 1 < (serv armR (cCut 1 2 0)).chip.model.slices ∧ ((cCut 1 2 0).f 17 1 = 1 ∨ (cCut 1 2 0).f 17 1 = 3) ∧ ((serv armR
      (cCut 1 2 0)).sl ((cCut 1 2 0).f 16 1)).state ≠ SliceState.off ∧ ((serv armR (cCut 1 2 0)).sl ((cCut 1 2 0).f 16 1)).state ≠
      SliceState.cold ∧ ((cCut 1 2 0).f 20 4 < (((serv armR (cCut 1 2 0)).sl ((cCut 1 2 0).f 16 1)).cutWords (if (cCut 1 2 0).f 17 1 = 3
      then some ((cCut 1 2 0).f 18 2) else none)).length) ∧ ((cCut 1 2 0).f 24 8 = 0 ∨ BitVec.toNat ((serv armR (cCut 1 2 0)).sl ((cCut 1 2
      0).f 16 1)).seq.frame ≤ (cCut 1 2 0).f 24 8) ∧ ((((serv armR (cCut 1 2 0)).sl ((cCut 1 2 0).f 16 1)).state == SliceState.running &&
      (cCut 1 2 0).f 24 8 != 0 && (if (cCut 1 2 0).f 24 8 = 0 then if ((serv armR (cCut 1 2 0)).sl ((cCut 1 2 0).f 16 1)).state =
      SliceState.running then ((serv armR (cCut 1 2 0)).sl ((cCut 1 2 0).f 16 1)).seq.frame + (1 : W64) else ((serv armR (cCut 1 2 0)).sl
      ((cCut 1 2 0).f 16 1)).swapFrame else BitVec.ofNat 64 ((cCut 1 2 0).f 24 8)) == ((serv armR (cCut 1 2 0)).sl ((cCut 1 2 0).f 16
      1)).seq.frame && ((serv armR (cCut 1 2 0)).sl ((cCut 1 2 0).f 16 1)).passed (stripEnd
      (match if (cCut 1 2 0).f 17 1 = 3 then some ((cCut 1 2 0).f 18 2) else none with | some id => ((serv armR (cCut 1 2 0)).sl ((cCut 1 2 0).f 16 1)).cachedWords id | none => ((serv armR (cCut 1 2 0)).sl ((cCut 1 2 0).f 16 1)).bankWords)
      ((cCut 1 2 0).f 20 4)) (if (cCut 1 2 0).f 17 1 = 3 then some ((cCut 1 2 0).f 18 2) else none)) = false)) ∧
    (serving (serv armR (cCut 1 2 4)) ch (cCut 1 2 4) 20 = true ∧ clean (cCut 1 2 4) [(16, 1), (17, 1), (18, 2), (20, 4), (24, 8)] = true ∧
      (cCut 1 2 4).f 16 1 < (serv armR (cCut 1 2 4)).chip.model.slices ∧ ((cCut 1 2 4).f 17 1 = 1 ∨ (cCut 1 2 4).f 17 1 = 3) ∧ ((serv armR
      (cCut 1 2 4)).sl ((cCut 1 2 4).f 16 1)).state ≠ SliceState.off ∧ ((serv armR (cCut 1 2 4)).sl ((cCut 1 2 4).f 16 1)).state ≠
      SliceState.cold ∧ ((cCut 1 2 4).f 20 4 < (((serv armR (cCut 1 2 4)).sl ((cCut 1 2 4).f 16 1)).cutWords (if (cCut 1 2 4).f 17 1 = 3
      then some ((cCut 1 2 4).f 18 2) else none)).length) ∧ ((cCut 1 2 4).f 24 8 = 0 ∨ BitVec.toNat ((serv armR (cCut 1 2 4)).sl ((cCut 1 2
      4).f 16 1)).seq.frame ≤ (cCut 1 2 4).f 24 8) ∧ ((((serv armR (cCut 1 2 4)).sl ((cCut 1 2 4).f 16 1)).state == SliceState.running &&
      (cCut 1 2 4).f 24 8 != 0 && (if (cCut 1 2 4).f 24 8 = 0 then if ((serv armR (cCut 1 2 4)).sl ((cCut 1 2 4).f 16 1)).state =
      SliceState.running then ((serv armR (cCut 1 2 4)).sl ((cCut 1 2 4).f 16 1)).seq.frame + (1 : W64) else ((serv armR (cCut 1 2 4)).sl
      ((cCut 1 2 4).f 16 1)).swapFrame else BitVec.ofNat 64 ((cCut 1 2 4).f 24 8)) == ((serv armR (cCut 1 2 4)).sl ((cCut 1 2 4).f 16
      1)).seq.frame && ((serv armR (cCut 1 2 4)).sl ((cCut 1 2 4).f 16 1)).passed (stripEnd
      (match if (cCut 1 2 4).f 17 1 = 3 then some ((cCut 1 2 4).f 18 2) else none with | some id => ((serv armR (cCut 1 2 4)).sl ((cCut 1 2 4).f 16 1)).cachedWords id | none => ((serv armR (cCut 1 2 4)).sl ((cCut 1 2 4).f 16 1)).bankWords)
      ((cCut 1 2 4).f 20 4)) (if (cCut 1 2 4).f 17 1 = 3 then some ((cCut 1 2 4).f 18 2) else none)) = true)) ∧
    (serving (serv armR (cCut 0 0 0)) ch (cCut 0 0 0) 20 = true ∧ clean (cCut 0 0 0) [(16, 1), (17, 1), (18, 2), (20, 4), (24, 8)] = true ∧
      (cCut 0 0 0).f 16 1 < (serv armR (cCut 0 0 0)).chip.model.slices ∧ ((cCut 0 0 0).f 17 1 = 0 ∨ (cCut 0 0 0).f 17 1 = 2) ∧ ((serv armR
      (cCut 0 0 0)).sl ((cCut 0 0 0).f 16 1)).state ≠ SliceState.off ∧ ((serv armR (cCut 0 0 0)).sl ((cCut 0 0 0).f 16 1)).state ≠
      SliceState.cold) ∧
    (serving (serv cldS (cCut 1 2 0)) ch (cCut 1 2 0) 20 = true ∧ clean (cCut 1 2 0) [(16, 1), (17, 1), (18, 2), (20, 4), (24, 8)] = true ∧
      (cCut 1 2 0).f 16 1 < (serv cldS (cCut 1 2 0)).chip.model.slices ∧ (cCut 1 2 0).f 17 1 ≤ 3 ∧ (((serv cldS (cCut 1 2 0)).sl ((cCut 1 2
      0).f 16 1)).state = SliceState.off ∨ ((serv cldS (cCut 1 2 0)).sl ((cCut 1 2 0).f 16 1)).state = SliceState.cold)) ∧
    (serving (serv run (cDump 1 9999)) ch (cDump 1 9999) 19 = true ∧ clean (cDump 1 9999) [(16, 1), (20, 4), (24, 8), (32, 4)] = true ∧
      (cDump 1 9999).f 16 1 < (serv run (cDump 1 9999)).chip.model.slices ∧ (cDump 1 9999).f 20 4 < 512 ∧ bufferOk (cDump 1 9999) 24
      ((cDump 1 9999).f 32 4) = true ∧ (((serv run (cDump 1 9999)).sl ((cDump 1 9999).f 16 1)).state = SliceState.off ∨ ((serv run (cDump 1
      9999)).sl ((cDump 1 9999).f 16 1)).state = SliceState.running ∨ ((serv run (cDump 1 9999)).sl ((cDump 1 9999).f 16 1)).state =
      SliceState.draining)) ∧
    (serving (serv armdS (cDump 387 5)) ch (cDump 387 5) 19 = true ∧ clean (cDump 387 5) [(16, 1), (20, 4), (24, 8), (32, 4)] = true ∧
      (cDump 387 5).f 16 1 < (serv armdS (cDump 387 5)).chip.model.slices ∧ (cDump 387 5).f 20 4 < 512 ∧ bufferOk (cDump 387 5) 24 ((cDump
      387 5).f 32 4) = true ∧ ((serv armdS (cDump 387 5)).sl ((cDump 387 5).f 16 1)).state ≠ SliceState.off ∧ ((serv armdS (cDump 387
      5)).sl ((cDump 387 5).f 16 1)).state ≠ SliceState.running ∧ ((serv armdS (cDump 387 5)).sl ((cDump 387 5).f 16 1)).state ≠
      SliceState.draining ∧ ((cDump 387 5).f 32 4 < List.foldl (fun (n p : ℕ) => n + 16 + partBytes p) 64 (maskBits 9 ((cDump 387 5).f 20
      4)))) ∧
    (serving (serv armdS (cDump 387 999999)) ch (cDump 387 999999) 19 = true ∧ clean (cDump 387 999999) [(16, 1), (20, 4), (24, 8), (32,
      4)] = true ∧ (cDump 387 999999).f 16 1 < (serv armdS (cDump 387 999999)).chip.model.slices ∧ (cDump 387 999999).f 20 4 < 512 ∧
      bufferOk (cDump 387 999999) 24 ((cDump 387 999999).f 32 4) = true ∧ ((serv armdS (cDump 387 999999)).sl ((cDump 387 999999).f 16
      1)).state ≠ SliceState.off ∧ ((serv armdS (cDump 387 999999)).sl ((cDump 387 999999).f 16 1)).state ≠ SliceState.running ∧ ((serv
      armdS (cDump 387 999999)).sl ((cDump 387 999999).f 16 1)).state ≠ SliceState.draining ∧ (List.foldl (fun (n p : ℕ) => n + 16 +
      partBytes p) 64 (maskBits 9 ((cDump 387 999999).f 20 4)) ≤ (cDump 387 999999).f 32 4)) ∧
    (serving (serv cold (cRep 1 1)) ch (cRep 1 1) 30 = true ∧ clean (cRep 1 1) [(16, 1), (17, 1), (18, 1), (19, 1)] = true ∧ noRetiring
      (serv cold (cRep 1 1)) = true ∧ (serv cold (cRep 1 1)).fw.state = FwState.committed ∧ (serv cold (cRep 1 1)).pins.supplyWarn = false
      ∧ (cRep 1 1).f 17 1 < (serv cold (cRep 1 1)).chip.model.slices ∧ (cRep 1 1).f 16 1 = 1 ∧ (cRep 1 1).f 18 1 ≤ 3 ∧ (cRep 1 1).f 19 1 ≤
      13 ∧ ((serv cold (cRep 1 1)).col ((cRep 1 1).f 17 1)).state = ColState.live ∧ ((serv cold (cRep 1 1)).col ((cRep 1 1).f 17 1)).copy =
      none ∧ (serv cold (cRep 1 1)).copies < 4 ∧ ((serv cold (cRep 1 1)).col ((cRep 1 1).f 17 1)).sparesLeft ((cRep 1 1).f 18 1) = [14, 15]) ∧
    (serving (serv cold (cRep 2 1)) ch (cRep 2 1) 30 = true ∧ clean (cRep 2 1) [(16, 1), (17, 1), (18, 1), (19, 1)] = true ∧ noRetiring
      (serv cold (cRep 2 1)) = true ∧ (serv cold (cRep 2 1)).fw.state = FwState.committed ∧ (serv cold (cRep 2 1)).pins.supplyWarn = false
      ∧ (cRep 2 1).f 17 1 < (serv cold (cRep 2 1)).chip.model.slices ∧ (cRep 2 1).f 16 1 = 2 ∧ (((serv cold (cRep 2 1)).col ((cRep 2 1).f
      17 1)).state = ColState.live ∨ ((serv cold (cRep 2 1)).col ((cRep 2 1).f 17 1)).state = ColState.sparing)) ∧
    (serving (serv cldS (cRep 3 0)) ch (cRep 3 0) 30 = true ∧ clean (cRep 3 0) [(16, 1), (17, 1), (18, 1), (19, 1)] = true ∧ noRetiring
      (serv cldS (cRep 3 0)) = true ∧ (serv cldS (cRep 3 0)).fw.state = FwState.committed ∧ (serv cldS (cRep 3 0)).pins.supplyWarn = false
      ∧ (cRep 3 0).f 17 1 < (serv cldS (cRep 3 0)).chip.model.slices ∧ (cRep 3 0).f 16 1 = 3 ∧ (((serv cldS (cRep 3 0)).sl ((cRep 3 0).f 17
      1)).state = SliceState.off ∨ ((serv cldS (cRep 3 0)).sl ((cRep 3 0).f 17 1)).state = SliceState.cold ∨ ((serv cldS (cRep 3 0)).sl
      ((cRep 3 0).f 17 1)).state = SliceState.faulted ∨ ((serv cldS (cRep 3 0)).sl ((cRep 3 0).f 17 1)).state = SliceState.service ∨ ((serv
      cldS (cRep 3 0)).sl ((cRep 3 0).f 17 1)).state = SliceState.ready ∧ ((serv cldS (cRep 3 0)).sl ((cRep 3 0).f 17 1)).armed = false) ∧
      0 ≤ 8) ∧
    (serving (serv (offS true) (cRep 4 0)) ch (cRep 4 0) 30 = true ∧ clean (cRep 4 0) [(16, 1), (17, 1), (18, 1), (19, 1)] = true ∧
      noRetiring (serv (offS true) (cRep 4 0)) = true ∧ (serv (offS true) (cRep 4 0)).fw.state = FwState.committed ∧ (serv (offS true)
      (cRep 4 0)).pins.supplyWarn = false ∧ (cRep 4 0).f 17 1 < (serv (offS true) (cRep 4 0)).chip.model.slices ∧ (cRep 4 0).f 16 1 = 4 ∧
      ((serv (offS true) (cRep 4 0)).sl ((cRep 4 0).f 17 1)).state = SliceState.off ∧ ((serv (offS true) (cRep 4 0)).sl ((cRep 4 0).f 17
      1)).retired = true ∧ BitVec.getLsbD (serv (offS true) (cRep 4 0)).chip.mfgRetired ((cRep 4 0).f 17 1) = false) ∧
    (serving (serv run (cRep 4 0)) ch (cRep 4 0) 30 = true ∧ clean (cRep 4 0) [(16, 1), (17, 1), (18, 1), (19, 1)] = true ∧ noRetiring
      (serv run (cRep 4 0)) = true ∧ (serv run (cRep 4 0)).fw.state = FwState.committed ∧ (serv run (cRep 4 0)).pins.supplyWarn = false ∧
      (cRep 4 0).f 17 1 < (serv run (cRep 4 0)).chip.model.slices ∧ (cRep 4 0).f 16 1 = 4 ∧ ((serv run (cRep 4 0)).sl ((cRep 4 0).f 17
      1)).state ≠ SliceState.off) := by
  and_intros <;> decide +kernel

theorem witness_migrationSteps :
    (live.live = true ∧ live.migrations = []) ∧
    (serving (serv run (cMig 0 1)) ch (cMig 0 1) 10 = true ∧ clean (cMig 0 1) [(16, 2), (20, 4)] = true ∧ (cMig 0 1).f 16 1 < (serv run
      (cMig 0 1)).chip.model.slices ∧ (cMig 0 1).f 17 1 < (serv run (cMig 0 1)).chip.model.slices ∧ ((cMig 0 1).f 20 4 = 0 ∨ 1000 ≤ (cMig 0
      1).f 20 4 ∧ (cMig 0 1).f 20 4 ≤ 100000000) ∧ ((serv run (cMig 0 1)).sl ((cMig 0 1).f 16 1)).movable = false) ∧
    (serving (serv armR (cMig 0 0)) ch (cMig 0 0) 10 = true ∧ clean (cMig 0 0) [(16, 2), (20, 4)] = true ∧ (cMig 0 0).f 16 1 < (serv armR
      (cMig 0 0)).chip.model.slices ∧ (cMig 0 0).f 17 1 < (serv armR (cMig 0 0)).chip.model.slices ∧ ((cMig 0 0).f 20 4 = 0 ∨ 1000 ≤ (cMig
      0 0).f 20 4 ∧ (cMig 0 0).f 20 4 ≤ 100000000) ∧ ((serv armR (cMig 0 0)).sl ((cMig 0 0).f 16 1)).movable = true ∧ ((cMig 0 0).f 16 1 =
      (cMig 0 0).f 17 1 ∨ (serv armR (cMig 0 0)).freeSlice ((cMig 0 0).f 17 1) = false)) ∧
    ((serv (freeB armR) cMg).live = true ∧ (serv (freeB armR) cMg).fw.running = true ∧ ((serv (freeB armR) cMg).chan 3).running = some cMg
      ∧ cMg.chan = 3 ∧ cMg.begun = true ∧ cMg.late = false ∧ cMg.code = 10 ∧ cMg.migr = some g3 ∧ g3.phase = 3 ∧ (serv (freeB armR) cMg).cmds = [cMg] ∧ g3.src < 32 ∧ g3.dst < 32 ∧ g3.src ≠ g3.dst ∧ ((((serv (freeB armR) cMg).ports.tags ++ (serv (freeB armR) cMg).ports.waits).any fun (t : MTag) => t.slice == g3.src && t.acc.kind != 0) = false) ∧ (serv (freeB armR) cMg).scrub.bad = []) ∧
    ((serv (freeB armR) cMg).live = true ∧ (serv (freeB armR) cMg).fw.running = true ∧ ((serv (freeB armR) cMg).chan 3).running = some cMg
      ∧ cMg.chan = 3 ∧ cMg.begun = true ∧ cMg.late = false ∧ cMg.code = 10 ∧ cMg.migr = some g3 ∧ g3.phase = 3 ∧ (serv (freeB armR) cMg).cmds = [cMg] ∧ g3.src < 32 ∧ g3.dst < 32 ∧ g3.src ≠ g3.dst ∧ ((((serv (freeB armR) cMg).ports.tags ++ (serv (freeB armR) cMg).ports.waits).any fun (t : MTag) => t.slice == g3.src && t.acc.kind != 0) = false ∨ (serv (freeB armR) cMg).now < g3.drainBy)) ∧
    ((serv tagW cMg).live = true ∧ (serv tagW cMg).fw.running = true ∧ ((serv tagW cMg).chan 3).running = some cMg ∧ cMg.chan = 3 ∧
      cMg.begun = true ∧ cMg.late = false ∧ cMg.code = 10 ∧ cMg.migr = some g3 ∧ g3.phase = 3 ∧ (serv tagW cMg).cmds = [cMg] ∧ g3.src < 32
      ∧ g3.dst < 32 ∧ g3.src ≠ g3.dst ∧ ((((serv tagW cMg).ports.tags ++ (serv tagW cMg).ports.waits).any fun (t : MTag) => t.slice == g3.src && t.acc.kind != 0) = true) ∧
      g3.drainBy ≤ (serv tagW cMg).now ∧ ((serv tagW cMg).chan 3).cpls.length < 64 ∧ ((serv tagW cMg).chan 3).held = []) := by
  and_intros <;> decide +kernel

theorem witness_kvCommands :
    (serving (serv kvN ext1) ch ext1 13 = true ∧ clean ext1 [(16, 5), (22, 39)] = true ∧ ext1.f 16 1 ≤ 7 ∧ ext1.f 60 1 = 0 ∧ ext1.f 17 1 ≤
      1 ∧ (ext1.f 18 1 = 1 ∨ ext1.f 18 1 = 2) ∧ fmtOfId (ext1.f 19 1) = some Fmt.int8 ∧ ext1.f 20 1 ≤ 1 ∧ (serv kvN ext1).poolFields
      (ext1.pool Fmt.int8) = none ∧ (serv kvN ext1).poolPlaced (ext1.pool Fmt.int8) = some (pl (serv kvN ext1) ext1) ∧ (serv kvN
      ext1).poolClaimed (ext1.f 16 1) = false ∧ (serv kvN ext1).poolNamed (ext1.f 16 1) = false ∧ (serv kvN ext1).setting 515 % (ext1.pool
      Fmt.int8).z = 0 ∧ (serv kvN ext1).kv.waiters = [] ∧ noRetiring (serv kvN ext1) = true) ∧
    (serving (serv kvC (cPool 9 0 0 0 0 [])) ch (cPool 9 0 0 0 0 []) 13 = true ∧ clean (cPool 9 0 0 0 0 []) [(16, 5), (22, 39)] = true ∧ 7
      < (cPool 9 0 0 0 0 []).f 16 1) ∧
    (serving (serv kvC (cPool 5 0 0 0 1 [])) ch (cPool 5 0 0 0 1 []) 13 = true ∧ clean (cPool 5 0 0 0 1 []) [(16, 5), (22, 39)] = true ∧
      (cPool 5 0 0 0 1 []).f 16 1 ≤ 7 ∧ (cPool 5 0 0 0 1 []).f 60 1 = 1 ∧ (serv kvC (cPool 5 0 0 0 1 [])).kv.pool ((cPool 5 0 0 0 1 []).f
      16 1) = none) ∧
    (serving (serv kvC (cPool 1 0 0 0 1 [])) ch (cPool 1 0 0 0 1 []) 13 = true ∧ clean (cPool 1 0 0 0 1 []) [(16, 5), (22, 39)] = true ∧
      (cPool 1 0 0 0 1 []).f 16 1 ≤ 7 ∧ (cPool 1 0 0 0 1 []).f 60 1 = 1 ∧ (serv kvC (cPool 1 0 0 0 1 [])).kv.pool ((cPool 1 0 0 0 1 []).f
      16 1) = some poolX ∧ ((serv kvC (cPool 1 0 0 0 1 [])).poolClaimed ((cPool 1 0 0 0 1 []).f 16 1) || (serv kvC (cPool 1 0 0 0 1
      [])).poolNamed ((cPool 1 0 0 0 1 []).f 16 1)) = true) ∧
    (serving (serv kvN (cPool 1 0 0 0 1 [])) ch (cPool 1 0 0 0 1 []) 13 = true ∧ clean (cPool 1 0 0 0 1 []) [(16, 5), (22, 39)] = true ∧
      (cPool 1 0 0 0 1 []).f 16 1 ≤ 7 ∧ (cPool 1 0 0 0 1 []).f 60 1 = 1 ∧ (serv kvN (cPool 1 0 0 0 1 [])).kv.pool ((cPool 1 0 0 0 1 []).f
      16 1) = some poolX ∧ ((serv kvN (cPool 1 0 0 0 1 [])).poolClaimed ((cPool 1 0 0 0 1 []).f 16 1) || (serv kvN (cPool 1 0 0 0 1
      [])).poolNamed ((cPool 1 0 0 0 1 []).f 16 1)) = false) ∧
    (serving (serv kvC (cOpen 7)) ch (cOpen 7) 14 = true ∧ clean (cOpen 7) [(16, 7), (24, 8)] = true ∧ (cOpen 7).f 16 2 < 32768 ∧ 1 ≤
      (cOpen 7).f 18 2 ∧ (cOpen 7).f 18 2 < 4096 ∧ 1 ≤ (cOpen 7).f 20 1 ∧ (cOpen 7).f 20 1 ≤ 64 ∧ (cOpen 7).f 21 1 ≤ 7 ∧ (cOpen 7).f 22 1 ≤
      15 ∧ ((serv kvC (cOpen 7)).chainOk (List.takeWhile (fun (x : ℕ) => x != 255) (List.map (fun (i : ℕ) => (cOpen 7).f (24 + i) 1)
      (List.range 4))) = true) ∧ ((serv kvC (cOpen 7)).kv.pool ((List.takeWhile (fun (x : ℕ) => x != 255) (List.map (fun (i : ℕ) => (cOpen
      7).f (24 + i) 1) (List.range 4))).headD 0) = some poolX) ∧ (cOpen 7).f 28 4 ≤ 16 * poolX.maxPages ∧ (serv kvC (cOpen 7)).kv.ctx
      ((cOpen 7).f 16 2) = some (ctx1 [layFull])) ∧
    (serving (serv kvC (cOpen 9)) ch (cOpen 9) 14 = true ∧ clean (cOpen 9) [(16, 7), (24, 8)] = true ∧ (cOpen 9).f 16 2 < 32768 ∧ 1 ≤
      (cOpen 9).f 18 2 ∧ (cOpen 9).f 18 2 < 4096 ∧ 1 ≤ (cOpen 9).f 20 1 ∧ (cOpen 9).f 20 1 ≤ 64 ∧ (cOpen 9).f 21 1 ≤ 7 ∧ (cOpen 9).f 22 1 ≤
      15 ∧ ((serv kvC (cOpen 9)).chainOk (List.takeWhile (fun (x : ℕ) => x != 255) (List.map (fun (i : ℕ) => (cOpen 9).f (24 + i) 1)
      (List.range 4))) = true) ∧ ((serv kvC (cOpen 9)).kv.pool ((List.takeWhile (fun (x : ℕ) => x != 255) (List.map (fun (i : ℕ) => (cOpen
      9).f (24 + i) 1) (List.range 4))).headD 0) = some poolX) ∧ (cOpen 9).f 28 4 ≤ 16 * poolX.maxPages ∧ (serv kvC (cOpen 9)).kv.ctx
      ((cOpen 9).f 16 2) = none ∧ (serv kvC (cOpen 9)).placeLayers poolX ((cOpen 9).f 16 2) ((cOpen 9).f 28 4) ((serv
      kvC (cOpen 9)).newLevel2 ((cOpen 9).f 18 2) ((cOpen 9).f 16 2)) ((cOpen 9).f 20 1) = none) ∧
    (serving (serv kvE (cOpen 9)) ch (cOpen 9) 14 = true ∧ clean (cOpen 9) [(16, 7), (24, 8)] = true ∧ (cOpen 9).f 16 2 < 32768 ∧ 1 ≤
      (cOpen 9).f 18 2 ∧ (cOpen 9).f 18 2 < 4096 ∧ 1 ≤ (cOpen 9).f 20 1 ∧ (cOpen 9).f 20 1 ≤ 64 ∧ (cOpen 9).f 21 1 ≤ 7 ∧ (cOpen 9).f 22 1 ≤
      15 ∧ ((serv kvE (cOpen 9)).chainOk (List.takeWhile (fun (x : ℕ) => x != 255) (List.map (fun (i : ℕ) => (cOpen 9).f (24 + i) 1)
      (List.range 4))) = true) ∧ ((serv kvE (cOpen 9)).kv.pool ((List.takeWhile (fun (x : ℕ) => x != 255) (List.map (fun (i : ℕ) => (cOpen
      9).f (24 + i) 1) (List.range 4))).headD 0) = some poolX) ∧ (cOpen 9).f 28 4 ≤ 16 * poolX.maxPages ∧ (serv kvE (cOpen 9)).kv.ctx
      ((cOpen 9).f 16 2) = none ∧ (serv kvE (cOpen 9)).placeLayers poolX ((cOpen 9).f 16 2) ((cOpen 9).f 28 4) ((serv
      kvE (cOpen 9)).newLevel2 ((cOpen 9).f 18 2) ((cOpen 9).f 16 2)) ((cOpen 9).f 20 1) = some (cls (serv kvE (cOpen 9)) (cOpen 9) poolX)) ∧
    (serving (serv kvC (cOpenB 9)) ch (cOpenB 9) 14 = true ∧ clean (cOpenB 9) [(16, 7), (24, 8)] = true ∧ (cOpenB 9).f 16 2 < 32768 ∧ 1 ≤
      (cOpenB 9).f 18 2 ∧ (cOpenB 9).f 18 2 < 4096 ∧ 1 ≤ (cOpenB 9).f 20 1 ∧ (cOpenB 9).f 20 1 ≤ 64 ∧ (cOpenB 9).f 21 1 ≤ 7 ∧ (cOpenB 9).f
      22 1 ≤ 15 ∧ ((serv kvC (cOpenB 9)).chainOk (List.takeWhile (fun (x : ℕ) => x != 255) (List.map (fun (i : ℕ) => (cOpenB 9).f (24 + i)
      1) (List.range 4))) = false)) ∧
    (serving (serv kvC (cClose 7)) ch (cClose 7) 15 = true ∧ clean (cClose 7) [(16, 2)] = true ∧ (serv kvC (cClose 7)).kv.ctx ((cClose 7).f
      16 2) = some (ctx1 [layFull]) ∧ (ctx1 [layFull]).closing = false) ∧
    (serving (serv kvC (cClose 8)) ch (cClose 8) 15 = true ∧ clean (cClose 8) [(16, 2)] = true ∧ (serv kvC (cClose 8)).kv.ctx ((cClose 8).f
      16 2) = none) ∧
    (serving (serv clsing (cClose 7)) ch (cClose 7) 15 = true ∧ clean (cClose 7) [(16, 2)] = true ∧ (serv clsing (cClose 7)).kv.ctx
      ((cClose 7).f 16 2) = some ctxClosing ∧ ctxClosing.closing = true) ∧
    (serving (serv kvN ext2) ch ext2 13 = true ∧ clean ext2 [(16, 5), (22, 39)] = true ∧ ext2.f 16 1 ≤ 7 ∧ ext2.f 60 1 = 0 ∧ ext2.f 17 1 ≤
      1 ∧ (ext2.f 18 1 = 1 ∨ ext2.f 18 1 = 2) ∧ fmtOfId (ext2.f 19 1) = some Fmt.int8 ∧ ext2.f 20 1 ≤ 1 ∧ (serv kvN ext2).poolFields
      (ext2.pool Fmt.int8) = none ∧ (serv kvN ext2).poolPlaced (ext2.pool Fmt.int8) = none) := by
  and_intros <;> decide +kernel

theorem witness_firmwareStages :
    (serving (serv stg (cStg 5 1 64)) ch (cStg 5 1 64) 23 = true ∧ clean (cStg 5 1 64) [(16, 4), (20, 1), (24, 8), (32, 4)] = true ∧ (cStg
      5 1 64).f 20 1 ≤ 3 ∧ bufferOk (cStg 5 1 64) 24 ((cStg 5 1 64).f 32 4) = true ∧ ((decide ((cStg 5 1 64).f 16 4 % 4096 = 0) && if
      ((cStg 5 1 64).f 20 1 % 2 == 1) = true then (cStg 5 1 64).f 16 4 == 0 else !((serv stg (cStg 5 1 64)).fw.slotOf (3 - (serv stg (cStg
      5 1 64)).fw.slot)).bootable && (cStg 5 1 64).f 16 4 == ((serv stg (cStg 5 1 64)).fw.slotOf (3 - (serv stg (cStg 5 1
      64)).fw.slot)).staged) = false)) ∧
    (serving (serv stg (cStg 0 1 0)) ch (cStg 0 1 0) 23 = true ∧ clean (cStg 0 1 0) [(16, 4), (20, 1), (24, 8), (32, 4)] = true ∧ (cStg 0 1
      0).f 20 1 ≤ 3 ∧ bufferOk (cStg 0 1 0) 24 ((cStg 0 1 0).f 32 4) = true ∧ ((decide ((cStg 0 1 0).f 16 4 % 4096 = 0) && if ((cStg 0 1
      0).f 20 1 % 2 == 1) = true then (cStg 0 1 0).f 16 4 == 0 else !((serv stg (cStg 0 1 0)).fw.slotOf (3 - (serv stg (cStg 0 1
      0)).fw.slot)).bootable && (cStg 0 1 0).f 16 4 == ((serv stg (cStg 0 1 0)).fw.slotOf (3 - (serv stg (cStg 0 1 0)).fw.slot)).staged) =
      true) ∧ (decide (1 ≤ (cStg 0 1 0).f 32 4 ∧ (cStg 0 1 0).f 32 4 ≤ 262144 ∧ (cStg 0 1 0).f 16 4 + (cStg 0 1 0).f 32 4 ≤ 1835008) =
      false)) ∧
    (serving (serv stg (cStg 0 1 64)) ch (cStg 0 1 64) 23 = true ∧ clean (cStg 0 1 64) [(16, 4), (20, 1), (24, 8), (32, 4)] = true ∧ (cStg
      0 1 64).f 20 1 ≤ 3 ∧ bufferOk (cStg 0 1 64) 24 ((cStg 0 1 64).f 32 4) = true ∧ ((decide ((cStg 0 1 64).f 16 4 % 4096 = 0) && if
      ((cStg 0 1 64).f 20 1 % 2 == 1) = true then (cStg 0 1 64).f 16 4 == 0 else !((serv stg (cStg 0 1 64)).fw.slotOf (3 - (serv stg (cStg
      0 1 64)).fw.slot)).bootable && (cStg 0 1 64).f 16 4 == ((serv stg (cStg 0 1 64)).fw.slotOf (3 - (serv stg (cStg 0 1
      64)).fw.slot)).staged) = true) ∧ (decide (1 ≤ (cStg 0 1 64).f 32 4 ∧ (cStg 0 1 64).f 32 4 ≤ 262144 ∧ (cStg 0 1 64).f 16 4 + (cStg 0 1
      64).f 32 4 ≤ 1835008) = true) ∧ (serv stg (cStg 0 1 64)).fw.state = FwState.committed ∧ (serv stg (cStg 0 1 64)).pins.supplyWarn =
      false ∧ ((serv stg (cStg 0 1 64)).fw.slot = 1 ∨ (serv stg (cStg 0 1 64)).fw.slot = 2) ∧ 0 ≤ 8 ∧ ((cStg 0 1 64).f 20 1 / 2 == 1) =
      false) ∧
    (serving (serv stg (cStg 0 1 64)) ch (cStg 0 1 64) 23 = true ∧ clean (cStg 0 1 64) [(16, 4), (20, 1), (24, 8), (32, 4)] = true ∧ (cStg
      0 1 64).f 20 1 ≤ 3 ∧ bufferOk (cStg 0 1 64) 24 ((cStg 0 1 64).f 32 4) = true ∧ ((decide ((cStg 0 1 64).f 16 4 % 4096 = 0) && if
      ((cStg 0 1 64).f 20 1 % 2 == 1) = true then (cStg 0 1 64).f 16 4 == 0 else !((serv stg (cStg 0 1 64)).fw.slotOf (3 - (serv stg (cStg
      0 1 64)).fw.slot)).bootable && (cStg 0 1 64).f 16 4 == ((serv stg (cStg 0 1 64)).fw.slotOf (3 - (serv stg (cStg 0 1
      64)).fw.slot)).staged) = true) ∧ (decide (1 ≤ (cStg 0 1 64).f 32 4 ∧ (cStg 0 1 64).f 32 4 ≤ 262144 ∧ (cStg 0 1 64).f 16 4 + (cStg 0 1
      64).f 32 4 ≤ 1835008) = true) ∧ (serv stg (cStg 0 1 64)).fw.state = FwState.committed ∧ (serv stg (cStg 0 1 64)).pins.supplyWarn =
      false ∧ ((serv stg (cStg 0 1 64)).fw.slot = 1 ∨ (serv stg (cStg 0 1 64)).fw.slot = 2) ∧ 8 < 9) ∧
    (serving (serv stg (cStg 4096 2 64)) ch (cStg 4096 2 64) 23 = true ∧ clean (cStg 4096 2 64) [(16, 4), (20, 1), (24, 8), (32, 4)] = true
      ∧ (cStg 4096 2 64).f 20 1 ≤ 3 ∧ bufferOk (cStg 4096 2 64) 24 ((cStg 4096 2 64).f 32 4) = true ∧ ((decide ((cStg 4096 2 64).f 16 4 %
      4096 = 0) && if ((cStg 4096 2 64).f 20 1 % 2 == 1) = true then (cStg 4096 2 64).f 16 4 == 0 else !((serv stg (cStg 4096 2
      64)).fw.slotOf (3 - (serv stg (cStg 4096 2 64)).fw.slot)).bootable && (cStg 4096 2 64).f 16 4 == ((serv stg (cStg 4096 2
      64)).fw.slotOf (3 - (serv stg (cStg 4096 2 64)).fw.slot)).staged) = true) ∧ (decide (1 ≤ (cStg 4096 2 64).f 32 4 ∧ (cStg 4096 2 64).f
      32 4 ≤ 262144 ∧ (cStg 4096 2 64).f 16 4 + (cStg 4096 2 64).f 32 4 ≤ 1835008) = true) ∧ (serv stg (cStg 4096 2 64)).fw.state =
      FwState.committed ∧ (serv stg (cStg 4096 2 64)).pins.supplyWarn = false ∧ ((serv stg (cStg 4096 2 64)).fw.slot = 1 ∨ (serv stg (cStg
      4096 2 64)).fw.slot = 2) ∧ 0 ≤ 8 ∧ ((cStg 4096 2 64).f 20 1 / 2 == 1) = true ∧ ((serv stg (cStg 4096 2 64)).imageCheck 1 ((if ((cStg
      4096 2 64).f 20 1 % 2 == 1) = true then [] else ((serv stg (cStg 4096 2 64)).fw.slotOf (3 - (serv stg (cStg 4096 2
      64)).fw.slot)).image) ++ (serv stg (cStg 4096 2 64)).ext.readN ((cStg 4096 2 64).f 24 8) ((cStg 4096 2 64).f 32 4)) ≠ none)) ∧
    (serving (serv (wrn stg) (cStg 4096 2 64)) ch (cStg 4096 2 64) 23 = true ∧ clean (cStg 4096 2 64) [(16, 4), (20, 1), (24, 8), (32, 4)]
      = true ∧ (cStg 4096 2 64).f 20 1 ≤ 3 ∧ bufferOk (cStg 4096 2 64) 24 ((cStg 4096 2 64).f 32 4) = true ∧ ((decide ((cStg 4096 2 64).f
      16 4 % 4096 = 0) && if ((cStg 4096 2 64).f 20 1 % 2 == 1) = true then (cStg 4096 2 64).f 16 4 == 0 else !((serv (wrn stg) (cStg 4096
      2 64)).fw.slotOf (3 - (serv (wrn stg) (cStg 4096 2 64)).fw.slot)).bootable && (cStg 4096 2 64).f 16 4 == ((serv (wrn stg) (cStg 4096
      2 64)).fw.slotOf (3 - (serv (wrn stg) (cStg 4096 2 64)).fw.slot)).staged) = true) ∧ (decide (1 ≤ (cStg 4096 2 64).f 32 4 ∧ (cStg 4096
      2 64).f 32 4 ≤ 262144 ∧ (cStg 4096 2 64).f 16 4 + (cStg 4096 2 64).f 32 4 ≤ 1835008) = true) ∧ (serv (wrn stg) (cStg 4096 2
      64)).fw.state = FwState.committed ∧ (serv (wrn stg) (cStg 4096 2 64)).pins.supplyWarn = true) ∧
    (serving (serv stgTrial (cStg 4096 2 64)) ch (cStg 4096 2 64) 23 = true ∧ clean (cStg 4096 2 64) [(16, 4), (20, 1), (24, 8), (32, 4)] =
      true ∧ (cStg 4096 2 64).f 20 1 ≤ 3 ∧ bufferOk (cStg 4096 2 64) 24 ((cStg 4096 2 64).f 32 4) = true ∧ ((decide ((cStg 4096 2 64).f 16
      4 % 4096 = 0) && if ((cStg 4096 2 64).f 20 1 % 2 == 1) = true then (cStg 4096 2 64).f 16 4 == 0 else !((serv stgTrial (cStg 4096 2
      64)).fw.slotOf (3 - (serv stgTrial (cStg 4096 2 64)).fw.slot)).bootable && (cStg 4096 2 64).f 16 4 == ((serv stgTrial (cStg 4096 2
      64)).fw.slotOf (3 - (serv stgTrial (cStg 4096 2 64)).fw.slot)).staged) = true) ∧ (decide (1 ≤ (cStg 4096 2 64).f 32 4 ∧ (cStg 4096 2
      64).f 32 4 ≤ 262144 ∧ (cStg 4096 2 64).f 16 4 + (cStg 4096 2 64).f 32 4 ≤ 1835008) = true) ∧ (serv stgTrial (cStg 4096 2
      64)).fw.state ≠ FwState.committed) := by
  and_intros <;> decide +kernel

theorem witness_firmwareChanges :
    (serving (serv stg (cAct 2)) ch (cAct 2) 24 = true ∧ clean (cAct 2) [(16, 1)] = true ∧ 1 ≤ (cAct 2).f 16 1 ∧ (cAct 2).f 16 1 ≤ 2 ∧
      ((serv stg (cAct 2)).fw.slotOf ((cAct 2).f 16 1)).bootable = false) ∧
    (serving (serv stB (cAct 2)) ch (cAct 2) 24 = true ∧ clean (cAct 2) [(16, 1)] = true ∧ 1 ≤ (cAct 2).f 16 1 ∧ (cAct 2).f 16 1 ≤ 2 ∧
      ((serv stB (cAct 2)).fw.slotOf ((cAct 2).f 16 1)).bootable = true ∧ (serv stB (cAct 2)).pins.supplyWarn = false ∧ 0 ≤ 8) ∧
    (serving (serv stB (cAct 2)) ch (cAct 2) 24 = true ∧ clean (cAct 2) [(16, 1)] = true ∧ 1 ≤ (cAct 2).f 16 1 ∧ (cAct 2).f 16 1 ≤ 2 ∧
      ((serv stB (cAct 2)).fw.slotOf ((cAct 2).f 16 1)).bootable = true ∧ (serv stB (cAct 2)).pins.supplyWarn = false ∧ 8 < 9) ∧
    (serving (serv (wrn stB) (cAct 2)) ch (cAct 2) 24 = true ∧ clean (cAct 2) [(16, 1)] = true ∧ 1 ≤ (cAct 2).f 16 1 ∧ (cAct 2).f 16 1 ≤ 2
      ∧ ((serv (wrn stB) (cAct 2)).fw.slotOf ((cAct 2).f 16 1)).bootable = true ∧ (serv (wrn stB) (cAct 2)).pins.supplyWarn = true) ∧
    (serving (serv stg (cAct 3)) ch (cAct 3) 24 = true ∧ clean (cAct 3) [(16, 1)] = true ∧ ((cAct 3).f 16 1 < 1 ∨ 2 < (cAct 3).f 16 1)) ∧
    (serving (serv stg cRb) ch cRb 26 = true ∧ clean cRb [] = true ∧ ((serv stg cRb).fw.slotOf (3 - (serv stg cRb).fw.slot)).bootable =
      false) ∧
    (serving (serv stB cRb) ch cRb 26 = true ∧ clean cRb [] = true ∧ ((serv stB cRb).fw.slotOf (3 - (serv stB cRb).fw.slot)).bootable =
      true ∧ (serv stB cRb).pins.supplyWarn = false ∧ 0 ≤ 8) ∧
    (serving (serv stB cRb) ch cRb 26 = true ∧ clean cRb [] = true ∧ ((serv stB cRb).fw.slotOf (3 - (serv stB cRb).fw.slot)).bootable =
      true ∧ (serv stB cRb).pins.supplyWarn = false ∧ 8 < 9) ∧
    (serving (serv (wrn stB) cRb) ch cRb 26 = true ∧ clean cRb [] = true ∧ ((serv (wrn stB) cRb).fw.slotOf (3 - (serv (wrn stB)
      cRb).fw.slot)).bootable = true ∧ (serv (wrn stB) cRb).pins.supplyWarn = true) ∧
    (serving (serv stg cCm) ch cCm 25 = true ∧ clean cCm [] = true ∧ (serv stg cCm).fw.state = FwState.committed) ∧
    (serving (serv stT cCm) ch cCm 25 = true ∧ clean cCm [] = true ∧ (serv stT cCm).fw.state ≠ FwState.committed ∧ (serv stT
      cCm).pins.supplyWarn = false ∧ 0 ≤ 8) ∧
    (serving (serv stT cCm) ch cCm 25 = true ∧ clean cCm [] = true ∧ (serv stT cCm).fw.state ≠ FwState.committed ∧ (serv stT
      cCm).pins.supplyWarn = false ∧ 8 < 9) ∧
    (serving (serv (wrn stT) cCm) ch cCm 25 = true ∧ clean cCm [] = true ∧ (serv (wrn stT) cCm).fw.state ≠ FwState.committed ∧ (serv (wrn
      stT) cCm).pins.supplyWarn = true) := by
  and_intros <;> decide +kernel

end Sys2Proof.Tests
end

section
/-! SUPPORT. Instruction words (R11, R113, R116, R156, R157): every field of a word is read back where it was written. -/

namespace Sys2Proof

/-! ### Engine instructions (R113) -/

theorem opcode_encodeFields (op : Byte) (f : Fields) : wordField (encodeFields op f) 120 8 = op := by
  simp (disch := decide) [encodeFields, -Nat.reduceAdd, BitVec.extractLsb'_append_eq_of_le]

theorem decodeFields_encodeFields (op : Byte) (f : Fields) : decodeFields (encodeFields op f) = f := by
  simp (disch := decide) [decodeFields, encodeFields, -Nat.reduceAdd, BitVec.extractLsb'_append_eq_of_le,
    BitVec.extractLsb'_append_eq_of_add_le, BitVec.getLsbD_append, -BitVec.getLsbD_eq_getElem]

theorem decodeOpcode_encodeFields {op : Nat} (lo : 0x20 ≤ op) (hi : op < 256) (k : SliceId) (f : Fields) :
    decodeOpcode k (encodeFields (BitVec.ofNat 8 op) f) = engineInstr k f op := by
  simp [decodeOpcode, opcode_encodeFields, decodeFields_encodeFields, Nat.mod_eq_of_lt hi, lo]

/-- The two opcode tables of the model, by instruction and by opcode, agree. -/
theorem engineInstr_of_engine? {i : Instr} {k : SliceId} {op : Nat} {f : Fields} (h : i.engine? = some (k, op, f)) :
    0x20 ≤ op ∧ op < 256 ∧ engineInstr k f op = some i := by
  unfold Instr.engine? at h
  split at h <;> cases h <;> exact ⟨by decide, by decide, rfl⟩

theorem encodeWord_engine {i : Instr} {k : SliceId} {op : Nat} {f : Fields} (h : i.engine? = some (k, op, f)) :
    encodeWord i = some (encodeFields (BitVec.ofNat 8 op) f) := by
  rw [encodeWord, h]

/-! ### Control and scalar instructions (R116, R156) -/

theorem encodeWord_control {i : Instr} (h : i.engine? = none) : encodeWord i = i.controlWord? := by
  rw [encodeWord, h]

theorem decodeOpcode_controlWord? {i : Instr} {w : BitVec 128} (h : i.controlWord? = some w) :
    ∃ k, decodeOpcode k w = some i := by
  cases i with
  | nop k | ret k | endstrip k | tickwait k => cases h; exact ⟨k, rfl⟩
  | call | strip | waitAcquire | waitDrain | signal | cset | cadd | caddc | cldp | ccmpi | ccmpc | clogic | pset | padd | pfromc
  | cwrap =>
    cases h
    simp (disch := decide) [decodeOpcode, controlInstr, decodeCall, encodeCall, decodeWait, encodeWait, -Nat.reduceAdd,
      BitVec.extractLsb'_append_eq_of_le, BitVec.extractLsb'_append_eq_of_add_le, BitVec.getLsbD_append,
      -BitVec.getLsbD_eq_getElem]
  | _ => cases h

/-! ### All instructions -/

theorem decodeOpcode_encodeWord {i : Instr} {w : BitVec 128} (h : encodeWord i = some w) : ∃ k, decodeOpcode k w = some i := by
  cases he : i.engine? with
  | none => exact decodeOpcode_controlWord? (encodeWord_control he ▸ h)
  | some e =>
    obtain ⟨k, op, f⟩ := e
    obtain ⟨lo, hi, hdec⟩ := engineInstr_of_engine? he
    rw [encodeWord_engine he, Option.some.injEq] at h
    exact ⟨k, by rw [← h, decodeOpcode_encodeFields lo hi, hdec]⟩

/-- Decoding refuses what is not well formed, and a word with a bit that encoding does not write back. -/
theorem decodeWord_eq_some_iff {k : SliceId} {w : BitVec 128} {i : Instr} :
    decodeWord k w = some i ↔ decodeOpcode k w = some i ∧ i.wf = true ∧ encodeWord i = some w := by
  simp [decodeWord, Option.filter_eq_some_iff]

/-- Settles O60: encoding writes each field where decoding reads it, and decoding keeps only what encodes to the word itself. -/
theorem wordsRoundTrip : Obligations.WordsRoundTrip := by
  unfold Obligations.WordsRoundTrip
  refine ⟨fun i w henc hwf => ?_, fun i k w h => (decodeWord_eq_some_iff.mp h).2, fun i k op f h => encodeWord_engine h,
    fun k n imm p b sem => ⟨rfl, rfl, rfl, rfl, rfl, rfl⟩⟩
  obtain ⟨k, hk⟩ := decodeOpcode_encodeWord henc
  exact ⟨k, decodeWord_eq_some_iff.mpr ⟨hk, hwf, henc⟩⟩

end Sys2Proof
end

section
/-! SUPPORT. Accesses of the register window (R11 to R13, R38, R401): what a read or a write answers, and the registers that the window
treats by themselves. -/

namespace Sys2Proof.Machine

/-! ### What a read clears -/

@[simp] theorem State.modStat_pending (s : State) (n : Nat) (f : PoolStat → PoolStat) : (s.modStat n f).pending = s.pending := rfl
@[simp] theorem State.modStat_chip (s : State) (n : Nat) (f : PoolStat → PoolStat) : (s.modStat n f).chip = s.chip := rfl

@[simp] theorem State.clearFixed_pending (s : State) (off : Nat) : (s.clearFixed off).pending = s.pending := by
  unfold State.clearFixed; split <;> rfl

@[simp] theorem State.clearFixed_chip (s : State) (off : Nat) : (s.clearFixed off).chip = s.chip := by
  unfold State.clearFixed; split <;> rfl

@[simp] theorem State.clearReg_pending (s : State) (off : Nat) : (s.clearReg off).pending = s.pending := by
  unfold State.clearReg; split <;> simp [apply_ite State.pending]

@[simp] theorem State.clearReg_chip (s : State) (off : Nat) : (s.clearReg off).chip = s.chip := by
  unfold State.clearReg; split <;> simp [apply_ite State.chip]

/-! ### The identity area and the reserved page at the end of the window (R13, R38) -/

theorem page_outside {off : Nat} (h : off < 0x1000 ∨ 0xF000 ≤ off) (hi : off < 0x10000) : off / 4096 = 0 ∨ off / 4096 = 15 := by
  omega

theorem State.clearFixed_outside (s : State) {off : Nat} (h : off < 0x1000 ∨ 0xF000 ≤ off) : s.clearFixed off = s := by
  unfold State.clearFixed
  split
  case h_19 => rfl
  all_goals omega

theorem State.writeFixed_outside (s : State) (src : W12) {off : Nat} (d : W64) (h : off < 0x1000 ∨ 0xF000 ≤ off) :
    s.writeFixed src off d = some s := by
  unfold State.writeFixed
  split
  case h_12 => rfl
  all_goals omega

theorem State.clearReg_outside (s : State) {off : Nat} (h : off < 0x1000 ∨ 0xF000 ≤ off) (hi : off < 0x10000) :
    s.clearReg off = s := by
  rcases page_outside h hi with hp | hp <;> simp [State.clearReg, hp, s.clearFixed_outside h]

theorem State.writeReg_outside (s : State) (src : W12) {off : Nat} (d : W64) (h : off < 0x1000 ∨ 0xF000 ≤ off)
    (hi : off < 0x10000) : s.writeReg src off d = some s := by
  rcases page_outside h hi with hp | hp <;> simp [State.writeReg, hp, s.writeFixed_outside src d h]

theorem State.readReg_reserved (s : State) {off : Nat} (h : 0xF000 ≤ off) (hi : off < 0x10000) : s.readReg off = 0 := by
  have hp : off / 4096 = 15 := by omega
  simp [State.readReg, hp]

/-! ### Registers with one meaning of their own -/

theorem fld_toNat {w : Nat} (lo : Nat) (v : BitVec w) : fld lo w v.toNat = v.toNat * 2 ^ lo := by
  rw [fld, Nat.mod_eq_of_lt v.isLt]

theorem pack_four (a b c d : Nat) : pack [a, b, c, d] = a + b + c + d := by
  simp [pack]

/-- The error counters of the tick (R355). -/
theorem State.readReg_tickErrors (s : State) : s.readReg 0x2030 =
    s.tick.glitch.toNat + s.tick.missed.toNat * 2 ^ 16 + s.tick.overexp.toNat * 2 ^ 32 + s.tick.slips.toNat * 2 ^ 48 := by
  have hr : s.readReg 0x2030 = pack [s.tick.glitch.toNat, fld 16 16 s.tick.missed.toNat, fld 32 16 s.tick.overexp.toNat,
      fld 48 16 s.tick.slips.toNat] := rfl
  rw [hr, pack_four, fld_toNat, fld_toNat, fld_toNat]

/-- Word `i` of the request that a channel stages (R428). -/
theorem State.writeReg_stage (s : State) (src : W12) (d : W64) (c : Channel) (i : Fin 8) :
    s.writeReg src (0x1000 + c.val * 0x100 + i.val * 8) d =
      some (s.modChan c.val fun x => { x with stage := x.stage.set i d }) := by
  have hp : (0x1000 + c.val * 0x100 + i.val * 8) / 4096 = 1 := by omega
  have hc : (0x1000 + c.val * 0x100 + i.val * 8) % 4096 / 256 = c.val := by omega
  have ho : (0x1000 + c.val * 0x100 + i.val * 8) % 4096 % 256 = i.val * 8 := by omega
  have hi : i.val * 8 < 0x40 := by omega
  simp only [State.writeReg, hp, hc, ho, State.writeMbox, if_pos hi, Nat.mul_div_cancel _ (by decide : 0 < 8),
    setIfInBounds_eq_set _ _ _ i.isLt]

theorem State.ownerRefuses_eq_false_iff (s : State) (src : W12) :
    s.ownerRefuses src = false ↔ s.sec.ownerValid = false ∨ s.sec.owner = src := by
  simp [State.ownerRefuses, Decidable.imp_iff_not_or]

/-- Word `i` of the unlock token (R537), from a node that the registered owner does not exclude (R535). -/
theorem State.writeReg_unlockData (s : State) (src : W12) (d : W64) (i : Fin 12) (h : s.ownerRefuses src = false) :
    s.writeReg src (0xD060 + i.val * 8) d = some { s with sec := { s.sec with data := s.sec.data.set i d } } := by
  have hp : (0xD060 + i.val * 8) / 4096 = 13 := by omega
  have ho : (0xD060 + i.val * 8) % 4096 = 0x60 + i.val * 8 := by omega
  have hin : 0x60 ≤ 0x60 + i.val * 8 ∧ 0x60 + i.val * 8 < 0xC0 := by omega
  have hd : (0x60 + i.val * 8 - 0x60) / 8 = i.val := by omega
  simp only [State.writeReg, hp, ho, State.writeSec, if_pos hin, hd, h, setIfInBounds_eq_set _ _ _ i.isLt, Bool.false_eq_true,
    if_false]

/-! ### The two commands -/

section
variable {s : State} {a : RegAcc} {d : W64}

theorem exec_registerReadClear_unaddressed (hl : s.live = true) (hv : s.node.valid = false) :
    exec (.registerReadClear a) s = .next s :=
  act_eq hl (by simp [hv]) rfl rfl

theorem exec_registerWrite_unaddressed (hl : s.live = true) (hv : s.node.valid = false) :
    exec (.registerWrite a d) s = .next s :=
  act_eq hl (by simp [State.cpWrite, hv]) rfl rfl

theorem exec_registerReadClear_bad (hl : s.live = true) (hv : s.node.valid = true) (hb : accBad a = true) :
    exec (.registerReadClear a) s = .next (answered s a.src a.offset.toNat false) :=
  act_eq hl (by simp [hv, hb]; rfl) rfl rfl

theorem exec_registerWrite_bad (hl : s.live = true) (hv : s.node.valid = true) (hb : accBad a = true) :
    exec (.registerWrite a d) s = .next (answered s a.src a.offset.toNat false) :=
  act_eq hl (by simp [State.cpWrite, hv, hb]; rfl) rfl rfl

/-- A read answers with the value from before it clears anything (R12). -/
theorem exec_registerReadClear_ok (hl : s.live = true) (hv : s.node.valid = true) (hb : accBad a = false) :
    exec (.registerReadClear a) s =
      .next { s.clearReg a.offset.toNat with
        ports := { (s.clearReg a.offset.toNat).ports with
          cpResp := some ⟨3, a.src, a.offset, BitVec.ofNat 64 (s.readReg a.offset.toNat)⟩ } } :=
  act_eq hl (by simp [hv, hb, State.respond]) (by simp) (by simp)

theorem exec_registerWrite_ok {t : State} (hl : s.live = true) (hv : s.node.valid = true) (hb : accBad a = false)
    (h : s.writeReg a.src a.offset.toNat d = some t) (hp : t.pending = s.pending) (hc : t.chip = s.chip) :
    exec (.registerWrite a d) s = .next (answered t a.src a.offset.toNat true) :=
  act_eq hl (by simp [State.cpWrite, hv, hb, h]; rfl) hp hc

end

/-- Settles O28: the rule of each command gives the answer, and the lemma of each register what it holds afterwards. -/
theorem registerAccesses : Obligations.RegisterAccesses := by
  unfold Obligations.RegisterAccesses
  intro s a d hl off bad got
  refine ⟨fun hv => ⟨exec_registerReadClear_unaddressed hl hv, exec_registerWrite_unaddressed hl hv⟩,
    fun hv hb => ⟨exec_registerReadClear_bad hl hv hb, exec_registerWrite_bad hl hv hb⟩, fun hv hb => ?_⟩
  have hi : a.offset.toNat < 0x10000 := a.offset.isLt
  have read := exec_registerReadClear_ok hl hv hb
  have write {t : State} := exec_registerWrite_ok (d := d) (t := t) hl hv hb
  refine ⟨⟨_, read, rfl⟩, fun h => ⟨?identityRead, write (s.writeReg_outside _ _ h hi) rfl rfl⟩,
    fun h => s.readReg_reserved h hi, fun (h : a.offset.toNat = _) => ?tickErrors, fun (h : a.offset.toNat = _) => ?route,
    fun (h : a.offset.toNat = _) => ?aperture, fun c i (h : a.offset.toNat = _) => ?stage,
    fun i (h : a.offset.toNat = _) howner => ?unlockData⟩
  case identityRead => rw [read, s.clearReg_outside h hi]
  case tickErrors => rw [read, h, s.readReg_tickErrors]; rfl
  case route => exact write (by rw [h]; rfl) rfl rfl
  case aperture => exact write (by rw [h]; rfl) rfl rfl
  case stage => exact write (by rw [h, s.writeReg_stage]) rfl rfl
  case unlockData =>
    exact write (by rw [h, s.writeReg_unlockData _ _ _ ((s.ownerRefuses_eq_false_iff _).mpr howner)]) rfl rfl

end Sys2Proof.Machine
end

section
/-! SUPPORT. What manufacture fixes (R38, R39): no command changes it, and the identity registers read nothing else. -/

namespace Sys2Proof.Machine

/-! ### Commands that are answered on a block in reset or under test too -/

@[simp] theorem State.afterReset_chip (s : State) : s.afterReset.chip = s.chip := rfl

@[simp] theorem State.release_chip (s : State) : s.release.chip = s.chip := by
  unfold State.release; split <;> rfl

@[simp] theorem State.loadWir_chip (s : State) (wir : Nat) : (s.loadWir wir).chip = s.chip := rfl

@[simp] theorem State.instrument_chip (s : State) (i : Nat) : (s.instrument i).chip = s.chip := by
  unfold State.instrument; split <;> rfl

/-- A pin of the supply monitor: a live block acts on its change, another one only sees the pin. -/
theorem chip_of_act_or_pin {s t u v : State} (h : (if s.live then act s u else .next v) = .next t) (hv : v.chip = s.chip) :
    t.chip = s.chip := by
  split at h
  · exact (act_next _ _ _ h).2
  · cases h; exact hv

/-! ### All commands -/

/-- No command changes what manufacture fixed: all but the reset, the test access and the supply pins answer by `act`. -/
theorem exec_chip {c : Instr} {s t : State} (h : exec c s = .next t) : t.chip = s.chip := by
  cases c with
  | resetAssert => cases h; exact s.afterReset_chip
  | resetRelease => cases h; exact s.release_chip
  | testInstructionLoad wir => cases h; exact s.loadWir_chip _
  | ijtagInstrumentAccess inst => cases h; exact s.instrument_chip _
  | wrstnAssert => cases h; rfl
  | supplyWarn => exact chip_of_act_or_pin h rfl
  | supplyWarnDeasserted => exact chip_of_act_or_pin h rfl
  | _ => exact (act_next _ _ _ h).2

/-! ### The identity registers -/

/-- The identity registers show what manufacture fixed, all but SLICE_AVAIL (R38). -/
theorem State.readIdent_congr {s t : State} (hc : t.chip = s.chip) {off : Nat} (h : off ≠ 0x18) :
    t.readIdent off = s.readIdent off := by
  simp only [State.readIdent, hc]
  split
  · rfl
  · split
    case h_4 => exact absurd rfl h
    all_goals rfl

theorem State.readReg_ident (s : State) {off : Nat} (h : off < 0x1000) : s.readReg off = s.readIdent off := by
  simp [State.readReg, Nat.div_eq_of_lt h, Nat.mod_eq_of_lt h]

/-- Settles O29: a command leaves the chip alone, and the identity registers are read from the chip. -/
theorem identityIsFixed : Obligations.IdentityIsFixed := by
  unfold Obligations.IdentityIsFixed
  intro c s t off hexec hoff hne
  rw [t.readReg_ident hoff, s.readReg_ident hoff, State.readIdent_congr (exec_chip hexec) hne]

end Sys2Proof.Machine
end

section
/-! SUPPORT. What the block holds right after RESET_N is released (R407, R411, R414): every unit at its own reset value. -/

namespace Sys2Proof.Machine

theorem getD_getElem?_replicate {α : Type} (n k : Nat) (a : α) : ((Vector.replicate n a)[k]?).getD a = a := by
  rw [Vector.getElem?_replicate]; split <;> rfl

theorem State.reset_sl (k : Nat) : State.reset.sl k = Slice.reset := getD_getElem?_replicate ..

theorem State.reset_chan (c : Nat) : State.reset.chan c = Chan.reset := getD_getElem?_replicate ..

theorem State.reset_sport (p : Nat) : State.reset.sport p = Sport.reset := getD_getElem?_replicate ..

theorem State.reset_col (c : Nat) : State.reset.col c = Column.reset := getD_getElem?_replicate ..

theorem State.reset_sem (n : Nat) : State.reset.sem n = Sem.reset := getD_getElem?_replicate ..

/-- No channel runs a command, and none owes a completion. -/
theorem State.reset_cmds : State.reset.cmds = [] := by
  have hconts : State.reset.fw.conts = [] := rfl
  simp [State.cmds, State.reset_chan, Chan.reset, hconts]

/-- Settles O43: the units of the block by their reset values, the members of each vector by one lemma. -/
theorem resetState : Obligations.ResetState := by
  unfold Obligations.ResetState
  refine ⟨rfl, rfl, rfl, rfl, rfl, rfl, rfl, rfl, rfl, rfl, rfl, rfl, rfl, rfl, rfl, rfl, rfl, rfl, rfl, rfl, rfl, State.reset_cmds, rfl,
    fun k => ?slices, fun c => ?columns, fun n => State.reset_sem n, fun c => ?channels, fun p => State.reset_sport p⟩
  case slices => rw [State.reset_sl]; exact ⟨rfl, rfl, rfl, rfl, rfl, rfl, rfl, rfl⟩
  case columns => rw [State.reset_col]; rfl
  case channels => rw [State.reset_chan]; exact ⟨rfl, rfl⟩

end Sys2Proof.Machine
end

section
/-! SUPPORT. Entries of the contact sheet (R377, R382): what writing one leaves alone. -/

namespace Sys2Proof.Machine

/-- `t` is `s` after some entries: the sheet, the external memory that it spills to and interrupt bits, which are only set. -/
def State.Logged (s t : State) : Prop :=
  ∃ sheet ext bits, t = { s with sheet := sheet, ext := ext, irq := { s.irq with status := s.irq.status ||| bits } }

namespace State.Logged
variable {s t u : State}

theorem of_sheet (s : State) (sheet : Sheet) (ext : Mem) : s.Logged { s with sheet := sheet, ext := ext } :=
  ⟨sheet, ext, 0, by simp⟩

theorem refl (s : State) : s.Logged s := of_sheet s s.sheet s.ext

theorem trans (hst : s.Logged t) (htu : t.Logged u) : s.Logged u := by
  obtain ⟨_, _, b, rfl⟩ := hst
  obtain ⟨sheet, ext, b', rfl⟩ := htu
  exact ⟨sheet, ext, b ||| b', by simp [BitVec.or_assoc]⟩

theorem irqSet (s : State) (i : Nat) : s.Logged (s.irqSet i) := ⟨s.sheet, s.ext, 1#9 <<< i, rfl⟩

theorem ite {c : Prop} [Decidable c] (ht : s.Logged t) (hu : s.Logged u) : s.Logged (if c then t else u) := by
  split
  · exact ht
  · exact hu

/-- An entry that finds room may raise the fault line and the watermark's; one that is lost raises the latter (R377). -/
theorem log (s : State) (src kind code : Nat) (fault : Bool) (data : List Byte) (trace : Bool) :
    s.Logged (s.log src kind code fault data trace) := by
  unfold State.log
  dsimp only
  split
  · exact (of_sheet s _ _).trans (irqSet _ 7)
  · exact ((of_sheet s _ _).trans (ite (irqSet _ 1) (refl _))).trans (ite (irqSet _ 7) (refl _))

theorem logPower (h : s.Logged t) (code obj old new v0 v1 : Nat) : s.Logged (t.logPower code obj old new v0 v1) :=
  h.trans (log ..)

theorem power (h : s.Logged t) : t.power = s.power := by obtain ⟨_, _, _, rfl⟩ := h; rfl
theorem ports (h : s.Logged t) : t.ports = s.ports := by obtain ⟨_, _, _, rfl⟩ := h; rfl
theorem pins (h : s.Logged t) : t.pins = s.pins := by obtain ⟨_, _, _, rfl⟩ := h; rfl
theorem slices (h : s.Logged t) : t.slices = s.slices := by obtain ⟨_, _, _, rfl⟩ := h; rfl
theorem pending (h : s.Logged t) : t.pending = s.pending := by obtain ⟨_, _, _, rfl⟩ := h; rfl
theorem chip (h : s.Logged t) : t.chip = s.chip := by obtain ⟨_, _, _, rfl⟩ := h; rfl

theorem irq_mono (h : s.Logged t) {i : Nat} (hi : s.irq.status.getLsbD i = true) : t.irq.status.getLsbD i = true := by
  obtain ⟨_, _, _, rfl⟩ := h
  simp only [BitVec.getLsbD_or, hi, Bool.true_or]

end State.Logged

theorem State.irqSet_status (s : State) {i : Nat} (hi : i < 9) : (s.irqSet i).irq.status.getLsbD i = true := by
  simp [State.irqSet, BitVec.getLsbD_or, -BitVec.getLsbD_eq_getElem, hi]

/-- The answer of a command of a live block whose last effect is to write entries. -/
theorem act_logged {s t u : State} (hl : s.live = true) (h : u.Logged t) (hp : u.pending = s.pending) (hc : u.chip = s.chip) :
    act s t = .next t :=
  act_live s t hl (h.pending.trans hp) (h.chip.trans hc)

end Sys2Proof.Machine
end

section
/-! SUPPORT. Operating points (R33 to R36, R394, R507 to R509) and the supply clamp (R522): what each command of the power manager
does, and what it leaves alone. -/

namespace Sys2Proof.Machine

/-! ### The point chosen (R507 to R509) -/

/-- The point that the manager wants: the cap target, no less than the floor, no more than the limits allow (R508). -/
def State.wantedPoint (s : State) : Nat := min (max s.capTarget s.floor) (min s.thermTarget s.power.emulLimit)

/-- A limit forces a point below the one that the cap and the floor give (R509). -/
def State.pointLimited (s : State) : Bool := decide (min s.thermTarget s.power.emulLimit < max s.capTarget s.floor)

/-- The state with the manager's targets recorded. -/
def State.withTargets (s : State) : State :=
  { s with power := { s.power with
    capTarget := s.capTarget, floor := s.floor, capLimited := decide (s.capTarget < s.floor), thermLimited := s.pointLimited,
    target := if s.power.clamp then 0 else s.wantedPoint } }

/-- No change is requested: the clamp holds, the point is the wanted one already, or a change is pending. -/
def State.staysAtPoint (s : State) : Bool := s.power.clamp || s.wantedPoint == s.power.op || s.ports.dvfs.pending

theorem State.evaluate_notReady {s : State} (h : s.start.phase ≠ .ready) : s.evaluate = s := by
  simp [State.evaluate, h]

theorem State.evaluate_ready {s : State} (h : s.start.phase = .ready) :
    s.evaluate = if s.staysAtPoint then s.withTargets else s.withTargets.beginChange s.wantedPoint s.pointLimited := by
  simp only [State.evaluate, h, ne_eq, not_true_eq_false, if_false]; rfl

theorem State.staysAtPoint_iff (s : State) : s.staysAtPoint = true ↔
    s.power.clamp = true ∨ s.wantedPoint = s.power.op ∨ s.ports.dvfs.req = true ∨ s.ports.dvfs.settle.isSome = true := by
  simp [State.staysAtPoint, Dvfs.pending, or_assoc]

theorem State.staysAtPoint_eq_false {s : State} (hclamp : s.power.clamp = false) (hreq : s.ports.dvfs.req = false)
    (hsettle : s.ports.dvfs.settle = none) (hne : s.wantedPoint ≠ s.power.op) : s.staysAtPoint = false := by
  simp [State.staysAtPoint, Dvfs.pending, hclamp, hreq, hsettle, hne]

/-- A raise waits for the regulator, a lowering drives DVFS_REQ at once (R34, R394). -/
theorem State.beginChange_eq (s : State) (op : Nat) (therm : Bool) : s.beginChange op therm =
    { s with ports := { s.ports with dvfs :=
      if s.power.op < op then ⟨false, 0, some op, s.now, none, false, therm⟩ else ⟨true, op, none, s.now, none, false, therm⟩ } } := by
  unfold State.beginChange State.dvfsRequest; split <;> rfl

theorem State.evaluate_stays {s : State} (h : s.start.phase = .ready) (hs : s.staysAtPoint = true) : s.evaluate = s.withTargets := by
  rw [State.evaluate_ready h, if_pos hs]

theorem State.evaluate_changes {s : State} (h : s.start.phase = .ready) (hs : s.staysAtPoint = false) :
    s.evaluate = s.withTargets.beginChange s.wantedPoint s.pointLimited := by
  rw [State.evaluate_ready h, hs, if_neg Bool.false_ne_true]

/-- An evaluation changes the targets and the handshake only. -/
theorem State.evaluate_eq {s : State} (h : s.start.phase = .ready) :
    ∃ d, s.evaluate = { s.withTargets with ports := { s.ports with dvfs := d } } := by
  cases hs : s.staysAtPoint with
  | true => exact ⟨s.ports.dvfs, State.evaluate_stays h hs⟩
  | false => exact ⟨_, (State.evaluate_changes h hs).trans (State.beginChange_eq ..)⟩

theorem State.evaluate_power {s : State} (h : s.start.phase = .ready) : s.evaluate.power = s.withTargets.power := by
  obtain ⟨d, hd⟩ := State.evaluate_eq h; rw [hd]

theorem State.evaluate_slices {s : State} (h : s.start.phase = .ready) : s.evaluate.slices = s.slices := by
  obtain ⟨d, hd⟩ := State.evaluate_eq h; rw [hd]; rfl

/-- The handshake that an evaluation begins towards another point. -/
theorem State.evaluate_dvfs {s : State} (h : s.start.phase = .ready) (hs : s.staysAtPoint = false) (hne : s.wantedPoint ≠ s.power.op) :
    s.evaluate.ports.dvfs.req = decide (s.wantedPoint < s.power.op) ∧
    (s.power.op < s.wantedPoint → s.evaluate.ports.dvfs.settle = some s.wantedPoint) ∧
    (s.wantedPoint < s.power.op → s.evaluate.ports.dvfs.op = s.wantedPoint) ∧ s.evaluate.ports.dvfs.reqAt = s.now := by
  rw [State.evaluate_changes h hs, State.beginChange_eq]
  have hop : s.withTargets.power.op = s.power.op := rfl
  have hnow : s.withTargets.now = s.now := rfl
  rcases Nat.lt_or_gt_of_ne hne with hlower | hraise
  · simp [hop, hnow, hlower, Nat.lt_asymm hlower]
  · simp [hop, hnow, hraise, Nat.lt_asymm hraise]

theorem exec_powerEvaluation_notReady {s : State} (hl : s.live = true) (h : s.start.phase ≠ .ready) :
    exec .powerEvaluation s = .next s :=
  act_eq hl (State.evaluate_notReady h) rfl rfl

theorem exec_powerEvaluation_ready {s : State} (hl : s.live = true) (h : s.start.phase = .ready) :
    exec .powerEvaluation s = .next s.evaluate := by
  obtain ⟨d, hd⟩ := State.evaluate_eq h
  rw [hd]
  exact act_eq hl hd rfl rfl

/-! ### The handshake of a change (R394) -/

theorem State.voltSettled_none {s : State} (h : s.ports.dvfs.settle = none) : s.voltSettled = s := by
  simp only [State.voltSettled, h]

theorem State.voltSettled_some {s : State} {op : Nat} (h : s.ports.dvfs.settle = some op) : s.voltSettled =
    { s with
      power := { s.power with voltMv := opMv op }
      ports := { s.ports with dvfs := ⟨true, op, none, s.now, none, false, s.ports.dvfs.therm⟩ } } := by
  simp only [State.voltSettled, h]; rfl

theorem State.ack_ignored {s : State}
    (h : s.ports.dvfs.req = false ∨ s.ports.dvfs.switchAt ≠ none ∨ s.ports.dvfs.reqAt + 100000 < s.now) : s.ack = s := by
  simp [State.ack, Option.isSome_iff_ne_none, or_assoc, h]

theorem State.ack_taken {s : State} (hreq : s.ports.dvfs.req = true) (hat : s.ports.dvfs.switchAt = none)
    (ht : s.now ≤ s.ports.dvfs.reqAt + 100000) : s.ack =
      { s with ports := { s.ports with dvfs := { s.ports.dvfs with switchAt := some (s.now + 2000), atEdge := s.timedArmed } } } := by
  simp [State.ack, hreq, hat, ht]

theorem State.abandonChange_ignored {s : State}
    (h : s.ports.dvfs.req = false ∨ s.ports.dvfs.switchAt ≠ none ∨ s.now < s.ports.dvfs.reqAt + 100000) : s.abandonChange = s := by
  simp [State.abandonChange, Option.isSome_iff_ne_none, or_assoc, h]

theorem State.abandonChange_logged {s : State} (hreq : s.ports.dvfs.req = true) (hat : s.ports.dvfs.switchAt = none)
    (ht : s.ports.dvfs.reqAt + 100000 ≤ s.now) :
    { s with power := { s.power with voltMv := opMv s.power.op } }.dvfsIdle.Logged s.abandonChange := by
  simp only [State.abandonChange, hreq, hat, Nat.not_lt.mpr ht]
  exact (State.Logged.refl _).logPower ..

/-! ### The switch (R34 to R36, R394) -/

theorem State.switchDue_idle {s : State} (h : s.ports.dvfs.req = false ∨ s.ports.dvfs.switchAt = none) : s.switchDue = false := by
  unfold State.switchDue
  rcases h with h | h
  · split <;> simp [h]
  · rw [h]

theorem State.switchDue_eq {s : State} {n : Nat} (hreq : s.ports.dvfs.req = true) (hat : s.ports.dvfs.switchAt = some n) :
    s.switchDue = if s.ports.dvfs.atEdge || s.timedArmed then s.tick.count != 0 && decide (n ≤ s.tick.last.toNat)
      else decide (n ≤ s.now) := by
  simp only [State.switchDue, hat, hreq, Bool.true_and]

theorem State.switchPoint_notDue {s : State} (h : s.switchDue = false) : s.switchPoint = s := by
  simp [State.switchPoint, h]

/-- A lowering that goes too far is given up (R36, log 48). -/
theorem State.switchPoint_tooFar {s : State} (h : s.switchDue = true) (hf : s.lowersTooFar = true) :
    s.dvfsIdle.Logged s.switchPoint := by
  simp only [State.switchPoint, h, hf]
  exact (State.Logged.refl _).logPower ..

/-- The state whose clock and voltage are those of the requested point. -/
def State.atNewPoint (s : State) : State :=
  { s with power := { s.power with
    op := s.ports.dvfs.op, voltMv := opMv s.ports.dvfs.op,
    thermSteps := if s.ports.dvfs.therm then sat16 s.power.thermSteps 1 else s.power.thermSteps } }.dvfsIdle

theorem State.switchPoint_switches {s : State} (h : s.switchDue = true) (hf : s.lowersTooFar = false) :
    s.atNewPoint.Logged s.switchPoint := by
  simp only [State.switchPoint, h, hf, Bool.not_true, Bool.false_eq_true, if_false]
  have hnew : s.atNewPoint.Logged (s.atNewPoint.logPower 4 0xFFFF s.power.op s.ports.dvfs.op s.atNewPoint.power.tenths 0) :=
    (State.Logged.refl _).logPower ..
  exact .ite (hnew.logPower ..) hnew

/-! ### The clamp (R522) -/

theorem State.warn_notReady {s : State} (h : s.start.phase ≠ .ready) : s.warn =
    { s with pins := { s.pins with supplyWarn := true }, start := { s.start with warnSeen := true } } := by
  simp [State.warn, h]

/-- The state clamped to OP0 by a supply warning, before its entries. -/
def State.clamped (s : State) : State :=
  { s with
    pins := { s.pins with supplyWarn := true }
    power := { s.power with
      op := 0, target := 0, voltMv := opMv 0, clamp := true, clampUntil := none, clamps := sat16 s.power.clamps 1 } }.dvfsIdle

/-- A warning clamps the block and raises THERMAL, interrupt 3 (R522). -/
theorem State.warn_ready {s : State} (h : s.start.phase = .ready) :
    s.clamped.Logged s.warn ∧ s.warn.irq.status.getLsbD 3 = true := by
  let t := s.clamped.logPower 2 0xFFFF s.power.op 0 s.clamped.power.tenths 0
  have ht : s.clamped.Logged t := (State.Logged.refl _).logPower ..
  have hw : (t.irqSet 3).Logged s.warn := by
    simp only [State.warn, h, ne_eq, not_true_eq_false, if_false]
    exact .ite ((State.Logged.refl _).logPower ..) (.refl _)
  exact ⟨(ht.trans (.irqSet t 3)).trans hw, hw.irq_mono (t.irqSet_status (by decide))⟩

theorem State.warnOff_high {s : State} (h : s.pins.supplyWarn = false) : s.warnOff = s := by
  simp [State.warnOff, h]

/-- From the end of the warning the clamp holds for 100 µs (R522). -/
theorem State.warnOff_low {s : State} (h : s.pins.supplyWarn = true) : s.warnOff =
    { s with
      pins := { s.pins with supplyWarn := false }
      power := { s.power with clampUntil := if s.power.clamp then some (s.now + 100000) else none } } := by
  simp [State.warnOff, h]

theorem State.clampEnd_none {s : State} (h : s.power.clampUntil = none) : s.clampEnd = s := by
  simp only [State.clampEnd, h]

theorem State.clampEnd_early {s : State} {n : Nat} (h : s.power.clampUntil = some n) (hn : s.now < n) : s.clampEnd = s := by
  simp [State.clampEnd, h, hn]

theorem State.clampEnd_logged {s : State} {n : Nat} (h : s.power.clampUntil = some n) (hn : n ≤ s.now) :
    { s with power := { s.power with clamp := false, clampUntil := none } }.Logged s.clampEnd := by
  simp only [State.clampEnd, h, Nat.not_lt.mpr hn, if_false]
  exact (State.Logged.refl _).logPower ..

/-! ### The statement -/

theorem operatingPoints_hold : operatingPoints := by
  unfold operatingPoints
  intro s hl p d ack
  refine ⟨exec_powerEvaluation_notReady hl, fun h => ⟨s.evaluate, exec_powerEvaluation_ready hl h, ?evaluation⟩,
    fun h => act_eq hl (State.voltSettled_none h) rfl rfl,
    fun op h => ⟨_, act_eq hl (State.voltSettled_some h) rfl rfl, rfl, rfl, rfl, rfl, rfl⟩,
    fun h => act_eq hl (State.ack_ignored h) rfl rfl, fun hreq hat ht => act_eq hl (State.ack_taken hreq hat ht) rfl rfl,
    fun h => act_eq hl (State.abandonChange_ignored h) rfl rfl, fun hreq hat ht => ?timeout,
    fun h => act_eq hl (State.switchPoint_notDue (State.switchDue_idle h)) rfl rfl, fun n hreq hat => ?switch⟩
  case evaluation =>
    rw [State.evaluate_power h, State.evaluate_slices h]
    refine ⟨rfl, rfl, rfl, rfl, rfl, fun hs => ?_, fun hclamp hreq hsettle hne => ?_⟩
    · rw [State.evaluate_stays h (s.staysAtPoint_iff.mpr hs)]; rfl
    · exact State.evaluate_dvfs h (State.staysAtPoint_eq_false hclamp hreq hsettle hne) hne
  case timeout =>
    have hlog := State.abandonChange_logged hreq hat ht
    exact ⟨_, act_logged hl hlog rfl rfl, congrArg Ports.dvfs hlog.ports, hlog.power⟩
  case switch =>
    rw [← State.switchDue_eq hreq hat]
    refine ⟨fun hdue => act_eq hl (State.switchPoint_notDue hdue) rfl rfl, fun hdue hfar => ?_, fun hdue hfar => ?_⟩
    · have hlog := State.switchPoint_tooFar hdue hfar
      exact ⟨_, act_logged hl hlog rfl rfl, congrArg Ports.dvfs hlog.ports, hlog.power⟩
    · have hlog := State.switchPoint_switches hdue hfar
      exact ⟨_, act_logged hl hlog rfl rfl, congrArg Ports.dvfs hlog.ports, hlog.power⟩

theorem exec_supplyWarn_live {s : State} (hl : s.live = true) : exec .supplyWarn s = act s s.warn := if_pos hl

theorem exec_supplyWarnDeasserted_live {s : State} (hl : s.live = true) : exec .supplyWarnDeasserted s = act s s.warnOff := if_pos hl

theorem supplyWarnings_hold : supplyWarnings := by
  unfold supplyWarnings
  intro s hl p pins
  rw [exec_supplyWarn_live hl, exec_supplyWarnDeasserted_live hl]
  refine ⟨fun h => act_eq hl (State.warn_notReady h) rfl rfl, fun h => ?clamp, fun h => act_eq hl (State.warnOff_high h) rfl rfl,
    fun h => act_eq hl (State.warnOff_low h) rfl rfl, fun h => act_eq hl (State.clampEnd_none h) rfl rfl,
    fun n h hn => act_eq hl (State.clampEnd_early h hn) rfl rfl, fun n h hn => ?clampEnd⟩
  case clamp =>
    obtain ⟨hlog, hthermal⟩ := State.warn_ready h
    exact ⟨_, act_logged hl hlog rfl rfl, hlog.pins, congrArg Ports.dvfs hlog.ports, hthermal, hlog.slices, hlog.power⟩
  case clampEnd =>
    have hlog := State.clampEnd_logged h hn
    exact ⟨_, act_logged hl hlog rfl rfl, hlog.power, hlog.slices⟩

/-- Settles O42: each command by the equation of its step; entries of the contact sheet leave the point and the handshake alone. -/
theorem powerPoints : Obligations.PowerPoints := ⟨operatingPoints_hold, supplyWarnings_hold⟩

end Sys2Proof.Machine
end

section
/-! SUPPORT. The meter slots of a slice (R70, R73, R75): what they leave in their registers and publish when a frame ends, as functions of
the slice alone. -/

namespace Sys2Proof.Machine

/-! ### One slot -/

/-- A meter slot; the slots that a slice lacks are empty. -/
def Slice.slot (x : Slice) (i : Nat) : MeterSlot := (x.slots[i]?).getD ⟨none, 0, false, false⟩

/-- The destination of a slot is a register: its controls publish. -/
def Slice.slotPub (x : Slice) (i : Nat) : Bool := ((x.slotCtl i).map (·.pub)).getD false

/-- A slot publishes a new proposal: it saw a value other than 0. -/
def Slice.slotFresh (x : Slice) (i : Nat) : Bool := x.slotPub i && (x.slot i).seen && (x.slot i).amax != 0

/-- The exponent that a slot proposes, before its clamp. -/
def Slice.slotK (x : Slice) (i : Nat) : Int :=
  proposalK (f32 (x.slot i).amax) (fmtTop (((x.slotCtl i).map (·.fmt)).getD .fp32)) (((x.slotCtl i).map (·.head)).getD 0)

/-- The exponent in the range of the scales. -/
def clampK (kk : Int) : Int := max (-126) (min 126 kk)

/-- The scale of an exponent as the word of a register. -/
def proposalWord (kk : Int) : W64 := BitVec.ofNat 64 (toF32 (.fin false 1 (clampK kk)))

/-- What a slot leaves in its register MTRn. -/
def Slice.closedReg (x : Slice) (i : Nat) : MeterReg :=
  ⟨BitVec.ofNat 32 (x.slot i).amax, (x.slot i).seen, (x.slot i).nonfin, x.slotFresh i && clampK (x.slotK i) != x.slotK i, x.slotFresh i,
    if x.slotFresh i then BitVec.ofInt 9 (clampK (x.slotK i)) else ((x.mtr[i]?).getD ⟨0, false, false, false, false, 0⟩).propK⟩

/-- A slot as the next frame finds it. -/
def MeterSlot.cleared (m : MeterSlot) : MeterSlot := ⟨m.ctl, 0, false, false⟩

/-- The write of a closing slot in the inactive bracket: a new proposal, or what the active bracket holds. -/
def Slice.slotWrite (x : Slice) (i : Nat) : Option (Nat × W64) :=
  let preg := ((x.slotCtl i).map (·.preg)).getD 0
  if x.slotFresh i then some (preg, proposalWord (x.slotK i)) else if x.slotPub i then some (preg, x.param preg) else none

/-! ### All slots -/

/-- A bracket bank after some writes. -/
def putAll (v : Vector W64 64) (ps : List (Nat × W64)) : Vector W64 64 := ps.foldl (fun v p => v.setIfInBounds p.1 p.2) v

/-- A slice after some writes in its inactive bracket. -/
def Slice.putIn (x : Slice) (ps : List (Nat × W64)) : Slice :=
  { x with brk0 := if x.bracket then putAll x.brk0 ps else x.brk0, brk1 := if x.bracket then x.brk1 else putAll x.brk1 ps }

/-- A slice whose slot `i` is moved into its register; nothing is published. -/
def Slice.shutSlot (x : Slice) (i : Nat) : Slice :=
  { x with mtr := x.mtr.setIfInBounds i (x.closedReg i), slots := x.slots.setIfInBounds i (x.slot i).cleared }

/-- A slice with one meter slot closed. -/
def Slice.closeSlot (x : Slice) (i : Nat) : Slice := (x.shutSlot i).putIn (x.slotWrite i).toList

/-- The writes of the first `n` slots, in the order in which they close. -/
def Slice.slotWrites (x : Slice) (n : Nat) : List (Nat × W64) := (List.range n).filterMap x.slotWrite

/-- A slice with its first `n` meter slots closed. -/
def Slice.closeSlots (x : Slice) (n : Nat) : Slice :=
  { x with
    mtr := Vector.ofFn fun j : Fin 8 => if j.val < n then x.closedReg j else x.mtr[j]
    slots := Vector.ofFn fun j : Fin 8 => if j.val < n then (x.slot j).cleared else x.slots[j] }.putIn (x.slotWrites n)

theorem Slice.slot_fin (x : Slice) (i : Fin 8) : x.slot i.val = x.slots[i] := by simp [Slice.slot]

theorem putAll_append (v : Vector W64 64) (ps qs : List (Nat × W64)) : putAll v (ps ++ qs) = putAll (putAll v ps) qs :=
  List.foldl_append

theorem Slice.putIn_nil (x : Slice) : x.putIn [] = x := by simp [Slice.putIn, putAll]

theorem Slice.putIn_single (x : Slice) (p : Nat × W64) : x.putIn [p] = x.setParamIn p.1 p.2 := by
  cases h : x.bracket <;> simp [Slice.putIn, Slice.setParamIn, putAll, h]

/-- The meter of a descriptor lies in the descriptor table alone, not in the brackets. -/
theorem bindPlain_meter_congr {x y : Slice} (h : y.desc = x.desc) (d : Nat) : (bindPlain y d).t.meter = (bindPlain x d).t.meter := by
  simp only [bindPlain, Slice.descField, h]
  rfl

theorem Slice.slotCtl_congr {x y : Slice} {i : Nat} (hd : y.desc = x.desc) (hp : y.prog = x.prog) (hs : y.slot i = x.slot i) :
    y.slotCtl i = x.slotCtl i := by
  have hctl : ((y.slots[i]?).getD ⟨none, 0, false, false⟩).ctl = ((x.slots[i]?).getD ⟨none, 0, false, false⟩).ctl :=
    congrArg MeterSlot.ctl hs
  simp only [Slice.slotCtl, hp, hctl, bindPlain_meter_congr hd]

/-- A vector whose first `n` items are replaced, with the next one replaced too. -/
theorem setIfInBounds_ofFn_lt {α : Type} (a : Nat → α) (b : Fin 8 → α) (n : Nat) :
    (Vector.ofFn fun j : Fin 8 => if j.val < n then a j else b j).setIfInBounds n (a n) =
      Vector.ofFn fun j : Fin 8 => if j.val < n + 1 then a j else b j := by
  ext j hj
  simp only [Vector.getElem_setIfInBounds, Vector.getElem_ofFn]
  grind

section closeSlots
variable (x : Slice) {n : Nat}

@[simp] theorem Slice.closeSlots_zero : x.closeSlots 0 = x := by
  simp [Slice.closeSlots, Slice.slotWrites, Slice.putIn_nil]

theorem Slice.slot_closeSlots : (x.closeSlots n).slot n = x.slot n := by
  simp only [Slice.slot, Slice.closeSlots, Slice.putIn, Vector.getElem?_ofFn]
  split <;> simp_all

theorem Slice.mtr_closeSlots : (x.closeSlots n).mtr[n]? = x.mtr[n]? := by
  simp only [Slice.closeSlots, Slice.putIn, Vector.getElem?_ofFn]
  split <;> simp_all

theorem Slice.param_closeSlots (p : Nat) : (x.closeSlots n).param p = x.param p := by
  cases h : x.bracket <;> simp [Slice.param, Slice.closeSlots, Slice.putIn, h]

theorem Slice.slotCtl_closeSlots : (x.closeSlots n).slotCtl n = x.slotCtl n := Slice.slotCtl_congr rfl rfl x.slot_closeSlots

theorem Slice.slotPub_closeSlots : (x.closeSlots n).slotPub n = x.slotPub n := by
  simp only [Slice.slotPub, Slice.slotCtl_closeSlots]

theorem Slice.slotFresh_closeSlots : (x.closeSlots n).slotFresh n = x.slotFresh n := by
  simp only [Slice.slotFresh, Slice.slotPub_closeSlots, Slice.slot_closeSlots]

theorem Slice.slotK_closeSlots : (x.closeSlots n).slotK n = x.slotK n := by
  simp only [Slice.slotK, Slice.slotCtl_closeSlots, Slice.slot_closeSlots]

theorem Slice.closedReg_closeSlots : (x.closeSlots n).closedReg n = x.closedReg n := by
  simp only [Slice.closedReg, Slice.slotFresh_closeSlots, Slice.slotK_closeSlots, Slice.slot_closeSlots, Slice.mtr_closeSlots]

theorem Slice.slotWrite_closeSlots : (x.closeSlots n).slotWrite n = x.slotWrite n := by
  simp only [Slice.slotWrite, Slice.slotFresh_closeSlots, Slice.slotPub_closeSlots, Slice.slotK_closeSlots, Slice.slotCtl_closeSlots,
    Slice.param_closeSlots]

theorem Slice.slotWrites_succ : x.slotWrites (n + 1) = x.slotWrites n ++ (x.slotWrite n).toList := by
  cases h : x.slotWrite n <;> simp [Slice.slotWrites, List.range_succ, h]

/-- The slots close independently: closing the next one finds its controls, its extreme and the active bracket as the frame left them. -/
theorem Slice.closeSlot_closeSlots : (x.closeSlots n).closeSlot n = x.closeSlots (n + 1) := by
  have hreg : (x.closeSlots n).mtr.setIfInBounds n (x.closedReg n) = (x.closeSlots (n + 1)).mtr := setIfInBounds_ofFn_lt ..
  have hslot : (x.closeSlots n).slots.setIfInBounds n (x.slot n).cleared = (x.closeSlots (n + 1)).slots :=
    setIfInBounds_ofFn_lt (fun i => (x.slot i).cleared) ..
  rw [Slice.closeSlot, Slice.shutSlot, Slice.slotWrite_closeSlots, Slice.closedReg_closeSlots, Slice.slot_closeSlots, hreg, hslot]
  cases h : x.bracket <;> simp [Slice.closeSlots, Slice.putIn, Slice.slotWrites_succ, putAll_append, h]

end closeSlots

/-! ### What the slots publish (R73) -/

/-- A filter of a range that one index passes. -/
theorem filterMap_range_eq_singleton {α : Type} {f : Nat → Option α} {n i : Nat} {a : α} (hi : i < n) (ha : f i = some a)
    (hne : ∀ j < n, j ≠ i → f j = none) : (List.range n).filterMap f = [a] := by
  induction n with
  | zero => omega
  | succ n ih =>
    rw [List.range_succ, List.filterMap_append]
    by_cases e : i = n
    · have hnil : (List.range n).filterMap f = [] :=
        List.filterMap_eq_nil_iff.2 fun j hj => hne j (by grind) (by grind)
      rw [hnil, List.filterMap_cons_some (e ▸ ha), List.filterMap_nil, List.nil_append]
    · simp [ih (by omega) fun j hj => hne j (by omega), hne n (by omega) (Ne.symm e)]

section slotWrites
variable {x : Slice} {i : Nat}

theorem Slice.slotPub_eq_false (h : ∀ m, x.slotCtl i = some m → m.pub = false) : x.slotPub i = false := by
  unfold Slice.slotPub
  cases hctl : x.slotCtl i with
  | none => rfl
  | some m => exact h m hctl

theorem Slice.slotWrite_of_not_pub (h : ∀ m, x.slotCtl i = some m → m.pub = false) : x.slotWrite i = none := by
  simp [Slice.slotWrite, Slice.slotFresh, Slice.slotPub_eq_false h]

theorem Slice.slotWrite_of_seen {m : MeterCtl} (h : x.slotCtl i = some m) (hpub : m.pub = true) (hseen : (x.slot i).seen = true)
    (hamax : (x.slot i).amax ≠ 0) :
    x.slotWrite i = some (m.preg, proposalWord (proposalK (f32 (x.slot i).amax) (fmtTop m.fmt) m.head)) := by
  simp [Slice.slotWrite, Slice.slotFresh, Slice.slotPub, Slice.slotK, h, hpub, hseen, hamax]

theorem Slice.slotWrites_of_not_pub (h : ∀ i : Fin 8, ∀ m, x.slotCtl i.val = some m → m.pub = false) : x.slotWrites 8 = [] :=
  List.filterMap_eq_nil_iff.2 fun j hj => Slice.slotWrite_of_not_pub (h ⟨j, List.mem_range.1 hj⟩)

theorem Slice.slotWrites_of_one {i : Fin 8} {w : Nat × W64} (hw : x.slotWrite i.val = some w)
    (h : ∀ j : Fin 8, j ≠ i → ∀ m, x.slotCtl j.val = some m → m.pub = false) : x.slotWrites 8 = [w] :=
  filterMap_range_eq_singleton i.isLt hw fun j hj hne =>
    Slice.slotWrite_of_not_pub (h ⟨j, hj⟩ fun e => hne (congrArg Fin.val e))

end slotWrites

end Sys2Proof.Machine
end

section
/-! SUPPORT. The edge of a frame (R107, R360): what it makes of a slice, that it touches nothing else of the block but entries and marks of
configuration frames, and what the block edge adds. -/

namespace Sys2Proof.Machine

/-! ### The next frame of a slice (R107) -/

/-- A slice with its brackets swapped (step 2). -/
def Slice.swap (x : Slice) : Slice := { x with bracket := !x.bracket }

/-- A slice whose frame is counted, with the notes of the frame dropped (step 4). -/
def Slice.count (x : Slice) : Slice :=
  { x with
    sticky := [], patched := [], pwrites := [], progNs := [], hostNs := []
    seq := { x.seq with frame := x.seq.frame + 1 }
    cut := x.endCut }

/-- A slice after the edge of a frame that carries no sticky register and no switch. -/
def Slice.nextFrame (x : Slice) : Slice := (x.closeSlots 8).swap.count.startFrame

section nextFrame
variable (x : Slice)

/-- What goes on into the next frame. -/
theorem Slice.nextFrame_keeps : x.nextFrame.state = x.state ∧ x.nextFrame.startAt = x.startAt ∧ x.nextFrame.bank = x.bank ∧
    x.nextFrame.seq.cnt = x.seq.cnt ∧ x.nextFrame.seq.cmp = x.seq.cmp ∧ x.nextFrame.store = x.store ∧ x.nextFrame.tiles = x.tiles := by
  simp only [Slice.nextFrame, Slice.startFrame, Slice.count, Slice.swap, Slice.closeSlots, Slice.putIn, and_self]

/-- Where the next frame starts: nothing but the slice's state holds its issue. -/
theorem Slice.nextFrame_starts : x.nextFrame.seq.frame = x.seq.frame + 1 ∧ x.nextFrame.seq.pc = 0 ∧ x.nextFrame.seq.routine = none ∧
    x.nextFrame.seq.stack = [] ∧ x.nextFrame.canIssue = (x.state == .running) := by
  simp [Slice.canIssue, Slice.nextFrame, Slice.startFrame, Slice.count, Slice.swap, Slice.closeSlots, Slice.putIn]

theorem Slice.nextFrame_bracket : x.nextFrame.bracket = !x.bracket := rfl
theorem Slice.nextFrame_brk0 : x.nextFrame.brk0 = if x.bracket then putAll x.brk0 (x.slotWrites 8) else x.brk0 := rfl
theorem Slice.nextFrame_brk1 : x.nextFrame.brk1 = if x.bracket then x.brk1 else putAll x.brk1 (x.slotWrites 8) := rfl

theorem Slice.nextFrame_mtr (i : Fin 8) : x.nextFrame.mtr[i] = x.closedReg i.val := by
  have hmtr : x.nextFrame.mtr = Vector.ofFn fun j : Fin 8 => if j.val < 8 then x.closedReg j else x.mtr[j] := rfl
  simp [hmtr]

theorem Slice.nextFrame_slots (i : Fin 8) : x.nextFrame.slots[i] = (x.slot i.val).cleared := by
  have hslots : x.nextFrame.slots = Vector.ofFn fun j : Fin 8 => if j.val < 8 then (x.slot j).cleared else x.slots[j] := rfl
  simp [hslots]

/-- The bracket that becomes active holds what the closing slots wrote. -/
theorem Slice.nextFrame_active : (if x.nextFrame.bracket then x.nextFrame.brk1 else x.nextFrame.brk0) =
    putAll (if x.bracket then x.brk0 else x.brk1) (x.slotWrites 8) := by
  rw [nextFrame_bracket, nextFrame_brk0, nextFrame_brk1]
  cases x.bracket <;> rfl

/-- The bracket that was active stays. -/
theorem Slice.nextFrame_inactive : (if x.nextFrame.bracket then x.nextFrame.brk0 else x.nextFrame.brk1) =
    if x.bracket then x.brk1 else x.brk0 := by
  rw [nextFrame_bracket, nextFrame_brk0, nextFrame_brk1]
  cases x.bracket <;> rfl

end nextFrame

/-! ### Slices replaced, and entries written meanwhile -/

theorem State.setSl_sl (s : State) (k : Nat) : s.setSl k (s.sl k) = s := by
  have hslices : s.slices.setIfInBounds k (s.sl k) = s.slices := by
    ext i hi : 1
    by_cases e : k = i <;> simp [State.sl, e, hi]
  rw [State.setSl, hslices]

theorem State.setSl_scrub_setSl (s : State) (k : Nat) (x y : Slice) (c : Scrub) :
    ({ s.setSl k x with scrub := c }.setSl k y) = { s.setSl k y with scrub := c } :=
  congrArg (fun t : State => { t with scrub := c }) (State.setSl_setSl s k x y)

theorem State.Logged.setSl {s t : State} (h : s.Logged t) (k : Nat) (x : Slice) : (s.setSl k x).Logged (t.setSl k x) := by
  obtain ⟨sheet, ext, bits, rfl⟩ := h
  exact ⟨sheet, ext, bits, rfl⟩

theorem State.Logged.withScrub {s t : State} (h : s.Logged t) (c : Scrub) :
    State.Logged { s with scrub := c } { t with scrub := c } := by
  obtain ⟨sheet, ext, bits, rfl⟩ := h
  exact ⟨sheet, ext, bits, rfl⟩

theorem State.Logged.withTick {s t : State} (h : s.Logged t) (c : Tick) :
    State.Logged { s with tick := c } { t with tick := c } := by
  obtain ⟨sheet, ext, bits, rfl⟩ := h
  exact ⟨sheet, ext, bits, rfl⟩

theorem State.Logged.tick {s t : State} (h : s.Logged t) : t.tick = s.tick := by obtain ⟨_, _, _, rfl⟩ := h; rfl

theorem State.Logged.cmds {s t : State} (h : s.Logged t) : t.cmds = s.cmds := by obtain ⟨_, _, _, rfl⟩ := h; rfl

/-! ### What the edge steps do -/

/-- The edge steps with each step named. -/
theorem State.edgeSteps_eq (s : State) (k edge : Nat) : s.edgeSteps k edge =
    let t := ((List.range 8).foldl (fun t i => t.closeSlot k i) s).mod k Slice.swap
    let t := (t.sl k).sticky.foldl (fun t p => (t.cleanInactive k p.1).mod k fun x => x.setParamIn p.1 p.2) t
    (if (t.sl k).switchReq && !t.switchLater k edge then t.switchBank k else t).mod k Slice.count := rfl

/-- Closing a slot moves it into its register, and then publishes what it writes. -/
theorem State.closeSlot_eq (s : State) (k i : Nat) : s.closeSlot k i =
    ((s.sl k).slotWrite i).elim (s.mod k (·.shutSlot i)) fun p => (s.mod k (·.shutSlot i)).meterWrite k p.1 p.2 := by
  have hmodel : s.closeSlot k i =
      let x := s.sl k
      let t := s.mod k (·.shutSlot i)
      let preg := ((x.slotCtl i).map (·.preg)).getD 0
      if x.slotFresh i then t.meterWrite k preg (proposalWord (x.slotK i))
      else if x.slotPub i then t.meterWrite k preg (x.param preg) else t := rfl
  rw [hmodel, Slice.slotWrite]
  dsimp only
  split
  · rfl
  · split <;> rfl

/-- `t` is `s` with `x` as slice `k`, after some entries and with other marks of configuration frames. -/
def State.SliceTo (s : State) (k : Nat) (x : Slice) (t : State) : Prop :=
  ∃ scrub, State.Logged { s.setSl k x with scrub := scrub } t

namespace State.SliceTo
variable {s t : State} {k : Nat} {x : Slice}

theorem refl (s : State) (k : Nat) : s.SliceTo k (s.sl k) s :=
  ⟨s.scrub, by rw [State.setSl_sl]; exact Logged.refl s⟩

theorem slices (h : s.SliceTo k x t) : t.slices = s.slices.setIfInBounds k x := h.elim fun _ h => h.slices
theorem chip (h : s.SliceTo k x t) : t.chip = s.chip := h.elim fun _ h => h.chip
theorem pending (h : s.SliceTo k x t) : t.pending = s.pending := h.elim fun _ h => h.pending
theorem tick (h : s.SliceTo k x t) : t.tick = s.tick := h.elim fun _ h => h.tick
theorem cmds (h : s.SliceTo k x t) : t.cmds = s.cmds := h.elim fun _ h => h.cmds

theorem sl (h : s.SliceTo k x t) (hk : k < 32) : t.sl k = x := by
  rw [State.sl, h.slices]
  exact State.sl_setSl s k x hk

theorem sl_ne (h : s.SliceTo k x t) {j : Nat} (hj : j ≠ k) : t.sl j = s.sl j := by
  rw [State.sl, h.slices]
  exact State.sl_setSl_ne s k j x hj.symm

theorem log (h : s.SliceTo k x t) (src kind code : Nat) (fault : Bool) (data : List Byte) (trace : Bool) :
    s.SliceTo k x (t.log src kind code fault data trace) :=
  h.imp fun _ h => h.trans (Logged.log ..)

theorem cleanFrames (h : s.SliceTo k x t) (j lo n : Nat) : s.SliceTo k x (t.cleanFrames j lo n) :=
  h.elim fun _ h => ⟨_, h.withScrub _⟩

theorem mod (h : s.SliceTo k x t) (hk : k < 32) (f : Slice → Slice) : s.SliceTo k (f x) (t.mod k f) := by
  rw [State.mod, h.sl hk]
  obtain ⟨c, h⟩ := h
  exact ⟨c, by rw [← State.setSl_scrub_setSl s k x (f x) c]; exact h.setSl k (f x)⟩

theorem meterWrite (h : s.SliceTo k x t) (hk : k < 32) (p : Nat) (v : W64) :
    s.SliceTo k (x.setParamIn p v) (t.meterWrite k p v) := by
  unfold State.meterWrite
  dsimp only
  split
  · exact ((h.log ..).cleanFrames ..).mod hk _
  · exact (h.cleanFrames ..).mod hk _

theorem closeSlot (h : s.SliceTo k x t) (hk : k < 32) (i : Nat) : s.SliceTo k (x.closeSlot i) (t.closeSlot k i) := by
  rw [State.closeSlot_eq, h.sl hk, Slice.closeSlot]
  have hshut := h.mod hk (·.shutSlot i)
  cases x.slotWrite i with
  | none => simpa [Slice.putIn_nil] using hshut
  | some p => simpa [Slice.putIn_single] using hshut.meterWrite hk p.1 p.2

theorem closeSlots (h : s.SliceTo k x t) (hk : k < 32) {n : Nat} :
    s.SliceTo k (x.closeSlots n) ((List.range n).foldl (fun t i => t.closeSlot k i) t) := by
  induction n with
  | zero => simpa using h
  | succ n ih =>
    rw [List.range_succ, List.foldl_concat, ← Slice.closeSlot_closeSlots]
    exact ih.closeSlot hk n

/-- A slice that nothing stops or switches starts its next frame. -/
theorem frameEdge (h : s.SliceTo k x t) (hk : k < 32) (hdue : t.scrubDue k = false) (hdrain : x.drain = none)
    (hsticky : x.sticky = []) (hswitch : x.switchReq = false) (edge : Nat) : s.SliceTo k x.nextFrame (t.frameEdge k edge) := by
  have hclosed := h.closeSlots hk (n := 8)
  have hswap := hclosed.mod hk Slice.swap
  have hst : (x.closeSlots 8).swap.sticky = [] := hsticky
  have hsw : (x.closeSlots 8).swap.switchReq = false := hswitch
  have hdr : (x.closeSlots 8).swap.count.drain = none := hdrain
  have hcount := hswap.mod hk Slice.count
  rw [State.frameEdge, if_neg (by simp [hdue]), State.edgeSteps_eq]
  simp only [hswap.sl hk, hst, hsw, List.foldl_nil, Bool.false_and, Bool.false_eq_true, if_false, hcount.sl hk, hdr]
  exact hcount.mod hk Slice.startFrame

end State.SliceTo

/-! ### The block edge (R360) -/

theorem State.sl_of_ge (s : State) {j : Nat} (h : 32 ≤ j) : s.sl j = Slice.reset := by simp [State.sl, h]

theorem State.refuseSwitches_idle {s : State} (h : s.cmds = []) : s.refuseSwitches = s := by simp [State.refuseSwitches, h]

theorem State.migrations_idle {s : State} (h : s.cmds = []) : s.migrations = [] := by simp [State.migrations, h]

theorem State.endWhen_idle {s : State} (h : s.cmds = []) (code : Nat) (p : State → Cmd → Bool) (f : State → Cmd → Ends) :
    s.endWhen code p f = s := by simp [State.endWhen, h]

theorem State.endAtEdge_idle {s : State} (h : s.cmds = []) (edge : Nat) : s.endAtEdge edge = s := by
  simp [State.endAtEdge, State.endWhen_idle h]

theorem State.startSlice_idle {s : State} {k : Nat} (h : (s.sl k).startAt = none) (edge : Nat) : s.startSlice k edge = s := by
  simp [State.startSlice, h]

theorem State.faultedOver_idle {s : State} {k : Nat} (h : justFaulted s k = false) (edge : Nat) : s.faultedOver k edge = s := by
  rw [State.faultedOver, if_neg]
  rintro ⟨hst, hns, -⟩
  simp [justFaulted, hst, hns] at h

theorem State.foldl_startSlice_idle {s : State} (h : ∀ j, (s.sl j).startAt = none) (edge : Nat) (ks : List Nat) :
    ks.foldl (fun s k => s.startSlice k edge) s = s :=
  List.foldl_fixed' (fun j => State.startSlice_idle (h j) edge) ks

theorem State.foldl_faultedOver_idle {s : State} (h : ∀ j, justFaulted s j = false) (edge : Nat) (ks : List Nat) :
    ks.foldl (fun s k => s.faultedOver k edge) s = s :=
  List.foldl_fixed' (fun j => State.faultedOver_idle (h j) edge) ks

/-- A block edge that finds slice `k` with its frame complete, and nothing else to do: the parts of `frameEnds`. -/
structure FrameEnds (s : State) (k : Nat) : Prop where
  alone : ∀ j, j ≠ k → (s.sl j).state ≠ .running
  noStart : ∀ j, (s.sl j).startAt = none
  noFault : ∀ j, justFaulted s j = false
  noCmds : s.cmds = []
  noPeriod : s.tick.pending = none
  running : (s.sl k).state = .running
  done : (s.sl k).frameDone = true
  notOver : (s.sl k).overexp = false
  notHeld : (s.sl k).held = false
  noDrain : (s.sl k).drain = none
  noScrub : s.scrubDue k = false
  noSticky : (s.sl k).sticky = []
  noSwitch : (s.sl k).switchReq = false
  present : k < s.chip.model.slices

theorem frameEnds_parts {s : State} {k : SliceId} (h : frameEnds s k = true) : FrameEnds s k.val := by
  simp only [frameEnds, Bool.and_eq_true, List.all_eq_true, List.mem_range, Bool.or_eq_true, beq_iff_eq, bne_iff_ne, ne_eq,
    Bool.not_eq_true', Option.isNone_iff_eq_none, List.isEmpty_iff, decide_eq_true_eq] at h
  obtain ⟨⟨⟨⟨⟨⟨⟨⟨⟨⟨⟨hall, hcmds⟩, hperiod⟩, hrun⟩, hdone⟩, hover⟩, hheld⟩, hdrain⟩, hscrub⟩, hsticky⟩, hswitch⟩, hpresent⟩ := h
  obtain ⟨halone, hstart, hfault⟩ :
      (∀ j, j = k.val ∨ (s.sl j).state ≠ .running) ∧ (∀ j, (s.sl j).startAt = none) ∧ ∀ j, justFaulted s j = false := by
    simp only [← forall_and]
    intro j
    by_cases hj : j < 32
    · obtain ⟨⟨hother, hstart⟩, hfault⟩ := hall j hj
      exact ⟨hother, hstart, hfault⟩
    · rw [justFaulted, s.sl_of_ge (not_lt.1 hj)]
      exact ⟨.inr (by decide), rfl, rfl⟩
  exact {
    alone := fun j hne => (halone j).resolve_left hne
    noStart := hstart, noFault := hfault, noCmds := hcmds, noPeriod := hperiod, running := hrun, done := hdone, notOver := hover
    notHeld := hheld, noDrain := hdrain, noScrub := hscrub, noSticky := hsticky, noSwitch := hswitch, present := hpresent }

namespace FrameEnds
variable {s : State} {k : Nat}

theorem slicesIn_running (h : FrameEnds s k) : s.slicesIn (· == .running) = [k] := by
  rw [State.slicesIn, ← List.filterMap_eq_filter]
  exact filterMap_range_eq_singleton h.present (by simp [h.running]) fun j _ hj => by simp [h.alone j hj]

theorem not_exposed (h : FrameEnds s k) : (s.sl k).exposed = false := by simp [Slice.exposed, h.done]

theorem sliceEdge (h : FrameEnds s k) (edge : Nat) : s.sliceEdge k edge = s.frameEdge k edge := by
  simp [State.sliceEdge, h.notOver, h.notHeld]

/-- With one slice whose frame is complete, an edge makes its next frame and nothing else. -/
theorem slicesEdge (h : FrameEnds s k) (hk : k < 32) (edge : Nat) : s.SliceTo k (s.sl k).nextFrame (s.slicesEdge edge) := by
  have hnext := (State.SliceTo.refl s k).frameEdge hk h.noScrub h.noDrain h.noSticky h.noSwitch edge
  have hcmds := hnext.cmds.trans h.noCmds
  obtain ⟨-, hkeep, -⟩ := (s.sl k).nextFrame_keeps
  have hstart (j : Nat) : ((s.frameEdge k edge).sl j).startAt = none := by
    by_cases e : j = k
    · rw [e, hnext.sl hk, hkeep, h.noStart k]
    · rw [hnext.sl_ne e, h.noStart j]
  unfold State.slicesEdge
  simp only [State.refuseSwitches_idle h.noCmds, h.slicesIn_running, h.not_exposed, State.foldl_faultedOver_idle h.noFault, h.sliceEdge,
    State.foldl_startSlice_idle hstart, State.migrations_idle hcmds, State.endAtEdge_idle hcmds, List.filter_cons, List.filter_nil,
    Bool.false_eq_true, if_false, List.foldl_nil, List.foldl_cons, List.contains_nil]
  exact hnext

end FrameEnds

/-- An edge is counted, after the trays are marked. -/
def State.countEdge (s : State) (edge : Nat) : State :=
  { s.markTrays with tick := { s.tick with last := BitVec.ofNat 64 edge, count := s.tick.count + 1 } }

/-- The entry of an edge, where the trace of edges is on. -/
def State.traceEdge (s : State) (edge : Nat) : State :=
  if s.sheet.trace.getLsbD 2 then s.log 0x0105 4 0 false (tickData 0 0 0 edge) true else s

/-- The next edge of the internal generator. -/
def State.scheduleEdge (s : State) (edge : Nat) : State := { s with tick := { s.tick with next := nextMultiple s.tick.period edge } }

/-- The block edge with each step named. -/
theorem State.blockEdge_eq (s : State) (edge : Nat) :
    s.blockEdge edge = ((((s.slicesEdge edge).countEdge edge).traceEdge edge).takePeriod edge).scheduleEdge edge := rfl

theorem State.traceEdge_logged (s : State) (edge : Nat) : s.Logged (s.traceEdge edge) := Logged.ite (Logged.log ..) (Logged.refl s)

theorem State.takePeriod_none {s : State} (h : s.tick.pending = none) (edge : Nat) : s.takePeriod edge = s := by
  simp [State.takePeriod, h]

theorem State.Logged.scheduleEdge {s t : State} (h : s.Logged t) (edge : Nat) : (s.scheduleEdge edge).Logged (t.scheduleEdge edge) := by
  rw [State.scheduleEdge, State.scheduleEdge, h.tick]
  exact h.withTick _

/-- Apart from its entry, a block edge counts and schedules the next one, where no new period waits. -/
theorem State.blockEdge_logged {s u : State} {edge : Nat} (hu : s.slicesEdge edge = u) (h : u.tick.pending = none) :
    ((u.countEdge edge).scheduleEdge edge).Logged (s.blockEdge edge) := by
  have htrace := State.traceEdge_logged (u.countEdge edge) edge
  rw [State.blockEdge_eq, hu, State.takePeriod_none ((congrArg Tick.pending htrace.tick).trans h)]
  exact htrace.scheduleEdge edge

theorem exec_blockTickEdge_due {s : State} (hact : s.tick.active = true) (hext : s.setting 0x0102 ≠ 1) (hdue : s.tick.next ≤ s.now) :
    exec .blockTickEdge s = act s (s.blockEdge s.tick.next) := by
  have hcond : (s.tick.active && !s.tickExternal && decide (s.tick.next ≤ s.now)) = true := by
    simp [State.tickExternal, hact, hext, hdue]
  exact congrArg (act s) (if_pos hcond)

/-- Settles O18: apart from its entry, the block edge makes of the slice its next frame; the brackets follow from what the slots
write. -/
theorem frameEdge : Obligations.FrameEdge := by
  unfold Obligations.FrameEdge
  intro s k edge hl hends hact hext hnext hdue x
  subst hnext
  have h := frameEnds_parts hends
  obtain ⟨u, hu⟩ : ∃ u, s.slicesEdge s.tick.next = u := ⟨_, rfl⟩
  have hslice : s.SliceTo k.val x.nextFrame u := hu ▸ h.slicesEdge k.isLt s.tick.next
  have hlog := State.blockEdge_logged hu ((congrArg Tick.pending hslice.tick).trans h.noPeriod)
  refine ⟨s.blockEdge s.tick.next, ?_, ?_⟩
  · rw [exec_blockTickEdge_due hact hext hdue]
    exact act_logged hl hlog hslice.pending hslice.chip
  generalize s.blockEdge s.tick.next = t at hlog
  have hy : t.sl k.val = x.nextFrame := by
    rw [State.sl, hlog.slices]
    exact hslice.sl k.isLt
  rw [hy]
  dsimp only
  obtain ⟨hstate, -, hbank, hcnt, hcmp, hstore, htiles⟩ := x.nextFrame_keeps
  obtain ⟨hframe, hpc, hroutine, hstack, hissue⟩ := x.nextFrame_starts
  refine ⟨congrArg Tick.last hlog.tick, ?count, x.nextFrame_bracket, hframe, hpc, hroutine, hstack, hstate.trans h.running,
    hissue.trans (beq_iff_eq.2 h.running), hbank, hcnt, hcmp, hstore, htiles, fun i => ?meter, fun hpub => ?unpublished,
    fun i m p hctl hpub hpreg hseen hamax hothers => ?published⟩
  case count => exact (congrArg Tick.count hlog.tick).trans (congrArg (Tick.count · + 1) hslice.tick)
  case meter =>
    rw [x.nextFrame_mtr, x.nextFrame_slots, Slice.closedReg, x.slot_fin]
    exact ⟨rfl, rfl, rfl, rfl, rfl, rfl⟩
  case unpublished =>
    rw [x.nextFrame_brk0, x.nextFrame_brk1, Slice.slotWrites_of_not_pub hpub]
    exact ⟨ite_self _, ite_self _⟩
  case published =>
    rw [← x.slot_fin] at hseen hamax
    have hwrites := Slice.slotWrites_of_one (Slice.slotWrite_of_seen hctl hpub hseen hamax) hothers
    refine ⟨?_, x.nextFrame_inactive⟩
    rw [x.nextFrame_active, hwrites, hpreg, x.slot_fin]
    simp [putAll, proposalWord, clampK]

end Sys2Proof.Machine
end

section
/-! SUPPORT. What the instructions of the sequencer do at issue (R106, R116, R129, R139 to R145, R156 to R158). -/

namespace Sys2Proof.Machine

/-! ### Instructions that issue -/

/-- An instruction that issues, where its effect leaves the cut and the frame alone. -/
theorem State.gate_issued {s : State} {k : SliceId} (h : s.takes k.val = true) (op : Nat) (f : Slice → Slice)
    (hc : (f (s.sl k.val).afterIssue).cut = (s.sl k.val).cut)
    (hf : (f (s.sl k.val).afterIssue).seq.frame = (s.sl k.val).seq.frame) :
    s.gate k.val op (s.issued k.val op f) = s.setSl k.val (f (s.sl k.val).afterIssue) := by
  obtain ⟨-, -, -, hcut⟩ := State.takes_parts h
  rw [State.gate_takes h, State.issued_eq s k op f hcut hc hf]

/-- The answer of a command that makes only a slice of a live block anew. -/
theorem act_only {s t : State} {k : SliceId} {y : Slice} (h : s.takes k.val = true) (e : t = s.setSl k.val y) :
    act s t = s.only k y := by
  obtain ⟨hl, -⟩ := State.takes_parts h
  rw [e]
  exact act_setSl hl k.val y

/-- A slice that takes its next instruction waits for nothing. -/
theorem State.takes_waitsFor_nothing {s : State} {k : Nat} (h : s.takes k = true) :
    (s.sl k).seq.wait = none ∧ (s.sl k).seq.pred = none := by
  obtain ⟨-, hissue, -⟩ := State.takes_parts h
  simp only [State.canIssue, Slice.canIssue, Bool.and_eq_true, Option.isNone_iff_eq_none] at hissue
  obtain ⟨⟨⟨-, hwait⟩, hpred⟩, -⟩ := hissue
  exact ⟨hwait, hpred⟩

/-! ### Comparators (R139, R156 to R158) -/

section comparators
variable {s : State} {k : SliceId} (h : s.takes k.val = true)
include h

/-- A scalar instruction that writes a comparator, where those that it reads and writes are resolved. -/
theorem act_scalar_setCmp (op : Nat) {rd : List (Fin 4)} {c : Fin 4} (hrd : ∀ a ∈ rd, (s.sl k.val).seq.cmpOpen[a] = false)
    (hc : (s.sl k.val).seq.cmpOpen[c] = false) (v : Slice → Bool) :
    act s (s.scalar k.val op rd [c] fun x => x.setCmp c (v x)) = s.only k { (s.sl k.val).afterIssue with
      seq := { (s.sl k.val).afterIssue.seq with
        cmp := (s.sl k.val).seq.cmp.set c (v (s.sl k.val).afterIssue)
        cmpOpen := (s.sl k.val).seq.cmpOpen.set c false, pc := (s.sl k.val).seq.pc + 1 } } := by
  have hstall : (s.sl k.val).cmpStall rd [c] = none := by
    simpa [Slice.cmpStall, hc, -Fin.getElem_fin] using hrd
  refine act_only h ((State.scalar_eq h op rd [c] _ hstall rfl rfl).trans ?_)
  rw [Slice.setCmp_eq]
  rfl

/-- A scalar instruction that reads an unresolved comparator only shows its stall. -/
theorem act_scalar_predStall (op : Nat) {rd wr : List (Fin 4)} (f : Slice → Slice)
    (hrd : ∃ a ∈ rd, (s.sl k.val).seq.cmpOpen[a] = true) :
    act s (s.scalar k.val op rd wr f) = s.only k { s.sl k.val with
      seq := { (s.sl k.val).seq with qfull := 0, interlock := false, predStall := true } } := by
  have hstall : (s.sl k.val).cmpStall rd wr = some .pred := by simp [Slice.cmpStall, hrd, -Fin.getElem_fin]
  refine act_only h ?_
  rw [State.scalar, State.gate_takes h, hstall]
  rfl

end comparators

/-- The comparisons of CCMPI and CCMPC by their predicates (R156, R157). -/
theorem scalarPred_eq {pred : BitVec 3} (hp : pred.toNat < 6) (signed : Bool) (a b : W32) :
    scalarPred pred.toNat signed a b =
      let lt := if signed then decide (a.toInt < b.toInt) else decide (a.toNat < b.toNat)
      if pred = 0 then a == b else if pred = 1 then a != b else if pred = 2 then lt else if pred = 3 then lt || a == b
      else if pred = 4 then !(lt || a == b) else !lt := by
  have hcases : pred = 0 ∨ pred = 1 ∨ pred = 2 ∨ pred = 3 ∨ pred = 4 ∨ pred = 5 := by revert pred; decide
  rcases hcases with rfl | rfl | rfl | rfl | rfl | rfl <;> rfl

/-- The functions of CLOGIC (R157). -/
theorem logicOp_eq (op : BitVec 3) (p q : Bool) :
    logicOp op.toNat p q = if op = 0 then p && q else if op = 1 then p || q else if op = 2 then p != q
      else if op = 3 then p && !q else if op = 4 then !p else if op = 5 then false else if op = 6 then true else p := by
  revert op p q; decide

/-- Settles O4: each of the instructions is a scalar one that writes a comparator, and CLOGIC stalls on those that it reads. -/
theorem comparatorInstructions : Obligations.ComparatorInstructions := by
  unfold Obligations.ComparatorInstructions
  intro s k h x y put rel
  refine ⟨fun c n pred signed imm hc hp => ?ccmpi, fun c n pred signed m hc hp => ?ccmpc, fun c a b op ha hb hc => ?clogic,
    fun c a b op hopen => act_scalar_predStall h 0x16 _ (by simpa using hopen)⟩
  case ccmpi =>
    refine (act_scalar_setCmp h 0x14 (by simp) hc _).trans ?_
    rw [scalarPred_eq hp]; rfl
  case ccmpc =>
    refine (act_scalar_setCmp h 0x15 (by simp) hc _).trans ?_
    rw [scalarPred_eq hp]; rfl
  case clogic =>
    refine (act_scalar_setCmp h 0x16 (by simp [-Fin.getElem_fin]; exact ⟨ha, hb⟩) hc _).trans ?_
    rw [logicOp_eq]; rfl

/-! ### Calls (R140, R141, R143) -/

/-- A resolved CALL issues: it enters its routine, or goes past it. -/
theorem State.issueCall_eq (s : State) (k : SliceId) (f : CallFields)
    (hcut : (s.sl k.val).cutHits (s.sl k.val).seq.pc (s.sl k.val).seq.routine = false) :
    s.issueCall k.val f = s.setSl k.val (if f.pred && (s.sl k.val).seq.cmp[f.cmp] != f.sense then (s.sl k.val).afterIssue.skipCall
      else (s.sl k.val).afterIssue.enter f) := by
  refine State.issued_eq s k 0x01 _ hcut ?_ ?_ <;> split <;> rfl

section calls
variable {s : State} {k : SliceId} (h : s.takes k.val = true) {f : CallFields}
include h

theorem exec_call_taken (hp : f.pred = false ∨ ((s.sl k.val).seq.cmpOpen[f.cmp] = false ∧ (s.sl k.val).seq.cmp[f.cmp] = f.sense)) :
    exec (.call k f) s = s.only k ((s.sl k.val).afterIssue.enter f) := by
  obtain ⟨-, -, -, hcut⟩ := State.takes_parts h
  refine act_only h ?_
  rw [State.doCall, State.gate_takes h, if_neg, State.issueCall_eq s k f hcut, if_neg]
  all_goals rcases hp with hp | ⟨hopen, hcmp⟩ <;> simp_all

theorem exec_call_skipped (hpred : f.pred = true) (hopen : (s.sl k.val).seq.cmpOpen[f.cmp] = false)
    (hcmp : (s.sl k.val).seq.cmp[f.cmp] ≠ f.sense) : exec (.call k f) s = s.only k (s.sl k.val).afterIssue.skipCall := by
  obtain ⟨-, -, -, hcut⟩ := State.takes_parts h
  refine act_only h ?_
  rw [State.doCall, State.gate_takes h, if_neg (by simp [hopen]), State.issueCall_eq s k f hcut, if_pos (by simp [hpred, hcmp, -Fin.getElem_fin])]

end calls

/-- Entering a routine and going past a CALL clear a wait for the predicate, which a slice that issues does not have. -/
theorem Slice.with_pred_none {x : Slice} (h : x.seq.pred = none) : { x with seq := { x.seq with pred := none } } = x := by
  rw [← h]

theorem callAndReturn_holds : callAndReturn := by
  unfold callAndReturn
  intro s k h x y
  obtain ⟨-, hpred⟩ := State.takes_waitsFor_nothing h
  have hy : { y with seq := { y.seq with pred := none } } = y := Slice.with_pred_none hpred
  refine ⟨fun f hf => ?taken, fun f hf hopen hcmp => ?skipped, fun f hf hopen => ?waits, fun c rest hstack => ?ret⟩
  case taken => rw [exec_call_taken h hf, ← hy]; rfl
  case skipped => rw [exec_call_skipped h hf hopen hcmp, ← hy]; rfl
  case waits =>
    refine act_only h ?_
    rw [State.doCall, State.gate_takes h, if_pos (by rw [hf]; exact hopen)]
    rfl
  case ret =>
    refine act_only h ?_
    simp only [State.doRet, show (s.sl k.val).seq.stack = c :: rest from hstack]
    exact State.gate_issued h 0x02 _ rfl rfl

/-! ### STRIP groups (R129 to R131) -/

theorem State.startGroup_notReady {s : State} {k g : Nat} (h : (s.sl k).groupReady g = false) (soft : List SoftErr) :
    s.startGroup k g soft = s := by
  simp [State.startGroup, h]

/-- A slice that has closed its STRIP group over `n` elements. -/
def Slice.endGroup (x : Slice) (g : Group) (n : Nat) : Slice :=
  Slice.nextPc { x with
    flight := x.flight.map fun (e : Entry) => if e.group = some g.num then { e with args := [n, if g.double then 1 else 0] } else e
    seq := { x.seq with group := none } }

theorem exec_endstrip_closes {s : State} {k : SliceId} (h : s.takes k.val = true) {g : Group} (hg : (s.sl k.val).seq.group = some g)
    (hbind : (bindPlain (s.sl k.val) g.shape).bind = none)
    (hfault : (s.sl k.val).groupFault g.num (bindPlain (s.sl k.val) g.shape).t.count = none) :
    exec (.endstrip k) s = act s ((s.setSl k.val ((s.sl k.val).afterIssue.endGroup g (bindPlain (s.sl k.val) g.shape).t.count)).startGroup
      k.val g.num []) := by
  obtain ⟨-, -, -, hcut⟩ := State.takes_parts h
  refine congrArg (act s) ?_
  simp only [State.closeGroup, hg, hbind, hfault]
  rw [State.gate_takes h, State.issued_eq s k 0x04 _ hcut rfl rfl]
  rfl

theorem nopTickwaitAndGroups_holds : nopTickwaitAndGroups := by
  unfold nopTickwaitAndGroups
  intro s k h x y
  refine ⟨act_only h (State.scalar_eq h 0x00 [] [] _ rfl rfl rfl), act_only h (State.scalar_eq h 0x07 [] [] _ rfl rfl rfl),
    fun shape double => act_only h (State.gate_issued h 0x03 _ rfl rfl), fun g hg => ?endstrip⟩
  intro b hbind hfault z
  have hclose := exec_endstrip_closes h hg hbind hfault
  refine ⟨hclose, fun hready => hclose.trans (act_only h ?_)⟩
  exact State.startGroup_notReady (by rw [State.sl_setSl _ _ _ k.isLt]; exact hready) []

/-- Settles O6: each instruction issues by the lemma of its kind. -/
theorem controlInstructions : Obligations.ControlInstructions := ⟨nopTickwaitAndGroups_holds, callAndReturn_holds⟩

end Sys2Proof.Machine
end

section
/-! SUPPORT. Waits and semaphores (R144, R145, R547 to R549): how a WAIT begins and ends, and what SIGNAL releases. -/

namespace Sys2Proof.Machine

/-! ### Comparators of a WAIT -/

theorem waitMarks_waitMarks (f : WaitFields) (v : Vector Bool 4) (a b : Bool) :
    waitMarks f (waitMarks f v a) b = waitMarks f v b := by
  unfold waitMarks
  cases f.cmpEn
  · rfl
  · ext i hi
    grind

theorem foldl_waitCmps (f : WaitFields) (v : Vector Bool 4) :
    (waitCmps f).foldl (fun v (c : Fin 4) => v.setIfInBounds c.val true) v = waitMarks f v true := by
  unfold waitCmps waitMarks
  cases f.cmpEn
  · rfl
  · simp [setIfInBounds_eq_set]

theorem cmpStall_waitCmps {x : Slice} {f : WaitFields}
    (h : f.cmpEn = false ∨ (x.seq.cmpOpen[f.cmpHeld] = false ∧ x.seq.cmpOpen[f.cmpAband] = false)) :
    x.cmpStall [] (waitCmps f) = none := by
  rcases h with h | ⟨hheld, haband⟩
  · simp [Slice.cmpStall, waitCmps, h]
  · unfold Slice.cmpStall waitCmps
    cases f.cmpEn <;> simp [hheld, haband, -Fin.getElem_fin]

/-- The end of a WAIT, whatever it found. -/
theorem Slice.endWait_eq (x : Slice) (w : WaitRec) (held aband : Bool) : x.endWait w held aband =
    { x with seq := { x.seq with
      wait := none, cmp := waitResult w.fields x.seq.cmp held aband, cmpOpen := waitMarks w.fields x.seq.cmpOpen false } } := by
  unfold Slice.endWait waitResult waitMarks
  split
  · rw [Slice.setCmp_eq, Slice.setCmp_eq]
  · rfl

/-! ### WAIT (R144, R145) -/

/-- A slice whose WAIT has issued and waits. -/
def Slice.waiting (x : Slice) (w : WaitRec) : Slice :=
  { x.afterIssue with seq := { x.afterIssue.seq with
    wait := some w, pc := x.seq.pc + 1, cmpOpen := waitMarks w.fields x.seq.cmpOpen true } }

/-- A slice whose WAIT has issued and ended. -/
def Slice.waited (x : Slice) (f : WaitFields) (aband : Bool) : Slice :=
  { x.afterIssue with seq := { x.afterIssue.seq with
    pc := x.seq.pc + 1, cmp := waitResult f x.seq.cmp true aband, cmpOpen := waitMarks f x.seq.cmpOpen false } }

/-- The record of a WAIT that issues now. -/
def State.waitRec (s : State) (k : Nat) (kind : WaitKind) (f : WaitFields) : WaitRec :=
  ⟨kind, s.now, s.waitDeadline f, f, (s.sl k).seq.pc, (s.sl k).seq.routine⟩

theorem Slice.endWait_waiting {x : Slice} (h : x.seq.wait = none) (w : WaitRec) (aband : Bool) :
    (x.waiting w).endWait w true aband = x.waited w.fields aband := by
  rw [Slice.endWait_eq, Slice.waiting, waitMarks_waitMarks, ← h]
  rfl

theorem State.modSem_setSl_mod (s : State) (k : SliceId) (x : Slice) (n : Nat) (f : Sem → Sem) (g : Slice → Slice) :
    ((s.setSl k.val x).modSem n f).mod k.val g = (s.modSem n f).setSl k.val (g x) := by
  have hcomm : (s.setSl k.val x).modSem n f = (s.modSem n f).setSl k.val x := rfl
  rw [State.mod, hcomm, State.sl_setSl _ _ _ k.isLt, State.setSl_setSl]

theorem State.mod_setSl (s : State) (k : SliceId) (x : Slice) (g : Slice → Slice) :
    (s.setSl k.val x).mod k.val g = s.setSl k.val (g x) := by
  rw [State.mod, State.sl_setSl _ _ _ k.isLt, State.setSl_setSl]

section wait
variable {s : State} {k : SliceId} {f : WaitFields} (h : s.takes k.val = true)
include h

/-- A WAIT issues, and then looks whether it has to wait. -/
theorem State.beginWait_issued (kind : WaitKind) : (s.beginWait k.val kind f).issued k.val 0x05 Slice.nextPc =
    s.setSl k.val ((s.sl k.val).waiting (s.waitRec k.val kind f)) := by
  obtain ⟨-, -, -, hcut⟩ := State.takes_parts h
  have hbegin : s.beginWait k.val kind f = s.setSl k.val { s.sl k.val with seq := { (s.sl k.val).seq with
      wait := some (s.waitRec k.val kind f), cmpOpen := waitMarks f (s.sl k.val).seq.cmpOpen true } } := by
    rw [State.beginWait, State.mod, foldl_waitCmps]; rfl
  rw [hbegin, State.issued_eq _ k 0x05 Slice.nextPc (by rw [State.sl_setSl _ _ _ k.isLt]; exact hcut) rfl rfl, State.setSl_setSl,
    State.sl_setSl _ _ _ k.isLt]
  rfl

variable (hc : f.cmpEn = false ∨ ((s.sl k.val).seq.cmpOpen[f.cmpHeld] = false ∧ (s.sl k.val).seq.cmpOpen[f.cmpAband] = false))
include hc

theorem exec_waitAcquire_eq {t : State} (e : (s.setSl k.val ((s.sl k.val).waiting (s.waitRec k.val (.acquire f.sem.toNat) f))).acquireNow
    k.val f.sem.toNat = t) (hp : t.pending = s.pending) (hchip : t.chip = s.chip) : exec (.waitAcquire k f) s = .next t := by
  obtain ⟨hl, -⟩ := State.takes_parts h
  refine act_eq hl ?_ hp hchip
  simp only [State.doWait, State.gate_takes h, cmpStall_waitCmps hc, State.beginWait_issued h, e]

theorem exec_waitDrain_eq {y : Slice} (e : (s.setSl k.val ((s.sl k.val).waiting (s.waitRec k.val (.drain f.qmask.toNat) f))).checkDrain
    k.val = s.setSl k.val y) : exec (.waitDrain k f) s = s.only k y := by
  refine act_only h ?_
  simp only [State.doWait, State.gate_takes h, cmpStall_waitCmps hc, State.beginWait_issued h, e]

end wait

/-! ### What a WAIT finds (R144, R145, R547) -/

section finds
variable {s : State} {k : SliceId} {x : Slice} {w : WaitRec}

theorem State.acquireNow_own {n : Nat} (hheld : (s.sem n).held = true) (hkind : (s.sem n).kind = 1)
    (hown : (s.sem n).owner.toNat = k.val) :
    (s.setSl k.val (x.waiting w)).acquireNow k.val n = s.setSl k.val ((x.waiting w).endWait w true false) := by
  have hw : ((s.setSl k.val (x.waiting w)).sl k.val).seq.wait = some w := by rw [State.sl_setSl _ _ _ k.isLt]; rfl
  have hm : ((s.setSl k.val (x.waiting w)).sem n).held ∧ ((s.setSl k.val (x.waiting w)).sem n).kind = 1 ∧
      ((s.setSl k.val (x.waiting w)).sem n).owner.toNat = k.val := ⟨hheld, hkind, hown⟩
  simp only [State.acquireNow, hw, if_pos hm, State.mod_setSl]

theorem State.acquireNow_free {n : Nat} (hheld : (s.sem n).held = false) (hnobody : (s.sem n).waiters = []) :
    (s.setSl k.val (x.waiting w)).acquireNow k.val n =
      (s.modSem n fun _ => ⟨true, 1, BitVec.ofNat 12 k.val, false, (s.sem n).abandoned, [], (s.sem n).acquires + 1⟩).setSl k.val
        ((x.waiting w).endWait w true (s.sem n).abandoned) := by
  have hw : ((s.setSl k.val (x.waiting w)).sl k.val).seq.wait = some w := by rw [State.sl_setSl _ _ _ k.isLt]; rfl
  have hsem : (s.setSl k.val (x.waiting w)).sem n = s.sem n := rfl
  simp only [State.acquireNow, hw, hsem, State.semTake, hnobody, State.modSem_setSl_mod]
  rw [if_neg (by simp [hheld]), if_pos (by simp [hheld])]
  rfl

theorem State.acquireNow_joins {n : Nat} (hheld : (s.sem n).held = true) (hown : ¬((s.sem n).kind = 1 ∧ (s.sem n).owner.toNat = k.val)) :
    (s.setSl k.val (x.waiting w)).acquireNow k.val n =
      (s.modSem n fun _ => { s.sem n with waiters := (s.sem n).waiters ++ [k.val] }).setSl k.val (x.waiting w) := by
  have hw : ((s.setSl k.val (x.waiting w)).sl k.val).seq.wait = some w := by rw [State.sl_setSl _ _ _ k.isLt]; rfl
  have hsem : (s.setSl k.val (x.waiting w)).sem n = s.sem n := rfl
  simp only [State.acquireNow, hw, hsem]
  rw [if_neg fun hm => hown hm.2, if_neg (by simp [hheld])]
  rfl

theorem State.checkDrain_waiting (m : Nat) (hkind : w.kind = .drain m) :
    (s.setSl k.val (x.waiting w)).checkDrain k.val =
      s.setSl k.val (if x.drained m then (x.waiting w).endWait w true false else x.waiting w) := by
  have hw : ((s.setSl k.val (x.waiting w)).sl k.val).seq.wait = some w := by rw [State.sl_setSl _ _ _ k.isLt]; rfl
  have hdrained : ((s.setSl k.val (x.waiting w)).sl k.val).drained m = x.drained m := by rw [State.sl_setSl _ _ _ k.isLt]; rfl
  simp only [State.checkDrain, hw, hkind, hdrained, State.mod_setSl]
  split <;> rfl

end finds

theorem Slice.drained_iff (x : Slice) (mask : Nat) : x.drained mask = true ↔ ∀ e ∈ x.flight, mask.testBit e.unit = false := by
  simp [Slice.drained]

/-- Settles O7: a WAIT issues and waits, and then finds its semaphore or its queues as the lemma of each case says. -/
theorem waitInstructions : Obligations.WaitInstructions := by
  unfold Obligations.WaitInstructions
  intro s k f h x y hc ends waits m
  obtain ⟨hwait, -⟩ := State.takes_waitsFor_nothing h
  have hends (kind : WaitKind) (aband : Bool) :
      (x.waiting (s.waitRec k.val kind f)).endWait (s.waitRec k.val kind f) true aband = ends aband := Slice.endWait_waiting hwait ..
  refine ⟨fun hheld hnobody => ?free, fun hheld hkind hown => ?own, fun hheld hother => ?joins, fun hempty => ?drained, fun hbusy => ?drains⟩
  case free => rw [exec_waitAcquire_eq h hc (State.acquireNow_free hheld hnobody) rfl rfl, hends]; rfl
  case own => rw [exec_waitAcquire_eq h hc (State.acquireNow_own hheld hkind hown) rfl rfl, hends]; rfl
  case joins => exact exec_waitAcquire_eq h hc (State.acquireNow_joins hheld hother) rfl rfl
  case drained =>
    refine exec_waitDrain_eq h hc ((State.checkDrain_waiting _ rfl).trans ?_)
    rw [if_pos ((Slice.drained_iff _ _).2 hempty), hends]
  case drains =>
    refine exec_waitDrain_eq h hc ((State.checkDrain_waiting _ rfl).trans ?_)
    have hnot : ¬x.drained f.qmask.toNat = true := by simpa [Slice.drained_iff] using hbusy
    rw [if_neg hnot]
    rfl

/-! ### SIGNAL (R145, R548) -/

theorem State.heldBy_contains (s : State) (k n : Nat) : (s.heldBy k).contains n = true ↔
    n < 256 ∧ (s.sem n).held = true ∧ (s.sem n).kind = 1 ∧ (s.sem n).owner.toNat = k := by
  simp [State.heldBy, and_assoc]

/-- A semaphore as its release leaves it. -/
def Sem.freed (m : Sem) : Sem := { m with held := false, kind := 0, owner := 0, acqAband := false }

/-- A semaphore that a slice has taken. -/
def Sem.takenBy (m : Sem) (k : Nat) : Sem :=
  ⟨true, 1, BitVec.ofNat 12 k, false, m.abandoned, m.waiters.filter (· != k), m.acquires + 1⟩

theorem State.modSem_modSem (s : State) (n : Nat) (f g : Sem → Sem) (h : n < 256) :
    (s.modSem n f).modSem n g = s.modSem n fun m => g (f m) := by
  rw [State.modSem, State.sem_modSem _ _ _ h]
  simp [State.modSem]

theorem State.modSem_congr (s : State) (n : Nat) {f g : Sem → Sem} (h : f (s.sem n) = g (s.sem n)) : s.modSem n f = s.modSem n g := by
  rw [State.modSem, State.modSem, h]

section release
variable {s : State} {n : Nat}

/-- A release without ABANDONED frees the semaphore, and then grants it. -/
theorem State.semRelease_eq (s : State) (n : Nat) : s.semRelease n false = (s.modSem n Sem.freed).semGrant n := rfl

theorem State.semRelease_nobody (hn : n < 256) (h : (s.sem n).waiters = []) : s.semRelease n false = s.modSem n Sem.freed := by
  have hw : ((s.modSem n Sem.freed).sem n).waiters = [] := by rw [State.sem_modSem _ _ _ hn]; exact h
  simp only [State.semRelease_eq, State.semGrant, hw]

/-- With a waiter, the release takes the semaphore for it; if that slice still waits, its WAIT ends. -/
theorem State.semRelease_next (hn : n < 256) {j : Nat} {rest : List Nat} (h : (s.sem n).waiters = j :: rest) :
    ((s.sl j).seq.wait = none → s.semRelease n false = s.modSem n (·.takenBy j)) ∧
    (∀ w, (s.sl j).seq.wait = some w → s.semRelease n false =
      (s.modSem n (·.takenBy j)).mod j fun x => x.endWait w true (s.sem n).abandoned) := by
  have hw : ((s.modSem n Sem.freed).sem n).waiters = j :: rest := by rw [State.sem_modSem _ _ _ hn]; exact h
  have htake : (s.modSem n Sem.freed).semTake n j = ((s.sem n).abandoned, s.modSem n (·.takenBy j)) := by
    rw [State.semTake, State.modSem_modSem _ _ _ _ hn, State.sem_modSem _ _ _ hn]
    rfl
  have hsl : (s.modSem n (·.takenBy j)).sl j = s.sl j := rfl
  constructor
  · intro hwait; simp only [State.semRelease_eq, State.semGrant, hw, htake, hsl, hwait]
  · intro w hwait; simp only [State.semRelease_eq, State.semGrant, hw, htake, hsl, hwait]

end release

section signal
variable {s : State} {k : SliceId} {n : Byte} (h : s.takes k.val = true)
include h

theorem exec_signal_busy (hbusy : (s.sl k.val).flight ≠ []) : exec (.signal k n) s = .next s := by
  obtain ⟨hl, -⟩ := State.takes_parts h
  refine act_eq hl ?_ rfl rfl
  rw [State.doSignal, State.gate_takes h, if_pos (by simpa using hbusy)]

theorem exec_signal_releases (hidle : (s.sl k.val).flight = []) (hheld : (s.sem n.toNat).held = true) (hkind : (s.sem n.toNat).kind = 1)
    (hown : (s.sem n.toNat).owner.toNat = k.val) :
    exec (.signal k n) s = act s ((s.setSl k.val (s.sl k.val).afterIssue.nextPc).semRelease n.toNat false) := by
  obtain ⟨-, -, -, hcut⟩ := State.takes_parts h
  have hmine := (State.heldBy_contains s k.val n.toNat).2 ⟨n.isLt, hheld, hkind, hown⟩
  refine congrArg (act s) ?_
  rw [State.doSignal, State.gate_takes h, if_neg (by simp [hidle]), if_pos hmine, State.issued_eq s k 0x06 _ hcut rfl rfl]

end signal

/-- Settles O8: SIGNAL issues and releases; the queue of the semaphore decides to whom. -/
theorem signalReleases : Obligations.SignalReleases := by
  unfold Obligations.SignalReleases
  intro s k n h x y m
  obtain ⟨hl, -⟩ := State.takes_parts h
  have hn : n.toNat < 256 := n.isLt
  refine ⟨exec_signal_busy h, fun hidle hheld hkind hown => ?_⟩
  rw [exec_signal_releases h hidle hheld hkind hown]
  refine ⟨fun hnobody => act_eq hl (State.semRelease_nobody hn hnobody) rfl rfl, fun j rest hw hwait hj => ?passed,
    fun j rest w hw hwait hcmp _ hj => ?ended⟩
  all_goals
    have hsl : (s.setSl k.val (s.sl k.val).afterIssue.nextPc).sl j = s.sl j := State.sl_setSl_ne _ _ _ _ hj.symm
    obtain ⟨hnone, hsome⟩ := State.semRelease_next (s := s.setSl k.val (s.sl k.val).afterIssue.nextPc) hn hw
    rw [hsl] at hnone hsome
  case passed => exact act_eq hl (hnone hwait) rfl rfl
  case ended =>
    refine act_eq hl ((hsome w hwait).trans ?_) rfl rfl
    simp only [Slice.endWait, hcmp, Bool.false_eq_true, if_false]
    rfl

end Sys2Proof.Machine
end

section
/-! SUPPORT. The end of a predicated CALL's wait (R143, R545, R559). -/

namespace Sys2Proof.Machine

/-- A slice whose CALL is resolved, with the instructions fetched of the other path. -/
def Slice.resolved (x : Slice) (n : Nat) : Slice :=
  { x with
    seq := { x.seq with pred := none }
    perf := { x.perf with fetched := x.perf.fetched + BitVec.ofNat 64 n, discarded := x.perf.discarded + BitVec.ofNat 64 n } }

/-- It issues as another instruction does, and counts what was discarded. -/
theorem Slice.resolved_afterIssue (x : Slice) (n : Nat) : (x.resolved n).afterIssue = { x.afterIssue with
    seq := { x.afterIssue.seq with pred := none }
    perf := { x.afterIssue.perf with
      fetched := x.afterIssue.perf.fetched + BitVec.ofNat 64 n, discarded := x.perf.discarded + BitVec.ofNat 64 n } } := by
  have hfetched : x.perf.fetched + BitVec.ofNat 64 n + 1 = x.perf.fetched + 1 + BitVec.ofNat 64 n := by ac_rfl
  simp only [Slice.resolved, Slice.afterIssue, hfetched]
  rfl

section resolvePred
variable {s : State} {k : SliceId} {p : PredWait} (hp : (s.sl k.val).seq.pred = some p)
include hp

theorem State.resolvePred_open (fall into : Nat) (hopen : (s.sl k.val).seq.cmpOpen[p.call.cmp] = true) :
    s.resolvePred k.val fall into = s := by
  simp only [State.resolvePred, hp]
  rw [if_pos hopen]

/-- Without the trace of calls, a resolved CALL only issues. -/
theorem State.resolvePred_issues (fall into : Nat) (hopen : (s.sl k.val).seq.cmpOpen[p.call.cmp] = false)
    (htrace : s.sheet.trace.getLsbD 1 = false) :
    s.resolvePred k.val fall into = (s.setSl k.val ((s.sl k.val).resolved
      (if (s.sl k.val).seq.cmp[p.call.cmp] == p.call.sense then fall else into))).issueCall k.val p.call := by
  have htr (t : Slice → Slice) : (s.mod k.val t).sheet.trace.getLsbD 1 = false := htrace
  simp only [State.resolvePred, hp]
  rw [if_neg (by simp only [hopen]; decide), if_neg (by simp only [htr]; simp)]
  rfl

end resolvePred

/-- Settles O16: once its comparator is resolved, a waiting CALL issues as one that never waited. -/
theorem predicatedCallsResolve : Obligations.PredicatedCallsResolve := by
  unfold Obligations.PredicatedCallsResolve
  intro s k p fall into hl x c hp
  refine ⟨fun hopen => act_eq hl (State.resolvePred_open hp _ _ hopen) rfl rfl, fun hopen hpred hcut htrace => ?_⟩
  intro taken n y perf
  have hresolve := State.resolvePred_issues hp fall.val into.val hopen htrace
  generalize hz : s.setSl k.val _ = z at hresolve
  have hsl : z.sl k.val = x.resolved (if taken then fall.val else into.val) := by rw [← hz, State.sl_setSl _ _ _ k.isLt]
  have hissue := State.issueCall_eq z k p.call (by rw [hsl]; exact hcut)
  refine (congrArg (act s) (hresolve.trans (hissue.trans ?_))).trans (act_setSl hl k.val _)
  rw [hsl, Slice.resolved_afterIssue, ← hz, State.setSl_setSl]
  have hcmp : (p.call.pred && (x.resolved (if taken then fall.val else into.val)).seq.cmp[p.call.cmp] != p.call.sense) = !taken := by
    rw [hpred]; rfl
  rw [hcmp]
  clear_value taken
  cases taken <;> rfl

end Sys2Proof.Machine
end

section
/-! SUPPORT. Issue of engine instructions (R115, R125 to R128, R158, R542): the stalls, and how an instruction enters its queue. -/

namespace Sys2Proof.Machine

/-! ### What an engine instruction can do at issue -/

/-- Every engine instruction issues alike, by its opcode and fields. -/
theorem exec_engine {i : Instr} {k : SliceId} {op : Nat} {f : Fields} (h : i.engine? = some (k, op, f)) (s : State) :
    exec i s = act s (s.issueEngine k.val op f) := by
  unfold Instr.engine? at h
  split at h <;> cases h <;> rfl

section issueEngine
variable {s : State} {k : SliceId} {op : Nat} {f : Fields} (h : s.takes k.val = true)
include h

theorem State.issueEngine_stalls {st : Stall}
    (hst : (s.sl k.val).stall op f (readsWrites (s.sl k.val) op f).1 (readsWrites (s.sl k.val) op f).2 = some st) :
    s.issueEngine k.val op f = s.setSl k.val ((s.sl k.val).showStall (some st)) := by
  unfold readsWrites at hst
  simp only [State.issueEngine, State.gate_takes h, hst]

variable (hst : (s.sl k.val).stall op f (readsWrites (s.sl k.val) op f).1 (readsWrites (s.sl k.val) op f).2 = none)
  (hdesc : s.descBad k.val op f = none)
include hst hdesc

theorem State.issueEngine_faults {bad : IssueFault}
    (hbad : s.issueFault k.val op f (if op < 0x90 then (s.sl k.val).seq.group else none).isSome = some bad) :
    s.issueEngine k.val op f = (s.mod k.val fun x => (x.showStall none).countIssue).faultAtIssue k.val op f
      (if op < 0x90 then (s.sl k.val).seq.group else none).isSome bad := by
  have hcheck : s.issueCheck k.val op f (if op < 0x90 then (s.sl k.val).seq.group else none).isSome = .error bad := by
    unfold State.issueFault at hbad
    split at hbad <;> simp_all
  unfold readsWrites at hst
  simp only [State.issueEngine, State.gate_takes h, hst, hdesc, hcheck]

theorem State.issueEngine_enqueues {ok : IssueOk}
    (hok : (s.issueCheck k.val op f (if op < 0x90 then (s.sl k.val).seq.group else none).isSome).toOption = some ok) :
    s.issueEngine k.val op f =
      let t := (s.enqueue k.val op f ((if op < 0x90 then (s.sl k.val).seq.group else none).map (·.num)) ok
        (readsWrites (s.sl k.val) op f)).issued k.val op Slice.nextPc
      if (if op < 0x90 then (s.sl k.val).seq.group else none).isSome || (s.sl k.val).busy (unitOf op) ||
        !((s.sl k.val).queue (unitOf op)).isEmpty then t else t.startUnit k.val (unitOf op) := by
  have hcheck : s.issueCheck k.val op f (if op < 0x90 then (s.sl k.val).seq.group else none).isSome = .ok ok := by
    cases hc : s.issueCheck k.val op f _ with
    | error e => rw [hc] at hok; cases hok
    | ok a => rw [hc] at hok; cases hok; rfl
  unfold readsWrites at hst
  simp only [State.issueEngine, State.gate_takes h, hst, hdesc, hcheck, readsWrites]
  generalize (if op < 0x90 then (s.sl k.val).seq.group else none) = g
  cases g <;> cases (s.sl k.val).busy (unitOf op) <;> cases ((s.sl k.val).queue (unitOf op)).isEmpty <;> rfl

end issueEngine

/-! ### Pins (R270, R285) -/

/-- An operation changes the KV tables alone, and in the same way whatever the slices hold. -/
def State.KvOnly (s : State) (f : State → State) : Prop :=
  ∃ kv, ∀ v : Vector Slice 32, f { s with slices := v } = { s with slices := v, kv := kv }

namespace State.KvOnly
variable {s : State}

theorem makeRoom (n : Nat) : ∀ s : State, s.KvOnly (·.makeRoom n) := by
  induction n with
  | zero => exact fun s => ⟨s.kv, fun v => rfl⟩
  | succ n ih =>
    intro s
    by_cases hroom : s.keptBytes ≤ trayRegion
    · exact ⟨s.kv, fun v => if_pos hroom⟩
    cases htray : s.lruTray with
    | none =>
      refine ⟨s.kv, fun v => (if_neg hroom).trans ?_⟩
      have ht : { s with slices := v }.lruTray = none := htray
      rw [ht]
    | some p =>
      obtain ⟨kv, hkv⟩ := ih (s.modLayer p.1 p.2 KvLayer.startPark)
      refine ⟨kv, fun v => (if_neg hroom).trans ?_⟩
      have ht : { s with slices := v }.lruTray = some p := htray
      rw [ht]
      exact hkv v

theorem trayRoom (s : State) : s.KvOnly State.trayRoom := makeRoom s.kv.layerCount s

theorem wantTray (s : State) (n l : Nat) : s.KvOnly (·.wantTray n l) := by
  cases hx : s.layer n l with
  | none =>
    refine ⟨s.kv, fun v => ?_⟩
    have h : { s with slices := v }.layer n l = none := hx
    simp only [State.wantTray, h]
  | some x =>
    have h (v : Vector Slice 32) : { s with slices := v }.layer n l = some x := hx
    simp only [State.KvOnly, State.wantTray, h]
    cases x.tray with
    | parking => exact trayRoom (s.modLayer n l _)
    | parked => exact trayRoom (s.modLayer n l _)
    | resident | full | fixing | restoring => exact ⟨s.kv, fun v => rfl⟩

theorem kvPin (s : State) (n l slice key : Nat) (write : Bool) : s.KvOnly (·.kvPin n l slice key write) :=
  wantTray ((s.modCtx n fun c => { c with
    pins := c.pins ++ [⟨slice, key, c.fadeGen, write, l⟩], lastUse := s.now, usedFrame := true }).modLayer n l
      fun x => { x with lastPin := s.now }) n l

theorem kvPins (slice key : Nat) (write : Bool) (pins : List (Nat × Nat)) :
    ∀ s : State, s.KvOnly fun s => pins.foldl (fun (s : State) p => s.kvPin p.1 p.2 slice key write) s := by
  induction pins with
  | nil => exact fun s => ⟨s.kv, fun v => rfl⟩
  | cons p ps ih =>
    intro s
    obtain ⟨kv, hkv⟩ := kvPin s p.1 p.2 slice key write
    obtain ⟨kv', hkv'⟩ := ih { s with kv := kv }
    exact ⟨kv', fun v => (congrArg (fun t => ps.foldl _ t) (hkv v)).trans (hkv' v)⟩

/-- Nothing but the KV tables changes. -/
theorem self {f : State → State} (h : s.KvOnly f) : ∃ kv, f s = { s with kv := kv } := by
  obtain ⟨kv, hkv⟩ := h
  exact ⟨kv, hkv s.slices⟩

/-- It can be made before a slice is replaced. -/
theorem setSl {f : State → State} (h : s.KvOnly f) (k : Nat) (x : Slice) : f (s.setSl k x) = { s.setSl k x with kv := (f s).kv } := by
  obtain ⟨kv, hkv⟩ := h
  have hs : f s = { s with kv := kv } := hkv s.slices
  rw [hs]
  exact hkv _

end State.KvOnly

/-! ### Entering the queue (R115, R125) -/

/-- A slice with an instruction behind its others. -/
def Slice.joined (x : Slice) (e : Entry) : Slice :=
  { x with
    flight := x.flight ++ [e]
    seq := { x.seq with
      nextKey := x.seq.nextKey + 1
      cmpOpen := match e.cmpW with | some c => x.seq.cmpOpen.set c true | none => x.seq.cmpOpen } }

theorem Slice.joined_soft (x : Slice) (e : Entry) : (x.joined e).afterIssue.nextPc.soft = x.soft := rfl

/-- The pins of an instruction that passed its checks, and what they make of the KV tables. -/
def State.pinned (s : State) (k key : Nat) (ok : IssueOk) : State :=
  ((ok.attn.map attnPins).getD []).foldl (fun (s : State) p => s.kvPin p.1 p.2 k key false) s

theorem State.enqueue_eq (s : State) (k op : Nat) (f : Fields) (ok : IssueOk) :
    s.enqueue k op f ((if op < 0x90 then (s.sl k).seq.group else none).map (·.num)) ok (readsWrites (s.sl k) op f) =
      (s.setSl k ((s.sl k).joined (newEntry (s.sl k) op f ok s.now))).pinned k (s.sl k).seq.nextKey ok := by
  have hentry : (newEntry (s.sl k) op f ok s.now).cmpW = cmpTarget op f := rfl
  have hjoin : s.setSl k ((s.sl k).joined (newEntry (s.sl k) op f ok s.now)) = s.mod k fun x => { x with
      flight := x.flight ++ [newEntry (s.sl k) op f ok s.now]
      seq := { x.seq with
        nextKey := x.seq.nextKey + 1
        cmpOpen := match cmpTarget op f with | some c => x.seq.cmpOpen.setIfInBounds c true | none => x.seq.cmpOpen } } := by
    rw [State.mod, Slice.joined, hentry]
    cases cmpTarget op f <;> simp [setIfInBounds_eq_set]
  have hpins : (match ok.attn with | some a => attnPins a | none => []) = (ok.attn.map attnPins).getD [] := by cases ok.attn <;> rfl
  rw [hjoin]
  exact congrArg (List.foldl _ _) hpins

/-- An instruction that enters its queue has issued. -/
theorem State.enqueue_issued {s : State} {k : SliceId} (h : s.takes k.val = true) (op : Nat) (f : Fields) (ok : IssueOk) :
    (s.enqueue k.val op f ((if op < 0x90 then (s.sl k.val).seq.group else none).map (·.num)) ok
        (readsWrites (s.sl k.val) op f)).issued k.val op Slice.nextPc =
      { s.setSl k.val ((s.sl k.val).joined (newEntry (s.sl k.val) op f ok s.now)).afterIssue.nextPc with
        kv := (s.pinned k.val (s.sl k.val).seq.nextKey ok).kv } := by
  obtain ⟨-, -, -, hcut⟩ := State.takes_parts h
  rw [State.enqueue_eq]
  generalize hx : (s.sl k.val).joined _ = x
  have hpins := (State.KvOnly.kvPins k.val (s.sl k.val).seq.nextKey false ((ok.attn.map attnPins).getD []) s).setSl k.val x
  have hsl : ((s.setSl k.val x).pinned k.val (s.sl k.val).seq.nextKey ok).sl k.val = x :=
    (congrArg (State.sl · k.val) hpins).trans (State.sl_setSl s k.val x k.isLt)
  rw [State.issued_eq _ k op Slice.nextPc (by rw [hsl, ← hx]; exact hcut) rfl rfl, hsl]
  refine (congrArg (State.setSl · k.val x.afterIssue.nextPc) hpins).trans ?_
  exact congrArg (fun t : State => { t with kv := (s.pinned k.val (s.sl k.val).seq.nextKey ok).kv }) (State.setSl_setSl ..)

/-- What a command answers depends on the block's pins, its queue and its chip, and on what the command makes. -/
theorem act_congr {s t : State} (hl : t.live = s.live) (hp : t.pending = s.pending) (hc : t.chip = s.chip) (u : State)
    (h : s.live = true) : act t u = act s u := by
  rw [act, act, State.commit, State.commit, hl, hp, hc, if_pos h, if_pos h]

/-- A command that starts a unit, given the words in error that the slice keeps, changes nothing else first. -/
theorem exec_instructionStart_soft {s : State} {k : SliceId} {u : Fin 6} {soft : List SoftErr} (h : (s.sl k.val).soft = soft) :
    exec (.instructionStart k u soft) s = act s (s.startUnit k.val u.val) := by
  have hmod : s.mod k.val (fun x => { x with soft := soft }) = s := by
    subst h
    exact State.setSl_sl s k.val
  exact congrArg (fun t : State => act s (t.startUnit k.val u.val)) hmod

/-- Settles O9: a checked instruction has issued once it stands in its queue; an idle unit then starts it as INSTRUCTION_START does. -/
theorem engineInstructionsIssue : Obligations.EngineInstructionsIssue := by
  unfold Obligations.EngineInstructionsIssue
  intro i s k op f hi h x rw' u grp hst hdesc ok hok e t0 pins t
  obtain ⟨hl, -⟩ := State.takes_parts h
  have hqueue : { s.setSl k.val ((s.sl k.val).joined (newEntry (s.sl k.val) op f ok s.now)).afterIssue.nextPc with
      kv := (s.pinned k.val (s.sl k.val).seq.nextKey ok).kv } = t := rfl
  have hissue := State.issueEngine_enqueues h hst hdesc hok
  rw [State.enqueue_issued h, hqueue] at hissue
  rw [exec_engine hi, hissue]
  refine ⟨fun hwaits => ?waits, fun hfree v hv => ?starts⟩
  case waits =>
    refine act_eq hl (if_pos hwaits) rfl rfl
  case starts =>
    have hslice : t.sl k.val = (x.joined (newEntry x op f ok s.now)).afterIssue.nextPc := State.sl_setSl s k.val _ k.isLt
    have hsoft : (t.sl k.val).soft = x.soft := (congrArg Slice.soft hslice).trans (x.joined_soft _)
    rw [exec_instructionStart_soft hsoft, hv]
    exact (congrArg (act s) (if_neg (ne_true_of_eq_false hfree))).trans (act_congr (s := s) (t := t) rfl rfl rfl _ hl).symm

end Sys2Proof.Machine
end

section
/-! SUPPORT. A slice whose stall at issue is not the interlock's, although the statement on stalls asks it (R126, R129). -/

namespace Sys2Proof.Machine

/-- An instruction that waits in its queue: its opcode, its STRIP group and what it writes. -/
def waitingEntry (key op : Nat) (group : Option Nat) (writes : List Res) : Entry :=
  ⟨key, op, ⟨0, 0xFFF, 0xFFF, 0xFFF, 0xFFF, 0, false, false, 0⟩, 0, none, group, 0, ⟨.none, .none, .none, .none, .none, none, none, []⟩,
    none, none, [], [], writes, none, 0, .queued⟩

/-- A running slice with group 0 open, whose member, an ADD, writes T0, and eight EXPANDs in the attention unit's queue. -/
def groupedSlice : Slice :=
  { Slice.reset with
    state := .running
    flight := waitingEntry 0 0x20 (some 0) [.tile 0] :: (List.range 8).map fun i => waitingEntry (i + 1) 0x92 none []
    seq := { Seq.reset with group := some ⟨0, false, 0⟩ } }

/-- The block with that slice. -/
def groupedState : State := State.reset.setSl 0 groupedSlice

/-- An EXPAND into T0. -/
def expandToT0 : Fields := ⟨0, 0x800, 0xFFF, 0xFFF, 0xFFF, 0, false, false, 0⟩

theorem groupedState_sl : groupedState.sl 0 = groupedSlice := State.sl_setSl _ 0 _ (by decide)

theorem groupedState_takes : groupedState.takes (0 : SliceId).val = true := by decide

/-- The interlock takes the ADD for a member of the EXPAND's group: the queue is what stalls it. -/
theorem groupedSlice_stall : groupedSlice.stall 0x92 expandToT0 (readsWrites groupedSlice 0x92 expandToT0).1
    (readsWrites groupedSlice 0x92 expandToT0).2 = some (.full 3) := by decide

/-- Refutes O10: the model excepts from the interlock whatever member of the open STRIP group, the statement only instructions that can be
members themselves. An EXPAND, which cannot (R129), stalls on its full queue in the model, where the statement asks for the interlock. -/
theorem not_stallsAtIssue : ¬ Obligations.StallsAtIssue := by
  unfold Obligations.StallsAtIssue
  rintro ⟨hinterlock, -⟩
  have hsl : groupedState.sl (0 : SliceId).val = groupedSlice := groupedState_sl
  have hmodel := State.issueEngine_stalls (k := 0) (op := 0x92) (f := expandToT0) groupedState_takes
    (by rw [hsl]; exact groupedSlice_stall)
  have hstated := hinterlock (.expand 0 expandToT0) groupedState 0 0x92 expandToT0 rfl groupedState_takes
    (waitingEntry 0 0x20 (some 0) [.tile 0]) (by rw [hsl]; exact List.mem_cons_self ..) (fun h => absurd h.1 (by decide))
    (.inl ⟨.tile 0, List.mem_singleton.2 rfl, .inr (by rw [hsl]; decide)⟩)
  rw [exec_engine rfl, hmodel, act_setSl (State.takes_parts groupedState_takes).1, State.only] at hstated
  have hslices := congrArg (fun t : State => (t.sl (0 : SliceId).val).seq.interlock) (Host.Outcome.next.inj hstated)
  simp only [State.sl_setSl _ _ _ (0 : SliceId).isLt] at hslices
  exact absurd hslices (by decide)

end Sys2Proof.Machine
end

section
/-! SUPPORT. A unit whose head of queue waits for a tray, which the statement on element-wise instructions does not set aside (R285). -/

namespace Sys2Proof.Machine

/-- The head of a unit's queue that waits for its trays does not start (R285). -/
theorem State.startUnit_waits {s : State} {k u : Nat} {e : Entry} (hu : u < 4)
    (hq : ((s.sl k).queue u).head? = some e) (hg : e.group = none) (hready : s.attnReady e = false) : s.startUnit k u = s := by
  have hhead (soft : List SoftErr) : s.startHead k u e soft = s := by
    unfold State.startHead
    rw [hg, hready]
    simp only [Bool.false_eq_true, if_false, if_neg (Nat.ne_of_lt hu), if_neg (Nat.ne_of_lt (Nat.lt_succ_of_lt hu)), ite_self]
  unfold State.startUnit
  simp only [hq, hhead, if_true, ite_self]

/-- The tray of layer 0 of context 0, parked (R283). -/
def parkedCtx : KvCtx :=
  ⟨0, false, 0, 0, [], 0, 0, 0, 0, false, false, [⟨0, 0, .parked, false, [], 0, 0, 0, []⟩], []⟩

/-- An ATTN's arguments with one item of context 0, layer 0. -/
def parkedAttn : AttnArgs :=
  ⟨0, 0, 0, 0, 0, 0, 0, 0, 0, 0, 0, 0, 0, 0, 0, 0, [], [⟨0, some ⟨0, 0, 0, 0, 0, 0, 0, 0, 0, 0, [], []⟩⟩]⟩

/-- NOT of T1 into T0 in INT32, in a queue, with that argument. -/
def notWaiting : Entry :=
  ⟨0, 0x4B, ⟨0, 0x800, 0x801, 0xFFF, 0xFFF, 9 <<< 51, false, false, 0⟩, 0, none, none, 0,
    ⟨.tile 0, .tile 1, .none, .none, .none, none, none, []⟩, some parkedAttn, none, [], [.tile 1], [.tile 0], none, 0, .queued⟩

/-- A running slice with that instruction in its queue. -/
def notSlice : Slice := { Slice.reset with state := .running, flight := [notWaiting] }

/-- The block with that slice and the parked tray. -/
def notState : State := { State.reset.setSl 0 notSlice with kv := { Kv.reset with ctxs := [parkedCtx] } }

theorem notState_sl : notState.sl 0 = notSlice := State.sl_setSl State.reset 0 _ (by decide)

theorem notState_startUnit : notState.startUnit 0 0 = notState :=
  State.startUnit_waits (e := notWaiting) (by decide) (by rw [notState_sl]; decide) rfl (by decide)

/-- Refutes O13: nothing in the statement says that the instruction is ready to start. A NOT in the queue whose arguments name a parked
tray, as only an ATTN's do, waits for the tray: its destination keeps 0, where the NOT of 0 is 2^32 - 1. -/
theorem not_elementwiseOnTiles : ¬ Obligations.ElementwiseOnTiles := by
  unfold Obligations.ElementwiseOnTiles
  intro h
  have hsl : notState.sl (0 : SliceId).val = notSlice := notState_sl
  obtain ⟨t, ht, helem, -⟩ := h notState 0 notWaiting 0 (.tile 1) .none .none (by decide) (by decide) (by rw [hsl]; decide)
    (by rw [hsl]; decide) rfl (by rw [hsl]; decide) (by decide) rfl
    (by intro o ho; fin_cases ho; exacts [.inr ⟨1, rfl⟩, .inl rfl, .inl rfl]) (by decide) (by rw [hsl]; decide)
  have hstays : exec (.instructionStart 0 0 []) notState = .next notState := by
    rw [exec_instructionStart_soft (by rw [hsl]; rfl)]
    exact act_eq rfl notState_startUnit rfl rfl
  rw [hstays] at ht
  cases ht
  have helem0 := helem 0 (by decide)
  rw [hsl] at helem0
  exact absurd helem0 (by decide)

end Sys2Proof.Machine
end

section
/-! SUPPORT. An instruction that writes part of an uncorrectable granule of the emulsion, with the contact sheet's spill on: what it finds
is logged, and the log's entry goes to external memory, which the statement on starting units lets stay (R331, R382). -/

namespace Sys2Proof.Machine

/-- One INT32 element in the virtual memory of domain 1, at address 0. -/
def poisonedTensor : Tensor :=
  ⟨0, true, 1, 0, 0, 0, .int32, false, false, 0, [⟨1, 1⟩], none, none, none, false, 0⟩

/-- FILL of that element with 1, in a queue. -/
def poisonedFill : Entry :=
  ⟨0, 0x72, ⟨1, 0, 0xFFF, 0xFFF, 0xFFF, 9 <<< 51 ||| 1, false, false, 0⟩, 0, none, none, 0,
    ⟨.tensor poisonedTensor, .none, .none, .none, .none, none, none, []⟩, none, none, [], [], [], none, 0, .queued⟩

/-- A running slice with that instruction in its queue, and the translation of the page that it writes. -/
def poisonedSlice : Slice :=
  { Slice.reset with state := .running, flight := [poisonedFill], micro := [⟨1, 0, 12, 0, true, true, true, true, 0, 0⟩] }

/-- The block with that slice: the page lies in column 0, whose first granule is uncorrectable, and the spill is on. -/
def poisonedState : State :=
  { State.reset.setSl 0 poisonedSlice with
    ectl := { EmulCtl.reset with cols := EmulCtl.reset.cols.set 0 { Column.reset with state := .live }, poisoned := [0] }
    xl := { Xl.reset with hub := ⟨[⟨1, true, 0, 0, true, true⟩], [], [], 0⟩ }
    sheet := { Sheet.reset with spillOn := true, log2 := 12 } }

/-- What the FILL does. -/
def poisonedRun : Run × List Member :=
  runMembers (poisonedState.waitingRun (poisonedState.mkRun 0 (ownCount poisonedFill.op poisonedFill.opds) false false)) poisonedFill.units
    [poisonedFill]

/-- What the FILL has done to the memories. -/
def poisonedMember : Run := (poisonedRun.2.head?.map (·.2)).getD poisonedRun.1

theorem poisonedState_sl : poisonedState.sl 0 = poisonedSlice := State.sl_setSl State.reset 0 _ (by decide)

theorem poisonedRun_members : poisonedRun.2 = [(poisonedFill, poisonedMember)] := by decide +kernel

/-- The run leaves external memory as it is; the entry that tells of the granule does not (R331, R382). -/
theorem poisonedState_spills : (match exec (.instructionStart 0 1 []) poisonedState with
    | .next t => decide (t.ext = poisonedRun.1.ext) | _ => true) = false := by decide +kernel

/-- Refutes O12: the FILL writes part of an uncorrectable granule; the block logs that, and its spill writes the entry to external
memory. -/
theorem not_unitStartsHead : ¬ Obligations.UnitStartsHead := by
  unfold Obligations.UnitStartsHead
  intro h
  have hsl : poisonedState.sl (0 : SliceId).val = poisonedSlice := poisonedState_sl
  obtain ⟨t, ht, -, -, -, hext, -⟩ := h poisonedState 0 1 poisonedFill (by decide) (by decide) (by decide) (by rw [hsl]; decide)
    (by rw [hsl]; decide) rfl (by decide) (by rw [hsl]; decide) poisonedMember poisonedRun_members (by decide +kernel) (by decide +kernel)
  have hspills := poisonedState_spills
  rw [ht] at hspills
  exact absurd hext (of_decide_eq_false hspills)

end Sys2Proof.Machine
end

section
/-! SUPPORT. The registers with commands of their own: interrupts, ring pointers, the contact sheet's spill ring (R155, R382, R383,
R406). -/

namespace Sys2Proof.Machine
variable {s t : State} {src : W12} {off : Nat} {d : W64}

/-! ### Writes of registers on CPORT (R401) -/

theorem act_cpWrite_some (hl : s.live = true) (hv : s.node.valid = true) (hp : t.pending = s.pending) (hc : t.chip = s.chip) :
    act s (s.cpWrite src off (some t)) = .next (answered t src off true) :=
  act_eq hl (by rw [State.cpWrite, hv]; rfl) hp hc

theorem act_cpWrite_none (hl : s.live = true) (hv : s.node.valid = true) :
    act s (s.cpWrite src off none) = .next (answered s src off false) :=
  act_eq hl (by rw [State.cpWrite, hv]; rfl) rfl rfl

/-- A write of CRING_PTR.RD moves the read pointer of the slice's completion ring (R155). -/
theorem exec_cringPtrRd {k : SliceId} {rd : W16} (hl : s.live = true) (hv : s.node.valid = true) (hk : k.val < s.chip.model.slices) :
    exec (.cringPtrRd src k rd) s = .next (answered (s.setSl k.val { s.sl k.val with cring := { (s.sl k.val).cring with rd := rd } })
      src (0x8018 + k.val * 0x100) true) := by
  have hoff : 0x8018 + k.val * 0x100 = 0x8000 + k.val * 0x100 + 0x18 := Nat.add_right_comm 0x8000 0x18 _
  have hexec : exec (.cringPtrRd src k rd) s = act s (s.cpWrite src (0x8000 + k.val * 0x100 + 0x18)
      (some (s.setSl k.val { s.sl k.val with cring := { (s.sl k.val).cring with rd := rd } }))) :=
    congrArg (fun t => act s (s.cpWrite src _ (some t))) (if_pos hk)
  rw [hexec, hoff]
  exact act_cpWrite_some hl hv rfl rfl

/-! ### CS_RD and CS_SPILL (R382, R383) -/

theorem State.writeCsRd_eq (s : State) (rd : W32) : s.writeCsRd rd = { s with sheet := { s.sheet with
    rd := if (s.sheet.wr - rd).toNat ≤ s.sheet.capacity then rd else s.sheet.wr - BitVec.ofNat 32 s.sheet.capacity } } := by
  have hbound : (if s.sheet.capacity < (s.sheet.wr - rd).toNat then s.sheet.wr - BitVec.ofNat 32 s.sheet.capacity else rd) =
      if (s.sheet.wr - rd).toNat ≤ s.sheet.capacity then rd else s.sheet.wr - BitVec.ofNat 32 s.sheet.capacity := by
    simp only [← Nat.not_lt, ite_not]
  exact congrArg (fun rd => { s with sheet := { s.sheet with rd := rd } }) hbound

theorem State.spillAll_empty (h : s.sheet.ring = []) : s.spillAll = s := by
  unfold State.spillAll
  simp only [h, List.drop_nil, List.take_nil, List.zipIdx_nil, List.foldl_nil]

/-- The ring that a write of CS_SPILL names: its size (R382). -/
def spillSize (d : W64) : BitVec 5 := (d >>> 1).setWidth 5
/-- The base, in units of 4 KiB (R382). -/
def spillBase (d : W64) : BitVec 40 := (d >>> 12).setWidth 40

/-- The write names another ring than the one in use. -/
def Sheet.moved (c : Sheet) (d : W64) : Bool := spillBase d != c.base || spillSize d != c.log2

/-- The ring has a size in bounds, and its base is aligned to it (R382). -/
def spillFits (d : W64) : Bool :=
  decide (12 ≤ (spillSize d).toNat ∧ (spillSize d).toNat ≤ 25) &&
    decide ((spillBase d).toNat * 4096 % 2 ^ ((spillSize d).toNat + 5) = 0)

/-- The sheet with the ring that a write of CS_SPILL names. -/
def Sheet.withSpill (c : Sheet) (d : W64) : Sheet :=
  { c with spillOn := d.getLsbD 0, log2 := spillSize d, base := spillBase d
           spillErr := if d.getLsbD 0 then false else c.spillErr }

theorem State.writeCsSpill_eq (s : State) (d : W64) : s.writeCsSpill d =
    if s.sheet.spillOn && s.sheet.moved d then none
    else if d.getLsbD 0 && !spillFits d then none
    else some (if d.getLsbD 0 && !s.sheet.spillOn then { s with sheet := s.sheet.withSpill d }.spillAll
      else { s with sheet := s.sheet.withSpill d }) := by
  have hfits : (!spillFits d) = (decide ((spillSize d).toNat < 12 ∨ 25 < (spillSize d).toNat) ||
      decide ((spillBase d).toNat * 4096 % 2 ^ ((spillSize d).toNat + 5) ≠ 0)) := by
    simp only [spillFits, Bool.not_and, ← decide_not, not_and_or, Nat.not_le, ne_eq]
  rw [hfits]
  rfl

/-! ### The obligation -/

theorem pointersAndInterrupts_holds : pointersAndInterrupts := by
  intro s src k rd mask d hl hv rd' cap
  refine ⟨act_cpWrite_some hl hv rfl rfl, fun hk => ?_, ?_⟩
  · exact exec_cringPtrRd hl hv hk
  · exact (congrArg (fun t => act s (s.cpWrite src 0xC008 (some t))) (s.writeCsRd_eq rd')).trans (act_cpWrite_some hl hv rfl rfl)

theorem spillControl_holds : spillControl := by
  intro s src d hl hv lg base moved fits
  have hexec : exec (.csSpill src d) s = act s (s.cpWrite src 0xC018 (s.writeCsSpill d)) := rfl
  rw [hexec, State.writeCsSpill_eq]
  have hmoved : s.sheet.moved d = moved := rfl
  have hfit : spillFits d = fits := rfl
  rw [hmoved, hfit]
  refine ⟨fun hon hm => ?_, fun hen hf => ?_, fun hch hen => ?_, fun hon hen hf hring => ?_⟩
  · rw [hon, hm]
    exact act_cpWrite_none hl hv
  · rw [hen, hf, if_pos (c := (true && !false) = true) rfl, ite_self]
    exact act_cpWrite_none hl hv
  · have hsame : (s.sheet.spillOn && moved) = false := by rcases hch with h | h <;> simp [h]
    rw [hsame, hen]
    refine act_cpWrite_some (t := { s with sheet := s.sheet.withSpill d }) hl hv rfl rfl |>.trans ?_
    simp only [Sheet.withSpill, hen]
    rfl
  · rw [hon, hen, hf]
    have hempty : ({ s with sheet := s.sheet.withSpill d } : State).spillAll = { s with sheet := s.sheet.withSpill d } :=
      State.spillAll_empty hring
    refine (act_cpWrite_some (t := State.spillAll { s with sheet := s.sheet.withSpill d }) hl hv ?_ ?_).trans ?_
    · rw [hempty]
    · rw [hempty]
    · rw [hempty]
      simp only [Sheet.withSpill, hen]
      rfl

/-- Settles O31: each register's command answers a write that the register's rule allows, and refuses any other. -/
theorem interruptsAndPointers : Obligations.InterruptsAndPointers := ⟨pointersAndInterrupts_holds, spillControl_holds⟩

end Sys2Proof.Machine
end

section
/-! SUPPORT. A dump into a memory that is not in its canonical form, which the statement on debug commands does not set aside (R556). -/

namespace Sys2Proof.Machine

/-- DUMP_SLICE of slice 0 with no part, into the 64 bytes at address 0. -/
def bareDump : Cmd :=
  ⟨0, 0x13 :: (List.replicate 31 0 ++ 64 :: List.replicate 31 0), 0, 0, false, false, [], 0, 0, 0, 0, 0, none⟩

/-- A block that is to serve it. External memory holds two cells for address 39, as no command leaves it. -/
def bareDumpState : State :=
  { State.reset with
    fw := { State.reset.fw with running := true }
    mbox := State.reset.mbox.set 0 { Chan.reset with running := some bareDump }
    ext := [(39, 1), (39, 1)] }

/-- The dump's length lies at offset 32. Its last byte, 0, goes to address 39, where the second cell then shows. -/
theorem bareDumpState_length : (match exec (.dumpSlice 0) bareDumpState with
    | .next t => decide (t.ext.readLe 32 8 = 64) | _ => true) = false := by decide +kernel

/-- Refutes O54: no premise says that external memory is in its canonical form. Where it holds two cells for one address, a byte 0 that
DUMP_SLICE writes there takes the first away and the second is read: the dump's length reads wrong. -/
theorem not_debugCommands : ¬ Obligations.DebugCommands := by
  unfold Obligations.DebugCommands
  intro h
  obtain ⟨-, -, hdump, -⟩ := h bareDumpState 0 0 bareDump
  obtain ⟨-, -, hwrites⟩ := hdump (by decide +kernel) (by decide) (by decide) (by decide) (by decide)
  obtain ⟨t, ht, -, -, -, -, hlength, -⟩ := hwrites (by decide) (by decide) (by decide) (by decide)
  have hmodel := bareDumpState_length
  rw [ht] at hmodel
  exact absurd hlength (of_decide_eq_false hmodel)

end Sys2Proof.Machine
end

section
/-! SUPPORT. What the work of a slice leaves alone: the operations on the memories, the emulsion, the KV tables, the reel and the contact
sheet touch no slice (`State.Beside`); those on a slice's own stores touch its stores and its ring only (`State.Via`). -/

namespace Sys2Proof.Machine

/-! ### Effects beside the slices -/

/-- `t` is `s` after effects on memories, caches, ports and the managers of the emulsion, the KV window and the reel: the slices, the
semaphores, the tick and everything else stay, and interrupt bits are only set. -/
def State.Beside (s t : State) : Prop :=
  t = { s with
    irq := t.irq, ports := t.ports, xl := t.xl, sec := t.sec, ectl := t.ectl, sheet := t.sheet, kv := t.kv, reel := t.reel
    emul := t.emul, ext := t.ext, free := t.free } ∧
  ∀ i, s.irq.status.getLsbD i = true → t.irq.status.getLsbD i = true

namespace State.Beside
variable {s t u : State}

theorem of_eq (h : t = { s with
    irq := s.irq, ports := t.ports, xl := t.xl, sec := t.sec, ectl := t.ectl, sheet := t.sheet, kv := t.kv, reel := t.reel
    emul := t.emul, ext := t.ext, free := t.free }) : s.Beside t := by
  have hirq : t.irq = s.irq := (congrArg State.irq h).trans rfl
  exact ⟨by rw [hirq]; exact h, fun i hi => by rw [hirq]; exact hi⟩

theorem refl (s : State) : s.Beside s := of_eq rfl

theorem trans (hst : s.Beside t) (htu : t.Beside u) : s.Beside u := by
  refine ⟨htu.1.trans ?_, fun i hi => htu.2 i (hst.2 i hi)⟩
  exact congrArg (fun t : State => { t with
    irq := u.irq, ports := u.ports, xl := u.xl, sec := u.sec, ectl := u.ectl, sheet := u.sheet, kv := u.kv, reel := u.reel
    emul := u.emul, ext := u.ext, free := u.free }) hst.1

theorem of_logged (h : s.Logged t) : s.Beside t := by
  obtain ⟨sheet, ext, bits, rfl⟩ := h
  exact ⟨rfl, fun i hi => by simp only [BitVec.getLsbD_or, hi, Bool.true_or]⟩

theorem log (h : s.Beside t) (src kind code : Nat) (fault : Bool) (data : List Byte) (trace : Bool) :
    s.Beside (t.log src kind code fault data trace) := h.trans (of_logged (.log ..))

theorem irqSet (h : s.Beside t) (i : Nat) : s.Beside (t.irqSet i) := h.trans (of_logged (.irqSet ..))

theorem ite {c : Prop} [Decidable c] (ht : s.Beside t) (hu : s.Beside u) : s.Beside (if c then t else u) := by
  split
  · exact ht
  · exact hu

theorem draw (h : s.Beside t) : s.Beside t.draw.2 := h.trans (of_eq rfl)

theorem foldl {α : Type} {f : State → α → State} (hf : ∀ t a, State.Beside t (f t a)) :
    ∀ (l : List α) {t : State}, s.Beside t → s.Beside (l.foldl f t)
  | [], _, h => h
  | a :: l, _, h => foldl hf l (h.trans (hf _ a))

theorem setSl (h : s.Beside t) (k : Nat) (y : Slice) : (s.setSl k y).Beside (t.setSl k y) :=
  ⟨congrArg (State.setSl · k y) h.1, h.2⟩

theorem slices (h : s.Beside t) : t.slices = s.slices := by rw [h.1]
theorem chip (h : s.Beside t) : t.chip = s.chip := by rw [h.1]
theorem pending (h : s.Beside t) : t.pending = s.pending := by rw [h.1]
theorem tick (h : s.Beside t) : t.tick = s.tick := by rw [h.1]
theorem semu (h : s.Beside t) : t.semu = s.semu := by rw [h.1]
theorem mbox (h : s.Beside t) : t.mbox = s.mbox := by rw [h.1]
theorem fw (h : s.Beside t) : t.fw = s.fw := by rw [h.1]

theorem sl (h : s.Beside t) (k : Nat) : t.sl k = s.sl k := by rw [State.sl, h.slices]; rfl

/-! ### The emulsion and the KV tables (R299, R302, R330 to R343) -/

theorem levelsFrom (h : s.Beside t) (old : State) : s.Beside (t.levelsFrom old) := by
  refine h.trans ?_
  unfold State.levelsFrom
  refine foldl (fun t c => ?press) _ (foldl (fun t p => ?cross) _ (refl t))
  case cross =>
    split
    · unfold State.crossings
      exact ite ((ite (((of_eq rfl).log ..).irqSet 2) (refl t)).trans ((of_eq rfl).log ..)) (ite (((of_eq rfl).log ..).irqSet 2) (refl t))
    · exact refl t
  case press => exact ite (ite (refl t) (of_eq rfl)) (refl t)

theorem startRetire (h : s.Beside t) (col : Nat) : s.Beside (t.startRetire col) :=
  h.trans (((of_eq rfl).log ..).levelsFrom t)

theorem startSpare (h : s.Beside t) (col tier bank : Nat) : s.Beside (t.startSpare col tier bank) := by
  refine h.trans ?_
  unfold State.startSpare
  split
  · exact refl t
  · exact (of_eq rfl).log ..

theorem autoSpare (h : s.Beside t) (col tier bank : Nat) (tell : Bool) : s.Beside (t.autoSpare col tier bank tell) := by
  unfold State.autoSpare
  exact ite h (ite (ite (h.startRetire _) (ite (h.log ..) h)) (ite (h.startSpare ..) h))

theorem emulUe (h : s.Beside t) (pa : Nat) (patrol : Bool) : s.Beside (t.emulUe pa patrol) :=
  h.trans ((((of_eq rfl).log ..).irqSet 6).autoSpare ..)

theorem rewriteGranule (h : s.Beside t) (g : Nat) : s.Beside (t.rewriteGranule g) := by
  refine h.trans ?_
  unfold State.rewriteGranule
  dsimp only
  split
  · exact foldl (fun _ _ => of_eq rfl) _ (of_eq rfl)
  · exact of_eq rfl

theorem entryError (h : s.Beside t) (entry : Nat) : s.Beside (t.entryError entry) :=
  ite (ite ((h.emulUe ..).rewriteGranule _) (h.emulUe ..)) (h.trans (of_eq rfl))

theorem noteTransFault (h : s.Beside t) (slice : Nat) (f : AccessFault) : s.Beside (t.noteTransFault slice f) := by
  unfold State.noteTransFault
  exact ite (((h.trans (of_eq rfl)).trans (of_eq rfl)).log ..) (h.trans (of_eq rfl))

theorem transFault (h : s.Beside t) (slice : Nat) (f : AccessFault) : s.Beside (t.transFault slice f) :=
  ite (h.noteTransFault slice f) ((h.noteTransFault slice f).entryError _)

theorem emulWritten (h : s.Beside t) (undo : List ElemWrite) (bad : List Nat) : s.Beside (t.emulWritten undo bad) :=
  foldl (fun t g => (refl t).emulUe g false) _ (h.trans (of_eq rfl))

theorem repoison (undo : List ElemWrite) (n : Nat) : ∀ (gs : List Nat) {t : State}, s.Beside t → s.Beside (t.repoison n undo gs).2 := by
  intro gs
  induction gs generalizing undo with
  | nil => exact fun h => h
  | cons g gs ih =>
    intro t h
    unfold State.repoison
    split
    · exact ih _ h
    · split
      · exact ih _ h.draw
      · exact ih _ (h.draw.trans (of_eq rfl))

theorem kvRelease (h : s.Beside t) (slice key : Nat) : s.Beside (t.kvRelease slice key) := by
  obtain ⟨kv, hkv⟩ := (State.KvOnly.trayRoom { t with kv := { t.kv with
      ctxs := t.kv.ctxs.map fun (c : KvCtx) => { c with pins := c.pins.filter fun p => !(p.slice == slice && p.key == key) },
      waiters := t.kv.waiters.filter fun w => !(w.slice == slice && w.key == key) } }).self
  refine h.trans ?_
  rw [State.kvRelease]
  refine Eq.mpr (congrArg t.Beside hkv) (of_eq rfl)

/-! ### Tags of external accesses (R26, R397) -/

theorem dropWaits (h : s.Beside t) (slice key : Nat) : s.Beside (t.dropWaits slice key) := h.trans (of_eq rfl)

/-! ### The reel (R312 to R325) -/

theorem logReel (h : s.Beside t) (code rch port k round inject : Nat) : s.Beside (t.logReel code rch port k round inject) := h.log ..

theorem modRport (h : s.Beside t) (p : Nat) (f : ReelPort → ReelPort) : s.Beside (t.modRport p f) :=
  ite (h.trans (of_eq rfl)) (h.trans (of_eq rfl))

theorem queueForward (h : s.Beside t) (b : Blk) : s.Beside (t.queueForward b) := by
  unfold State.queueForward
  exact ite h (ite (h.modRport ..) h)

theorem passBlock (h : s.Beside t) (b : Blk) : s.Beside (t.passBlock b) :=
  ((h.trans (of_eq rfl)).queueForward b).trans (of_eq rfl)

theorem closeRound (h : s.Beside t) (r : Nat) : s.Beside (t.closeRound r) := h.trans (of_eq rfl)

theorem setOutcome (h : s.Beside t) (r k o inject : Nat) : s.Beside (t.setOutcome r k o inject) := by
  unfold State.setOutcome
  dsimp only
  have hcount (reel : Reel) : s.Beside { t with reel := reel } := h.trans (of_eq rfl)
  refine ite h (closeRound ?_ r)
  exact ite (ite (hcount _) ((hcount _).logReel ..)) ((ite (hcount _) ((hcount _).logReel ..)).irqSet 5)

theorem wakeLandings (h : s.Beside t) : s.Beside t.wakeLandings := by
  refine foldl (fun t b => ?_) _ h
  have hstate (st : BlkState) : t.Beside (t.setBlk b.id st) := of_eq rfl
  cases b.state with
  | landing k => exact ite (refl t) ((hstate .passing).trans (of_eq rfl))
  | waiting k n =>
    exact ite ((refl t).passBlock b) (ite (((refl t).setOutcome ..).passBlock b) (ite ((refl t).passBlock b)
      (ite ((hstate (.landing k)).queueForward b) (refl t))))
  | held n => exact refl t
  | passing => exact refl t

theorem forwardOnly (h : s.Beside t) (slice : Nat) : s.Beside (t.forwardOnly slice) :=
  (foldl (fun t _ => ite ((of_eq rfl).logReel ..) (refl t)) _ h).wakeLandings

theorem cancelInjection (h : s.Beside t) (r : Nat) : s.Beside (t.cancelInjection r) := h.trans (of_eq rfl)

end State.Beside

/-! ### Effects on the stores of a slice -/

/-- `t` is `s` with slice `k` changed as `R` says, and after effects beside the slices. -/
def State.Via (R : Slice → Slice → Prop) (s : State) (k : Nat) (t : State) : Prop :=
  ∃ y, R (s.sl k) y ∧ (s.setSl k y).Beside t

/-- Only the stores of a slice, its translation cache and its completion ring differ. -/
def Slice.Stored (x y : Slice) : Prop :=
  y = { x with
    store := y.store, tiles := y.tiles, micro := y.micro, cring := y.cring, recOut := y.recOut
    perf := { x.perf with tlbMiss := y.perf.tlbMiss } }

namespace Slice.Stored
variable {x y z : Slice}

theorem refl (x : Slice) : x.Stored x := rfl

theorem trans (hxy : x.Stored y) (hyz : y.Stored z) : x.Stored z := Eq.trans hyz (congrArg (fun y : Slice => { y with
  store := z.store, tiles := z.tiles, micro := z.micro, cring := z.cring, recOut := z.recOut
  perf := { y.perf with tlbMiss := z.perf.tlbMiss } }) hxy)

end Slice.Stored

namespace State.Via
variable {R : Slice → Slice → Prop} {s t u : State} {k : Nat}

theorem beside (h : s.Via R k t) (hb : t.Beside u) : s.Via R k u := by
  obtain ⟨y, hy, ht⟩ := h
  exact ⟨y, hy, ht.trans hb⟩

theorem of_beside (hR : ∀ x, R x x) (h : s.Beside t) : s.Via R k t := ⟨s.sl k, hR _, by rw [State.setSl_sl]; exact h⟩

theorem sl_eq (h : s.Via R k t) (hk : k < 32) : R (s.sl k) (t.sl k) := by
  obtain ⟨y, hy, ht⟩ := h
  rw [ht.sl, State.sl_setSl _ _ _ hk]
  exact hy

theorem sl_ne (h : s.Via R k t) {j : Nat} (hj : j ≠ k) : t.sl j = s.sl j := by
  obtain ⟨y, hy, ht⟩ := h
  rw [ht.sl, State.sl_setSl_ne _ _ _ _ hj.symm]

theorem mod (f : Slice → Slice) (h : R (s.sl k) (f (s.sl k))) : s.Via R k (s.mod k f) := ⟨f (s.sl k), h, .refl _⟩

theorem trans (hR : ∀ x y z, R x y → R y z → R x z) (hk : k < 32) (hst : s.Via R k t) (htu : t.Via R k u) : s.Via R k u := by
  have hx := hst.sl_eq hk
  obtain ⟨y, hy, ht⟩ := hst
  obtain ⟨z, hz, hu⟩ := htu
  refine ⟨z, hR _ _ _ hx hz, ?_⟩
  have hset := ht.setSl k z
  rw [State.setSl_setSl] at hset
  exact hset.trans hu

theorem mono {R' : Slice → Slice → Prop} (h : s.Via R k t) (hR : ∀ x y, R x y → R' x y) : s.Via R' k t := by
  obtain ⟨y, hy, ht⟩ := h
  exact ⟨y, hR _ _ hy, ht⟩

theorem field {α : Type} (h : s.Via R k t) {f : State → α} (hset : ∀ y, f (s.setSl k y) = f s)
    (hb : ∀ {u v : State}, u.Beside v → f v = f u) : f t = f s := by
  obtain ⟨y, -, ht⟩ := h
  exact (hb ht).trans (hset y)

theorem chip (h : s.Via R k t) : t.chip = s.chip := h.field (fun _ => rfl) State.Beside.chip
theorem pending (h : s.Via R k t) : t.pending = s.pending := h.field (fun _ => rfl) State.Beside.pending
theorem tick (h : s.Via R k t) : t.tick = s.tick := h.field (fun _ => rfl) State.Beside.tick
theorem semu (h : s.Via R k t) : t.semu = s.semu := h.field (fun _ => rfl) State.Beside.semu

theorem irq (h : s.Via R k t) {i : Nat} (hi : s.irq.status.getLsbD i = true) : t.irq.status.getLsbD i = true := by
  obtain ⟨y, -, ht⟩ := h
  exact ht.2 i hi

end State.Via

/-- Slice `k` has at most its stores and its ring changed. -/
abbrev State.Stores (s : State) (k : Nat) (t : State) : Prop := s.Via Slice.Stored k t

namespace State.Stores
variable {s t u : State} {k : Nat}

theorem of_beside (h : s.Beside t) : s.Stores k t := Via.of_beside Slice.Stored.refl h

theorem refl (s : State) (k : Nat) : s.Stores k s := of_beside (.refl s)

theorem trans (hk : k < 32) (hst : s.Stores k t) (htu : t.Stores k u) : s.Stores k u := Via.trans (fun _ _ _ => Slice.Stored.trans) hk hst htu

section steps
variable (hk : k < 32) (h : s.Stores k t)
include hk h

theorem putRun (r : Run) : s.Stores k (t.putRun k r) := by
  unfold State.putRun
  refine trans hk ?_ (.mod _ rfl)
  exact h.beside (.of_eq rfl)

theorem putPart (w : BitWrite) : s.Stores k (t.putPart k w) := by
  refine trans hk h ?_
  obtain ⟨space, addr, mask, val⟩ := w
  cases space
  case store => exact Via.mod (fun x => { x with store := _ }) rfl
  case tile => exact Via.mod (fun x => { x with tiles := _ }) rfl
  case emul => exact of_beside (.of_eq rfl)
  case ext => exact of_beside (.of_eq rfl)

theorem putParts (ws : List BitWrite) : s.Stores k (t.putParts k ws) := by
  induction ws generalizing t with
  | nil => exact h
  | cons w ws ih => exact ih (putPart hk h w)

theorem rollback (n : Nat) (sure : Bool) (ws : List ElemWrite) : s.Stores k (t.rollback k n sure ws) := by
  induction ws generalizing t with
  | nil => exact h
  | cons w ws ih =>
    unfold State.rollback
    split
    · exact ih h
    · split
      · exact ih (putParts hk h _)
      · split
        · exact ih (putParts hk (h.beside (.draw (.refl _))) _)
        · exact ih (h.beside (.draw (.refl _)))

theorem scatterLands (n : Nat) (ws : List ElemWrite) : s.Stores k (t.scatterLands k n ws) := by
  induction ws generalizing t with
  | nil => exact h
  | cons w ws ih =>
    unfold State.scatterLands
    dsimp only
    refine ih ?_
    split
    · exact h
    · split
      · exact putParts hk (h.beside (.draw (.refl _))) _
      · exact h.beside (.draw (.refl _))

theorem settle (n : Nat) (e : Entry) (r : Running) : s.Stores k (t.settle k n e r).2 := by
  unfold State.settle
  split
  · exact h
  · split
    · exact putRun hk h _
    · exact h

theorem keepUnits (n : Nat) (e : Entry) (r : Running) : s.Stores k (t.keepUnits k n e r).2 :=
  settle hk (scatterLands hk (rollback hk (h.beside (.repoison _ _ _ (.refl t))) ..) ..) ..

theorem recordLost (data : List Byte) : s.Stores k (t.recordLost k data) :=
  (trans hk h (Via.mod (fun x => { x with cring := { x.cring with lost := sat16 x.cring.lost 1 } }) rfl)).beside (.log (.refl _) ..)

/-- Each record is lost, or its write goes to the memories (R149, R150, R155). -/
theorem sendRecords (os : List RecOut) : s.Stores k (t.sendRecords k os) := by
  induction os generalizing t with
  | nil => exact trans hk h (Via.mod (fun x => { x with recOut := [] }) rfl)
  | cons o os ih =>
    unfold State.sendRecords
    dsimp only
    split
    · exact trans hk h (Via.mod (fun x => { x with recOut := _ }) rfl)
    · split
      · exact ih (by split; exacts [recordLost hk h _, (recordLost hk h _).beside (.transFault (.refl _) ..)])
      · have hput (r : Run) : s.Stores k ((t.putRun k r).emulWritten r.undo t.ectl.poisoned) :=
          (putRun hk h r).beside (.emulWritten (.refl _) ..)
        split
        · exact ih (trans hk (hput _) (.mod _ rfl))
        · exact trans hk (hput _) (Via.mod (fun x => { x with recOut := _ }) rfl)

theorem writeRecord (r : RecInfo) : s.Stores k (t.writeRecord k r) := by
  unfold State.writeRecord
  dsimp only
  split
  · exact recordLost hk h _
  · split
    · exact sendRecords hk h _
    · exact trans hk h (Via.mod (fun x => { x with recOut := _ }) rfl)

end steps
end State.Stores
end Sys2Proof.Machine
end

section
/-! SUPPORT. What an abort does to the slice whose work it stops: its running instructions stay, stopped, and its stores take what they
leave; its registers and every other slice stay (R146 to R148, R364, R468, R540). -/

namespace Sys2Proof.Machine

/-! ### Instructions that stop -/

theorem Slice.Stored.flight {x y : Slice} (h : x.Stored y) : y.flight = x.flight := by
  unfold Slice.Stored at h
  rw [h]

/-- A slice with other instructions in flight. -/
def Slice.withFlight (x : Slice) (l : List Entry) : Slice := { x with flight := l }

theorem Slice.Stored.withFlight {x y : Slice} (h : x.Stored y) (l : List Entry) : (x.withFlight l).Stored (y.withFlight l) :=
  congrArg (Slice.withFlight · l) h

/-- Only the stores of a slice and what its instructions in flight have done differ; what ran runs on. -/
def Slice.Stopping (x y : Slice) : Prop :=
  (x.withFlight y.flight).Stored y ∧ y.flight.length = x.flight.length ∧
    ((∀ e ∈ x.flight, e.run?.isSome = true) → ∀ e ∈ y.flight, e.run?.isSome = true)

/-- An effect on instructions in flight that leaves none waiting that ran. -/
def KeepsRunning (f : Entry → Entry) : Prop := ∀ e, e.run?.isSome = true → (f e).run?.isSome = true

theorem keepsRunning_started (r : Entry → Running) : KeepsRunning fun e => { e with phase := .running (r e) } := fun _ _ => rfl

theorem KeepsRunning.on {f : Entry → Entry} (h : KeepsRunning f) (key : Nat) : KeepsRunning fun e => if e.key = key then f e else e := by
  intro e he
  dsimp only
  split
  · exact h e he
  · exact he

namespace Slice.Stopping
variable {x y z : Slice}

theorem of_stored (h : x.Stored y) : x.Stopping y := by
  have hflight : y.flight = x.flight := h.flight
  exact ⟨by rw [hflight]; exact h, by rw [hflight], by rw [hflight]; exact id⟩

theorem refl (x : Slice) : x.Stopping x := of_stored (.refl x)

theorem trans (hxy : x.Stopping y) (hyz : y.Stopping z) : x.Stopping z := by
  obtain ⟨hstored, hlen, hrun⟩ := hxy
  obtain ⟨hstored', hlen', hrun'⟩ := hyz
  exact ⟨(hstored.withFlight z.flight).trans hstored', hlen'.trans hlen, hrun' ∘ hrun⟩

theorem map {f : Entry → Entry} (h : KeepsRunning f) (x : Slice) : x.Stopping { x with flight := x.flight.map f } := by
  refine ⟨.refl _, List.length_map _, fun hall e he => ?_⟩
  obtain ⟨e', he', rfl⟩ := List.mem_map.1 he
  exact h e' (hall e' he')

theorem modEntry {f : Entry → Entry} (h : KeepsRunning f) (x : Slice) (key : Nat) : x.Stopping (x.modEntry key f) := map (h.on key) x

end Slice.Stopping

/-- Slice `k` has at most its stores and the progress of its instructions changed. -/
abbrev State.Stops (s : State) (k : Nat) (t : State) : Prop := s.Via Slice.Stopping k t

namespace State.Stops
variable {s t u : State} {k : Nat}

theorem of_stores (h : s.Stores k t) : s.Stops k t := h.mono fun _ _ => Slice.Stopping.of_stored

theorem of_beside (h : s.Beside t) : s.Stops k t := Via.of_beside Slice.Stopping.refl h

theorem refl (s : State) (k : Nat) : s.Stops k s := of_beside (.refl s)

theorem trans (hk : k < 32) (hst : s.Stops k t) (htu : t.Stops k u) : s.Stops k u :=
  Via.trans (fun _ _ _ => Slice.Stopping.trans) hk hst htu

theorem modEntry {f : Entry → Entry} (h : KeepsRunning f) (s : State) (k key : Nat) : s.Stops k (s.mod k (·.modEntry key f)) :=
  Via.mod (fun x => x.modEntry key f) (Slice.Stopping.modEntry h _ key)

theorem foldl {α : Type} {f : State → α → State} (hk : k < 32) (hf : ∀ t a, State.Stops t k (f t a)) :
    ∀ (l : List α) (s : State), s.Stops k (l.foldl f s)
  | [], s => refl s k
  | a :: l, s => trans hk (hf s a) (foldl hk hf l (f s a))

theorem kvStopped (s : State) (k : Nat) (e : Entry) : s.Stops k (s.kvStopped k e) := by
  unfold State.kvStopped
  split
  · split
    · dsimp only
      exact modEntry (keepsRunning_started (s.kvNote · _ 0 _)) s k e.key
    · exact refl s k
  · exact refl s k

theorem stopEntry (hk : k < 32) (s : State) (status code : Nat) (e : Entry) (n : Nat) : s.Stops k (s.stopEntry k status code e n) := by
  unfold State.stopEntry
  split
  · exact refl s k
  · split
    · exact refl s k
    · dsimp only
      exact trans hk (of_stores ((Stores.keepUnits hk (Stores.refl s k) n e _).beside (.dropWaits (.refl _) k e.key)))
        (modEntry (keepsRunning_started fun _ => _) _ k e.key)

theorem cancelRolls (hk : k < 32) (s : State) : s.Stops k (s.cancelRolls k) := by
  refine foldl hk (fun t r => ?_) _ s
  dsimp only
  split
  · exact trans hk (of_beside (.cancelInjection (.refl t) r)) (modEntry (f := fun e => { e with args := e.args ++ [1] }) (fun _ h => h) _ k _)
  · exact refl t k

end State.Stops

theorem State.Beside.stopMarks (s : State) (k : Nat) : s.Beside (s.stopMarks k).2 := by
  unfold State.stopMarks
  refine List.foldlRecOn (motive := fun x : Marks × State => s.Beside x.2) _ _ (.refl s) fun x h e _ => ?_
  cases e.run? with
  | none => exact h
  | some r =>
    dsimp only
    split
    · exact h
    · exact h.draw

theorem State.Beside.logAbort {s t : State} (h : s.Beside t) (k cause : Nat) (first : PcRef) (gone : List PcRef) :
    s.Beside (t.logAbort k cause first gone) := ite ((h.log ..).log ..) (h.log ..)

/-! ### The abort (R146 to R148) -/

/-- A slice whose work is aborted, before its running instructions stop: issue is halted, and what waits goes. -/
def Slice.aborted (x : Slice) : Slice :=
  { x with
    flight := x.flight.filter (·.run?.isSome)
    seq := { x.seq with halted := true, wait := none, pred := none, group := none, interlock := false, predStall := false, qfull := 0 } }

theorem State.Beside.semLeave {s t : State} (h : s.Beside t) (k : Nat) : (s.semLeave k).Beside (t.semLeave k) :=
  ⟨congrArg (State.semLeave · k) h.1, h.2⟩

theorem State.Via.semLeave {R : Slice → Slice → Prop} {s t : State} {k : Nat} (h : s.Via R k t) (j : Nat) :
    (s.semLeave j).Via R k (t.semLeave j) := by
  obtain ⟨y, hy, ht⟩ := h
  exact ⟨y, hy, ht.semLeave j⟩

/-- The instructions of a slice let go what they hold: pins, semaphores, rounds. -/
def State.letGo (s : State) (k : Nat) (l : List Entry) : State :=
  (((l.foldl (fun s e => (s.kvStopped k e).kvRelease k e.key) s).semLeave k).cancelRolls k).forwardOnly k

/-- The running instructions of a slice stop, each with a mark. -/
def State.stopAll (s : State) (k status code : Nat) : State :=
  (s.stopMarks k).1.foldl (fun s e => s.stopEntry k status code e.1 e.2) (s.stopMarks k).2

/-- The abort with each step named. -/
theorem State.abortWork_eq (s : State) (k status code : Nat) : ∃ gone, s.abortWork k status code =
    (((s.setSl k (s.sl k).aborted).letGo k (s.sl k).flight).stopAll k status code).logAbort k status (some (s.sl k).firstUnissued) gone :=
  ⟨_, rfl⟩

namespace State.Stops
variable {k : Nat} (hk : k < 32)
include hk

theorem letGo (s : State) (l : List Entry) : (s.semLeave k).Stops k (s.letGo k l) := by
  have hpins : s.Stops k (l.foldl (fun s e => (s.kvStopped k e).kvRelease k e.key) s) :=
    foldl hk (fun t e => (kvStopped t k e).beside (.kvRelease (.refl _) k e.key)) l s
  exact (trans hk (hpins.semLeave k) (cancelRolls hk _)).beside (.forwardOnly (.refl _) k)

theorem stopAll (s : State) (status code : Nat) : s.Stops k (s.stopAll k status code) :=
  trans hk (of_beside (.stopMarks s k)) (foldl hk (fun t (m : Entry × Nat) => stopEntry hk t status code m.1 m.2) _ _)

/-- An abort leaves its slice halted with its running instructions stopped; the slice waits for no semaphore. -/
theorem abortWork (s : State) (status code : Nat) : ((s.setSl k (s.sl k).aborted).semLeave k).Stops k (s.abortWork k status code) := by
  obtain ⟨gone, habort⟩ := s.abortWork_eq k status code
  rw [habort]
  exact (trans hk (letGo hk _ _) (stopAll hk _ status code)).beside (.logAbort (.refl _) ..)

end State.Stops

/-! ### Draining and faults (R468, R540) -/

/-- A slice that leaves RUNNING for DRAINING. -/
def Slice.drainingTo (x : Slice) (cause : Nat) (target : SliceState) (fault : Nat) : Slice :=
  { x with drain := some ⟨cause, target, fault⟩, cause := cause, startInc := true, held := false, state := .draining }

theorem State.Beside.drainTo {k : Nat} (hk : k < 32) (s : State) (cause : Nat) (target : SliceState) (fault : Nat) :
    (s.setSl k ((s.sl k).drainingTo cause target fault)).Beside (s.drainTo k cause target fault) := by
  unfold State.drainTo State.toState
  dsimp only
  rw [State.mod, State.sl_setSl _ _ _ hk, State.setSl_setSl]
  exact ((State.Beside.refl _).log ..).forwardOnly k

theorem State.Stops.overFault {k : Nat} (hk : k < 32) (s : State) (code : Nat) : s.Stops k (s.overFault k code) := by
  unfold State.overFault
  split
  · refine .trans hk (of_beside (State.Beside.draw (.refl s))) (Via.mod (fun x => { x with flight := x.flight.map _ })
      (Slice.Stopping.map (fun e he => ?_) _))
    split
    · split
      · rfl
      · exact he
    · exact he
  · exact of_beside ((State.Beside.refl s).draw)

/-- A running slice that a fault stops, before its instructions stop. -/
def Slice.faultedBy (x : Slice) (now cause code : Nat) : Slice :=
  ({ x with faultNs := some now }.drainingTo cause .faulted code).aborted

/-- A fault of a running slice drains it, and aborts its work (R468, R540). -/
theorem State.Stops.faultSlice {k : Nat} (hk : k < 32) {s : State} (h : (s.sl k).state = .running) (code cause : Nat) :
    ((s.setSl k ((s.sl k).faultedBy s.now cause code)).semLeave k).Stops k (s.faultSlice k code cause) := by
  have hdrain := State.Beside.drainTo hk (s.setSl k { s.sl k with faultNs := some s.now }) cause .faulted code
  rw [State.setSl_setSl, State.sl_setSl _ _ _ hk] at hdrain
  have hsl := hdrain.sl k
  rw [State.sl_setSl _ _ _ hk] at hsl
  have hnoted := (hdrain.setSl k ((s.sl k).faultedBy s.now cause code)).semLeave k
  rw [State.setSl_setSl] at hnoted
  have habort := abortWork hk ((s.setSl k { s.sl k with faultNs := some s.now }).drainTo k cause .faulted code) 2 code
  rw [hsl] at habort
  have hall := trans hk (of_beside hnoted) habort
  unfold State.faultSlice
  rw [if_pos h]
  dsimp only
  split
  · exact trans hk hall (overFault hk _ code)
  · exact hall

/-- What a slice keeps while its work stops. -/
theorem Slice.Stopping.keeps {x y : Slice} (h : x.Stopping y) : y.state = x.state ∧ y.drain = x.drain ∧ y.cause = x.cause ∧
    y.seq = x.seq ∧ y.perf.issued = x.perf.issued ∧ y.bracket = x.bracket ∧ y.brk0 = x.brk0 ∧ y.brk1 = x.brk1 ∧ y.mtr = x.mtr ∧
    y.held = x.held ∧ y.overexps = x.overexps := by
  have heq := h.1
  unfold Slice.Stored at heq
  and_intros <;> (rw [heq]; rfl)

/-- What a fault of a running slice leaves of the block. -/
structure State.FaultStops (s : State) (k code cause : Nat) (t : State) : Prop where
  slice : ((s.sl k).faultedBy s.now cause code).Stopping (t.sl k)
  others : ∀ j, j ≠ k → t.sl j = s.sl j
  chip : t.chip = s.chip
  pending : t.pending = s.pending
  timeouts : t.semu.timeouts = s.semu.timeouts

theorem State.faultSlice_running {k : Nat} (hk : k < 32) {s : State} (h : (s.sl k).state = .running) (code cause : Nat) :
    s.FaultStops k code cause (s.faultSlice k code cause) := by
  have hstops := Stops.faultSlice hk h code cause
  have hslice := hstops.sl_eq hk
  have hset : ((s.setSl k ((s.sl k).faultedBy s.now cause code)).semLeave k).sl k = (s.sl k).faultedBy s.now cause code :=
    State.sl_setSl s k _ hk
  rw [hset] at hslice
  exact {
    slice := hslice
    others := fun j hj => (hstops.sl_ne hj).trans (State.sl_setSl_ne s k j _ hj.symm)
    chip := hstops.chip
    pending := hstops.pending
    timeouts := (congrArg SemUnit.timeouts hstops.semu).trans rfl }

end Sys2Proof.Machine
end

section
/-! SUPPORT. How waits end without a release: at their deadline, or as the victim of a cycle (R144, R548, R551). -/

namespace Sys2Proof.Machine

/-! ### A WAIT that fails (R144, R548) -/

/-- A WAIT that fails is counted, and its slice leaves the queues of the semaphores. -/
def State.waitFailed (s : State) (k : Nat) : State :=
  { s with semu := { s.semu with timeouts := sat16 s.semu.timeouts 1 } }.semLeave k

section failWait
variable {s : State} {k : Nat} {w : WaitRec} (hw : (s.sl k).seq.wait = some w) (cycle : Bool)
include hw

theorem State.failWait_ends (hmode : w.fields.toMode = true) :
    s.failWait k cycle = (s.waitFailed k).setSl k ((s.sl k).endWait w false false) := by
  unfold State.failWait
  simp only [hw, hmode, if_true]
  rfl

theorem State.failWait_faults (hmode : w.fields.toMode = false) : ∃ arg, s.failWait k cycle =
    ((((s.waitFailed k).logFault k 0x0401 w.index w.routine 0x05 0xFF arg)).mod k fun x =>
      { x with seq := { x.seq with wait := none } }).faultSlice k 0x0401 5 := by
  unfold State.failWait
  simp only [hw, hmode, Bool.false_eq_true, if_false]
  exact ⟨_, rfl⟩

end failWait

theorem exec_waitTimeout {s : State} {k : SliceId} {w : WaitRec} (hw : (s.sl k.val).seq.wait = some w) :
    exec (.waitTimeout k) s = act s (if w.deadline ≤ s.now then s.failWait k.val false else s) := by
  have hexec : exec (.waitTimeout k) s = act s (match (s.sl k.val).seq.wait with
    | some w => if w.deadline ≤ s.now then s.failWait k.val false else s
    | none => s) := rfl
  rw [hexec, hw]

theorem waitsTimeOut_holds : waitsTimeOut := by
  intro s k w hl x c hw
  have hexec := exec_waitTimeout hw
  refine ⟨fun hlt => ?before, fun hle hmode => ?ends, fun hle hmode hrun => ?faults⟩
  case before => exact hexec.trans (act_eq hl (if_neg (Nat.not_le.2 hlt)) rfl rfl)
  case ends =>
    refine hexec.trans (act_eq hl ((if_pos hle).trans (State.failWait_ends hw false hmode)) rfl rfl |>.trans ?_)
    rw [Slice.endWait_eq]
    rfl
  case faults =>
    obtain ⟨arg, hfail⟩ := State.failWait_faults hw false hmode
    obtain ⟨u, hu⟩ : ∃ u, u = ((s.waitFailed k.val).logFault k.val 0x0401 w.index w.routine 0x05 0xFF arg).mod k.val fun x =>
      { x with seq := { x.seq with wait := none } } := ⟨_, rfl⟩
    have hlogged : State.Beside (s.waitFailed k.val) ((s.waitFailed k.val).logFault k.val 0x0401 w.index w.routine 0x05 0xFF arg) :=
      (State.Beside.refl _).log ..
    have hslice : u.sl k.val = { x with seq := { x.seq with wait := none } } := by
      rw [hu, State.mod, State.sl_setSl _ _ _ k.isLt, hlogged.sl]
      rfl
    have hspec := State.faultSlice_running (s := u) k.isLt (by rw [hslice]; exact hrun) 0x0401 5
    rw [← hu] at hfail
    refine ⟨u.faultSlice k.val 0x0401 5, hexec.trans (act_eq hl ((if_pos hle).trans hfail) ?pending ?chip), ?slice⟩
    case pending => rw [hspec.pending, hu]; exact hlogged.pending
    case chip => rw [hspec.chip, hu]; exact hlogged.chip
    case slice =>
      have hstop := hspec.slice
      rw [hslice] at hstop
      obtain ⟨hstate, hdrain, -, hseq, -⟩ := hstop.keeps
      refine ⟨hstate, by rw [hdrain]; rfl, by rw [hseq]; rfl, ?_⟩
      rw [hspec.timeouts, hu]
      exact congrArg SemUnit.timeouts hlogged.semu

/-! ### Wait cycles (R551) -/

theorem State.waitsFor_of_not_waiting {s : State} {k : Nat} (h : (s.sl k).seq.wait = none) : s.waitsFor k = none := by
  unfold State.waitsFor
  rw [h]

theorem State.waitPath_of_waitsFor_none {s : State} {k : Nat} (h : s.waitsFor k = none) : ∀ n, s.waitPath n k = []
  | 0 => rfl
  | n + 1 => by simp only [State.waitPath, h]

theorem State.waitPath_of_waitsFor {s : State} {j k : Nat} (h : s.waitsFor j = some k) (n : Nat) :
    s.waitPath (n + 1) j = k :: s.waitPath n k := by simp only [State.waitPath, h]

theorem State.waitCycle_of_waitsFor_none {s : State} {k : Nat} (h : s.waitsFor k = none) : s.waitCycle k = [] := by
  simp only [State.waitCycle, State.waitPath_of_waitsFor_none h, List.contains_nil, Bool.false_eq_true, if_false]

/-- One slice alone that waits for another lies on no cycle. -/
theorem State.waitCycle_of_one {s : State} {j : Nat} (hothers : ∀ i, i ≠ j → s.waitsFor i = none)
    (hself : s.waitsFor j ≠ some j) (i : Nat) :
    s.waitCycle i = [] := by
  by_cases hi : i = j
  · subst hi
    cases hfor : s.waitsFor i with
    | none => exact State.waitCycle_of_waitsFor_none hfor
    | some k =>
      have hki : k ≠ i := fun e => hself (hfor.trans (congrArg some e))
      have hpath : s.waitPath (31 + 1) i = [k] := by
        rw [State.waitPath_of_waitsFor hfor, State.waitPath_of_waitsFor_none (hothers k hki)]
      have hnot : [k].contains i = false := by simp [Ne.symm hki]
      unfold State.waitCycle
      rw [hpath]
      simp only [hnot, Bool.false_eq_true, if_false]
  · exact State.waitCycle_of_waitsFor_none (hothers i hi)

/-- Two slices that wait for each other form a cycle. -/
theorem State.waitCycle_of_two {s : State} {j k : Nat} (hjk : j ≠ k) (hj : s.waitsFor j = some k) (hk : s.waitsFor k = some j) :
    s.waitCycle j = [j, k] := by
  have hpath : s.waitPath (30 + 1 + 1) j = k :: j :: s.waitPath 30 j := by
    rw [State.waitPath_of_waitsFor hj, State.waitPath_of_waitsFor hk]
  unfold State.waitCycle
  rw [hpath]
  simp [Ne.symm hjk]

theorem State.breakCycle_of_no_cycle {s : State} {k : Nat} (h : s.waitCycle k = []) : s.breakCycle k = s := by
  unfold State.breakCycle
  rw [h]
  rfl

/-- A wait of the cycle whose deadline has come fails by it. -/
theorem State.breakCycle_of_over {s : State} {k v : Nat} {c : List Nat} (h : s.waitCycle k = c) (hne : c ≠ [])
    (hover : c.find? (fun j => s.waitOver j) = some v) : s.breakCycle k = s.failWait v false := by
  unfold State.breakCycle
  simp only [h, hover, List.isEmpty_iff, hne, if_false]

/-- A wait cycle is counted (R551). -/
def State.countCycle (s : State) : State := { s with semu := { s.semu with cycles := sat16 s.semu.cycles 1 } }

/-- With no such wait, the one that started last fails, after an entry. -/
theorem State.breakCycle_of_victim {s : State} {k v : Nat} {c : List Nat} {w : WaitRec} (h : s.waitCycle k = c) (hne : c ≠ [])
    (hover : c.find? (fun j => s.waitOver j) = none) (hv : c.foldl (fun a b => if s.waitKey a < s.waitKey b then b else a) k = v)
    (hw : (s.sl v).seq.wait = some w) : ∃ data, s.breakCycle k = (s.log 0x0109 14 5 false data).countCycle.failWait v true := by
  unfold State.breakCycle
  simp only [h, hover, hv, hw, List.isEmpty_iff, hne, if_false]
  exact ⟨_, rfl⟩

/-- A scan that meets a cycle, and no other after it. -/
theorem foldl_once {α β : Type} {P : β → Prop} {f : β → α → β} {b : β} {a : α} (hdone : ∀ t i, P t → f t i = t)
    (hbreak : P (f b a)) :
    ∀ {l : List α}, a ∈ l → (∀ i ∈ l, f b i = b ∨ P (f b i)) → P (l.foldl f b)
  | i :: l, ha, hstay => by
    have hrest (t : β) (ht : P t) : P (l.foldl f t) := by rwa [List.foldl_fixed' (fun i => hdone t i ht) l]
    rcases hstay i (List.mem_cons_self ..) with hi | hi
    · rcases List.mem_cons.1 ha with rfl | ha
      · exact hrest _ hbreak
      · rw [List.foldl_cons, hi]
        exact foldl_once hdone hbreak ha fun i hi => hstay i (List.mem_cons_of_mem _ hi)
    · exact hrest _ hi

/-! ### The slice that fails, and the one that waits on (R551) -/

/-- Slice `v` has failed its WAIT and goes on; the others and the semaphores' owners stay. -/
structure State.Fails (s : State) (v : Nat) (t : State) : Prop where
  ended : (t.sl v).seq.wait = none
  others : ∀ i, i ≠ v → t.sl i = s.sl i
  pc : ∀ i, (t.sl i).seq.pc = (s.sl i).seq.pc
  owner : ∀ n, (t.sem n).owner = (s.sem n).owner
  timeouts : t.semu.timeouts = sat16 s.semu.timeouts 1
  chip : t.chip = s.chip
  pending : t.pending = s.pending

theorem State.semLeave_owner (s : State) (k n : Nat) : ((s.semLeave k).sem n).owner = (s.sem n).owner := by
  unfold State.sem State.semLeave
  simp only [Vector.getElem?_map]
  cases s.semu.sems[n]? <;> rfl

theorem State.failWait_fails {s : State} {v : Nat} {w : WaitRec} (hv : v < 32) (hw : (s.sl v).seq.wait = some w)
    (hmode : w.fields.toMode = true) (cycle : Bool) : s.Fails v (s.failWait v cycle) := by
  rw [State.failWait_ends hw cycle hmode, Slice.endWait_eq]
  have hsl := State.sl_setSl (s.waitFailed v) v
  have hne (i : Nat) (hi : i ≠ v) (y : Slice) : ((s.waitFailed v).setSl v y).sl i = s.sl i := State.sl_setSl_ne _ _ _ _ hi.symm
  exact {
    ended := by rw [hsl _ hv]
    others := fun i hi => hne i hi _
    pc := fun i => by
      by_cases hi : i = v
      · rw [hi, hsl _ hv]
      · rw [hne i hi]
    owner := fun n => State.semLeave_owner _ v n
    timeouts := rfl
    chip := rfl
    pending := rfl }

/-- Two slices that wait for each other's semaphores, alone. -/
structure State.WaitPair (s : State) (j k : Nat) : Prop where
  ne : j ≠ k
  forJ : s.waitsFor j = some k
  forK : s.waitsFor k = some j
  alone : ∀ i, i ≠ j → i ≠ k → (s.sl i).seq.wait = none

theorem State.WaitPair.symm {s : State} {j k : Nat} (h : s.WaitPair j k) : s.WaitPair k j :=
  ⟨h.ne.symm, h.forK, h.forJ, fun i hi hi' => h.alone i hi' hi⟩

theorem State.owner_of_waitsFor {s : State} {k j n : Nat} {w : WaitRec} (hw : (s.sl k).seq.wait = some w) (hkind : w.kind = .acquire n)
    (h : s.waitsFor k = some j) : (s.sem n).owner.toNat = j := by
  unfold State.waitsFor at h
  simp only [hw, hkind] at h
  split at h
  · exact Option.some.inj h
  · exact absurd h (by simp)

/-- Once one slice of a pair has failed, there is no cycle. -/
theorem State.WaitPair.no_cycle {s t : State} {j v : Nat} (h : s.WaitPair j v) (hfail : s.Fails v t) {w : WaitRec} {n : Nat}
    (hw : (s.sl j).seq.wait = some w) (hkind : w.kind = .acquire n) (i : Nat) : t.waitCycle i = [] := by
  refine State.waitCycle_of_one (j := j) (fun i hi => State.waitsFor_of_not_waiting ?_) (fun hself => ?_) i
  · by_cases hiv : i = v
    · rw [hiv]; exact hfail.ended
    · rw [hfail.others i hiv]; exact h.alone i hi hiv
  · have hown := State.owner_of_waitsFor (by rw [hfail.others j h.ne]; exact hw) hkind hself
    rw [hfail.owner, State.owner_of_waitsFor hw hkind h.forJ] at hown
    exact h.ne hown.symm

theorem exec_waitForScan (s : State) : exec .waitForScan s =
    act s (if s.now % 100000 = 0 ∧ s.fw.running then s.present.foldl (fun s k => s.breakCycle k) s else s) := rfl

/-- A scan over a pair, each of whose slices finds the same one to fail. -/
theorem State.WaitPair.scan {s : State} {j k : Nat} (h : s.WaitPair j k) {P : State → Prop} (hj : j ∈ s.present)
    (hfails : ∀ i, i = j ∨ i = k → P (s.breakCycle i)) (hdone : ∀ t, P t → ∀ i, t.waitCycle i = []) :
    P (s.present.foldl (fun s k => s.breakCycle k) s) := by
  refine foldl_once (a := j) (fun t i ht => State.breakCycle_of_no_cycle (hdone t ht i)) (hfails j (.inl rfl)) hj fun i _ => ?_
  by_cases hi : i = j ∨ i = k
  · exact .inr (hfails i hi)
  · obtain ⟨hij, hik⟩ := not_or.1 hi
    exact .inl (State.breakCycle_of_no_cycle (State.waitCycle_of_waitsFor_none (State.waitsFor_of_not_waiting (h.alone i hij hik))))

theorem State.WaitPair.cycle {s : State} {j k : Nat} (h : s.WaitPair j k) {i : Nat} (hi : i = j ∨ i = k) :
    s.waitCycle i = [j, k] ∨ s.waitCycle i = [k, j] := by
  rcases hi with rfl | rfl
  · exact .inl (State.waitCycle_of_two h.ne h.forJ h.forK)
  · exact .inr (State.waitCycle_of_two h.ne.symm h.forK h.forJ)

/-- The entry and the count of a cycle change no slice and no semaphore. -/
theorem State.Fails.of_counted {s t : State} {v : Nat} {data : List Byte} (h : (s.log 0x0109 14 5 false data).countCycle.Fails v t) :
    s.Fails v t := by
  have hlog : s.Beside (s.log 0x0109 14 5 false data) := (State.Beside.refl s).log ..
  have hsl (i : Nat) : (s.log 0x0109 14 5 false data).countCycle.sl i = s.sl i := hlog.sl i
  have hsem (n : Nat) : (s.log 0x0109 14 5 false data).sem n = s.sem n :=
    congrArg (fun u : SemUnit => (u.sems[n]?).getD Sem.reset) hlog.semu
  exact {
    ended := h.ended
    others := fun i hi => (h.others i hi).trans (hsl i)
    pc := fun i => (h.pc i).trans (congrArg (·.seq.pc) (hsl i))
    owner := fun n => (h.owner n).trans (congrArg Sem.owner (hsem n))
    timeouts := h.timeouts.trans ((rfl : _ = sat16 (s.log 0x0109 14 5 false data).semu.timeouts 1).trans
      (congrArg (fun u : SemUnit => sat16 u.timeouts 1) hlog.semu))
    chip := h.chip.trans hlog.chip
    pending := h.pending.trans hlog.pending }

theorem State.failWait_cycles {s : State} {v : Nat} {w : WaitRec} (hw : (s.sl v).seq.wait = some w) (hmode : w.fields.toMode = true)
    (cycle : Bool) : (s.failWait v cycle).semu.cycles = s.semu.cycles := by rw [State.failWait_ends hw cycle hmode]; rfl

theorem State.waitOver_eq {s : State} {k : Nat} {w : WaitRec} (hw : (s.sl k).seq.wait = some w) :
    s.waitOver k = decide (w.deadline ≤ s.now) := by
  unfold State.waitOver
  rw [hw]

section pair
variable {s : State} {j k : Nat} {wj wk : WaitRec} (h : s.WaitPair j k) (hj : (s.sl j).seq.wait = some wj)
  (hk : (s.sl k).seq.wait = some wk) {i : Nat} (hi : i = j ∨ i = k)
include h hj hk hi

/-- With no deadline reached, the slice whose wait started later is the victim. -/
theorem State.WaitPair.breaks_later (hk32 : k < 32) (hkey : s.waitKey j < s.waitKey k) (hjdue : s.now < wj.deadline)
    (hkdue : s.now < wk.deadline) (hmode : wk.fields.toMode = true) :
    s.Fails k (s.breakCycle i) ∧ (s.breakCycle i).semu.cycles = sat16 s.semu.cycles 1 := by
  have hjover : s.waitOver j = false := (State.waitOver_eq hj).trans (decide_eq_false (Nat.not_le.2 hjdue))
  have hkover : s.waitOver k = false := (State.waitOver_eq hk).trans (decide_eq_false (Nat.not_le.2 hkdue))
  have hbreak : ∃ data, s.breakCycle i = (s.log 0x0109 14 5 false data).countCycle.failWait k true := by
    have hnot : ¬s.waitKey k < s.waitKey j := Nat.not_lt.2 hkey.le
    rcases hi with rfl | rfl
    · exact State.breakCycle_of_victim (State.waitCycle_of_two h.ne h.forJ h.forK) (by simp)
        (by simp [hjover, hkover]) (by simp [hkey]) hk
    · exact State.breakCycle_of_victim (State.waitCycle_of_two h.ne.symm h.forK h.forJ) (by simp)
        (by simp [hjover, hkover]) (by simp [hnot]) hk
  obtain ⟨data, hbreak⟩ := hbreak
  have hlog : s.Beside (s.log 0x0109 14 5 false data) := (State.Beside.refl s).log ..
  have hwait : ((s.log 0x0109 14 5 false data).countCycle.sl k).seq.wait = some wk := (congrArg (·.seq.wait) (hlog.sl k)).trans hk
  rw [hbreak]
  refine ⟨(State.failWait_fails hk32 hwait hmode true).of_counted, (State.failWait_cycles hwait hmode true).trans ?_⟩
  exact congrArg (fun u : SemUnit => sat16 u.cycles 1) hlog.semu

/-- A wait whose deadline has come is the one that fails, and no cycle counts. -/
theorem State.WaitPair.breaks_due (hj32 : j < 32) (hjdue : wj.deadline ≤ s.now) (hkdue : s.now < wk.deadline)
    (hmode : wj.fields.toMode = true) : s.Fails j (s.breakCycle i) ∧ (s.breakCycle i).semu.cycles = s.semu.cycles := by
  have hjover : s.waitOver j = true := (State.waitOver_eq hj).trans (decide_eq_true hjdue)
  have hkover : s.waitOver k = false := (State.waitOver_eq hk).trans (decide_eq_false (Nat.not_le.2 hkdue))
  have hbreak : s.breakCycle i = s.failWait j false := by
    rcases hi with rfl | rfl
    · exact State.breakCycle_of_over (State.waitCycle_of_two h.ne h.forJ h.forK) (by simp) (by simp [hjover])
    · exact State.breakCycle_of_over (State.waitCycle_of_two h.ne.symm h.forK h.forJ) (by simp) (by simp [hjover, hkover])
  rw [hbreak]
  exact ⟨State.failWait_fails hj32 hj hmode false, State.failWait_cycles hj hmode false⟩

end pair

theorem State.waitsFor_owner {s : State} {k n : Nat} {o : SliceId} {w : WaitRec} (hw : (s.sl k).seq.wait = some w) (hkind : w.kind = .acquire n)
    (hsem : s.sem n = { s.sem n with held := true, kind := 1, owner := BitVec.ofNat 12 o.val }) : s.waitsFor k = some o.val := by
  have hheld : (s.sem n).held = true := congrArg Sem.held hsem
  have hskind : (s.sem n).kind = 1 := congrArg Sem.kind hsem
  have howner : (s.sem n).owner.toNat = o.val := by
    rw [congrArg Sem.owner hsem, BitVec.toNat_ofNat, Nat.mod_eq_of_lt (o.isLt.trans (by decide))]
  simp only [State.waitsFor, hw, hkind, hheld, hskind, howner, and_self, if_true]

theorem waitCyclesBreak_holds : waitCyclesBreak := by
  intro s hl
  refine ⟨fun hidle => ?idle, fun _ hnone => ?nobody, ?pair⟩
  case idle =>
    refine act_eq hl (if_neg ?_) rfl rfl
    rintro ⟨hns, hfw⟩
    rcases hidle with hidle | hidle
    · exact hidle hns
    · rw [hfw] at hidle
      exact absurd hidle (by decide)
  case nobody =>
    have hscan : s.present.foldl (fun s k => s.breakCycle k) s = s := by
      refine List.foldl_fixed' (fun i => ?_) _
      have hwait : (s.sl i).seq.wait = none := by
        by_cases hi : i < 32
        · exact hnone ⟨i, hi⟩
        · rw [s.sl_of_ge (Nat.not_lt.1 hi)]; rfl
      exact State.breakCycle_of_no_cycle (State.waitCycle_of_waitsFor_none (State.waitsFor_of_not_waiting hwait))
    exact act_eq hl (by rw [hscan, ite_self]) rfl rfl
  case pair =>
    intro j k wj wk m n hns hfw hmodel hjk kept hj hk halone hjm hkn hstart hm hn
    have hpair : s.WaitPair j.val k.val := {
      ne := fun e => hjk (Fin.ext e)
      forJ := State.waitsFor_owner hj hjm hm
      forK := State.waitsFor_owner hk hkn hn
      alone := fun i hij hik => by
        by_cases hi : i < 32
        · exact halone ⟨i, hi⟩ (fun e => hij (congrArg Fin.val e)) (fun e => hik (congrArg Fin.val e))
        · rw [s.sl_of_ge (Nat.not_lt.1 hi)]; rfl }
    have hkey : s.waitKey j.val < s.waitKey k.val := by
      simpa only [State.waitKey, hj, hk, Option.map_some, Option.getD_some] using hstart
    have hpresent : j.val ∈ s.present := List.mem_range.2 (by rw [hmodel]; exact j.isLt)
    have hexec : exec .waitForScan s = act s (s.present.foldl (fun s k => s.breakCycle k) s) := by
      rw [exec_waitForScan, if_pos ⟨hns, hfw⟩]
    refine ⟨fun hjdue hkdue hmode => ?later, fun hjdue hkdue hmode => ?due⟩
    case later =>
      obtain ⟨hfail, hcycles⟩ := hpair.scan (P := fun t => s.Fails k.val t ∧ t.semu.cycles = sat16 s.semu.cycles 1) hpresent
        (fun i hi => hpair.breaks_later hj hk hi k.isLt hkey hjdue hkdue hmode) fun t ht => hpair.no_cycle ht.1 hj hjm
      exact ⟨_, hexec.trans (act_live s _ hl hfail.pending hfail.chip), hfail.ended, hfail.others _ hpair.ne, hcycles, hfail.timeouts,
        fun i => hfail.pc i.val⟩
    case due =>
      obtain ⟨hfail, hcycles⟩ := hpair.scan (P := fun t => s.Fails j.val t ∧ t.semu.cycles = s.semu.cycles) hpresent
        (fun i hi => hpair.breaks_due hj hk hi j.isLt hjdue hkdue hmode) fun t ht => hpair.symm.no_cycle ht.1 hk hkn
      exact ⟨_, hexec.trans (act_live s _ hl hfail.pending hfail.chip), hfail.ended, hfail.others _ hpair.ne.symm, hcycles, hfail.timeouts,
        fun i => hfail.pc i.val⟩

/-- Settles O15: a WAIT that fails ends or faults, and of two slices that wait for each other one has failed when the scan meets the
second. -/
theorem waitsEnd : Obligations.WaitsEnd := ⟨waitsTimeOut_holds, waitCyclesBreak_holds⟩

end Sys2Proof.Machine
end

section
/-! SUPPORT. What a check that fails at issue leaves of the slice and of the block (R146, R149, R540, R542). -/

namespace Sys2Proof.Machine

/-- What a slice keeps while its stores change. -/
theorem Slice.Stored.keeps {x y : Slice} (h : x.Stored y) : y.state = x.state ∧ y.seq = x.seq ∧ y.perf.issued = x.perf.issued ∧
    y.bracket = x.bracket ∧ y.brk0 = x.brk0 ∧ y.brk1 = x.brk1 ∧ y.mtr = x.mtr := by
  unfold Slice.Stored at h
  and_intros <;> rw [h]

theorem State.Beside.issueUnits (s : State) (k op : Nat) (f : Fields) (grp : Bool) (e : IssueFault) :
    s.Beside (s.issueUnits k op f grp e).2 := by
  unfold State.issueUnits
  dsimp only
  split
  · split
    · exact .refl s
    · exact (refl s).draw
  · split
    · exact (refl s).draw
    · exact .refl s

/-- A fault at issue writes its entry and its record; then the pc moves on, and the slice faults. -/
theorem State.faultAtIssue_eq {k : Nat} (hk : k < 32) (s : State) (op : Nat) (f : Fields) (grp : Bool) (e : IssueFault) :
    ∃ t, s.Stores k t ∧ s.faultAtIssue k op f grp e = (t.modSeq k fun q => { q with pc := q.pc + 1 }).faultSlice k e.code 5 := by
  refine ⟨_, Stores.writeRecord hk (Stores.of_beside ?_) _, rfl⟩
  exact (State.Beside.ite (.noteTransFault (.log (.refl s) ..) ..) (.log (.refl s) ..)).trans (.issueUnits ..)

/-- Settles O11: the slice faults as any running slice does, after the instruction has counted as issued. -/
theorem issueFaultAborts : Obligations.IssueFaultAborts := by
  unfold Obligations.IssueFaultAborts
  intro i s k op f hi h x rw' grp hst hdesc bad hbad
  obtain ⟨hl, hcan, -⟩ := State.takes_parts h
  have hrun : x.state = .running := by
    simp only [State.canIssue, Slice.canIssue, Bool.and_eq_true, beq_iff_eq] at hcan
    obtain ⟨⟨⟨⟨⟨⟨hrun, -⟩, -⟩, -⟩, -⟩, -⟩, -⟩ := hcan
    exact hrun
  obtain ⟨t, hstores, hfault⟩ := State.faultAtIssue_eq k.isLt (s.setSl k.val ((x.showStall none).countIssue)) op f grp.isSome bad
  have hslice := hstores.sl_eq k.isLt
  rw [State.sl_setSl _ _ _ k.isLt] at hslice
  obtain ⟨hstate, hseq, hissued, hbracket, hbrk0, hbrk1, hmtr⟩ := hslice.keeps
  obtain ⟨u, hu⟩ : ∃ u, u = t.modSeq k.val fun q => { q with pc := q.pc + 1 } := ⟨_, rfl⟩
  have husl : u.sl k.val = (t.sl k.val).nextPc := by
    rw [hu]
    exact State.sl_setSl t k.val _ k.isLt
  have hstop := State.faultSlice_running (s := u) k.isLt (by rw [husl]; exact hstate.trans hrun) bad.code 5
  rw [← hu] at hfault
  have hexec : exec i s = .next (u.faultSlice k.val bad.code 5) := by
    rw [exec_engine hi]
    refine act_eq hl ((State.issueEngine_faults h hst hdesc hbad).trans hfault) ?_ ?_
    · rw [hstop.pending, hu]; exact hstores.pending
    · rw [hstop.chip, hu]; exact hstores.chip
  obtain ⟨hystate, hydrain, hycause, hyseq, hyissued, hybracket, hybrk0, hybrk1, hymtr, -⟩ := hstop.slice.keeps
  have hothers (j : Nat) (hj : j ≠ k.val) : (u.faultSlice k.val bad.code 5).sl j = s.sl j := by
    rw [hstop.others j hj, hu]
    exact (State.sl_setSl_ne t _ j _ hj.symm).trans ((hstores.sl_ne hj).trans (State.sl_setSl_ne s _ j _ hj.symm))
  refine ⟨_, hexec, hystate, hydrain, hycause, by rw [hyseq]; rfl, ?issue, ?flight, ?issued, ?cnt, ?bracket, ?brk0, ?brk1, ?mtr,
    fun j hj => by rw [hothers j hj]; exact ⟨rfl, rfl⟩⟩
  case issue => rw [Slice.canIssue, hystate]; rfl
  case flight => exact hstop.slice.2.2 fun e he => (List.mem_filter.1 he).2
  case issued => rw [hyissued, husl]; exact hissued
  case cnt => rw [hyseq, husl]; exact (congrArg Seq.cnt hseq).trans rfl
  case bracket => rw [hybracket, husl]; exact hbracket
  case brk0 => rw [hybrk0, husl]; exact hbrk0
  case brk1 => rw [hybrk1, husl]; exact hbrk1
  case mtr => rw [hymtr, husl]; exact hmtr

end Sys2Proof.Machine
end

section
/-! SUPPORT. A frame that is not complete at its edge: its work stops, or its edge is held (R146, R361 to R363). -/

namespace Sys2Proof.Machine

/-! ### Every running instruction of an aborted slice stops (R147) -/

/-- An instruction that does not run on. -/
def Entry.Stopped (e : Entry) : Prop := ∀ r, e.run? = some r → stoppedStatus r.status = true

theorem lowerMarks_entries : ∀ (n : Nat) (ms : Marks), (lowerMarks n ms).map Prod.fst = ms.map Prod.fst
  | 0, _ => rfl
  | n + 1, ms => by
    rw [lowerMarks, lowerMarks_entries n, List.map_map]
    rfl

/-- What each element of a list has brought about stands once the list is folded. -/
theorem foldl_reaches {α β : Type} {f : β → α → β} {Q : α → β → Prop} (hset : ∀ y a, Q a (f y a))
    (hkeep : ∀ y a b, Q b y → Q b (f y a)) :
    ∀ (l : List α) (y : β), ∀ a ∈ l, Q a (l.foldl f y)
  | b :: l, y, a, ha => by
    rcases List.mem_cons.1 ha with rfl | ha
    · exact List.foldlRecOn (motive := Q a) l f (hset y a) fun y h b _ => hkeep y b a h
    · exact foldl_reaches hset hkeep l (f y b) a ha

/-- Every running instruction of the slice is marked. -/
theorem State.stopMarks_all (s : State) (k : Nat) {e : Entry} (he : e ∈ (s.sl k).flight) {r : Running} (hr : e.run? = some r) :
    ∃ n, (e, n) ∈ (s.stopMarks k).1 := by
  have hmark : e ∈ (s.stopMarks k).1.map Prod.fst := by
    unfold State.stopMarks
    simp only [List.map_map, Function.comp_def]
    rw [lowerMarks_entries]
    refine foldl_reaches (Q := fun (e : Entry) (x : Marks × State) => ∀ r, e.run? = some r → e ∈ x.1.map Prod.fst) ?_ ?_ _ _ e he r hr
    · intro y a r hr
      simp only [hr]
      split <;> simp
    · intro y a b hb r hr
      have hmem := hb r hr
      cases a.run? with
      | none => exact hmem
      | some _ =>
        dsimp only
        split
        · exact List.mem_cons_of_mem _ hmem
        · exact List.mem_cons_of_mem _ hmem
  obtain ⟨⟨e', n⟩, hm, rfl⟩ := List.mem_map.1 hmark
  exact ⟨n, hm⟩

section stop
variable {k : Nat} (hk : k < 32) {status : Nat} (hstatus : stoppedStatus status = true) (code : Nat)
include hk hstatus

/-- An instruction that stops leaves the others of its slice as they are. -/
theorem State.stopEntry_flight (s : State) (e : Entry) (n : Nat) {f : Entry}
    (hf : f ∈ ((s.stopEntry k status code e n).sl k).flight) : f.Stopped ∨ (f ∈ (s.sl k).flight ∧ (e.Stopped ∨ f.key ≠ e.key)) := by
  unfold State.stopEntry at hf
  split at hf
  · rename_i hnone
    exact .inr ⟨hf, .inl fun r hr => absurd (hnone.symm.trans hr) (by simp)⟩
  · rename_i r hrun
    split at hf
    · rename_i hst
      exact .inr ⟨hf, .inl fun r' hr' => by rw [Option.some.inj (hr'.symm.trans hrun)]; exact hst⟩
    · dsimp only at hf
      rw [State.mod, State.sl_setSl _ _ _ hk] at hf
      obtain ⟨f', hf', rfl⟩ := List.mem_map.1 hf
      have hstores := (Stores.keepUnits hk (Stores.refl s k) n e r).beside (.dropWaits (.refl _) k e.key)
      rw [(hstores.sl_eq hk).flight] at hf'
      split
      · refine .inl fun r' hr' => ?_
        cases hr'
        exact hstatus
      · rename_i hne
        exact .inr ⟨hf', .inr hne⟩

theorem State.stopEntries_flight : ∀ (ms : Marks) (s : State) {f : Entry},
    f ∈ ((ms.foldl (fun s m => s.stopEntry k status code m.1 m.2) s).sl k).flight →
      f.Stopped ∨ (f ∈ (s.sl k).flight ∧ ∀ m ∈ ms, m.1.Stopped ∨ f.key ≠ m.1.key)
  | [], _, _, hf => .inr ⟨hf, fun _ hm => absurd hm List.not_mem_nil⟩
  | m :: ms, s, f, hf => by
    rcases State.stopEntries_flight ms _ hf with hstop | ⟨hmem, hrest⟩
    · exact .inl hstop
    · rcases State.stopEntry_flight hk hstatus code s m.1 m.2 hmem with hstop | ⟨hmem, hthis⟩
      · exact .inl hstop
      · exact .inr ⟨hmem, List.forall_mem_cons.2 ⟨hthis, hrest⟩⟩

theorem State.stopAll_stopped (s : State) {f : Entry} (hf : f ∈ ((s.stopAll k status code).sl k).flight) : f.Stopped := by
  rcases State.stopEntries_flight hk hstatus code _ _ hf with hstop | ⟨hmem, hmarks⟩
  · exact hstop
  · rw [(State.Beside.stopMarks s k).sl] at hmem
    intro r hr
    obtain ⟨n, hn⟩ := s.stopMarks_all k hmem hr
    exact (hmarks _ hn).elim (fun h => h r hr) fun h => absurd rfl h

/-- After an abort nothing of its slice runs on. -/
theorem State.abortWork_stopped (s : State) {f : Entry} (hf : f ∈ ((s.abortWork k status code).sl k).flight) : f.Stopped := by
  obtain ⟨gone, habort⟩ := s.abortWork_eq k status code
  rw [habort, (State.Beside.logAbort (.refl _) ..).sl] at hf
  exact State.stopAll_stopped hk hstatus code _ hf

end stop

/-! ### The held edge (R363) -/

theorem State.heldNow_frameEdge {s : State} {k : Nat} (hrun : (s.sl k).state = .running) (hheld : (s.sl k).held = true)
    (hdone : (s.sl k).frameDone = true) (hdrain : (s.sl k).drain = none) : ∃ data, s.heldNow k =
      ((s.log k 4 3 false data).frameEdge k (s.sl k).heldNs).endAtEdge (s.sl k).heldNs := by
  have hleaving : (s.sl k).leaving = false := by
    unfold Slice.leaving
    rw [hdrain]
  unfold State.heldNow
  simp only [hrun, hheld, hdone, hleaving, and_self, if_true, Bool.false_eq_true, if_false]
  exact ⟨_, rfl⟩

theorem State.Logged.scrubDue {s t : State} (h : s.Logged t) (k : Nat) : t.scrubDue k = s.scrubDue k := by
  obtain ⟨_, _, _, rfl⟩ := h
  rfl

theorem heldEdges_holds : heldEdges := by
  intro s k hl x
  refine ⟨fun hnot => act_eq hl (if_neg hnot) rfl rfl, fun hrun hheld hdone hdrain hdue hcmds hsticky hswitch hpub => ?_⟩
  obtain ⟨data, hheldNow⟩ := State.heldNow_frameEdge hrun hheld hdone hdrain
  have hlogged : s.SliceTo k.val x (s.log k 4 3 false data) := (State.SliceTo.refl s k.val).log ..
  have hnext := hlogged.frameEdge k.isLt ((State.Logged.scrubDue (.log ..) _).trans hdue) hdrain hsticky hswitch x.heldNs
  rw [State.endAtEdge_idle (hnext.cmds.trans hcmds)] at hheldNow
  refine ⟨_, act_eq hl hheldNow hnext.pending hnext.chip, ?_⟩
  rw [hnext.sl k.isLt]
  obtain ⟨hstate, -, -, hcnt, -, hstore, -⟩ := x.nextFrame_keeps
  obtain ⟨hframe, hpc, -⟩ := x.nextFrame_starts
  have hwrites := Slice.slotWrites_of_not_pub hpub
  refine ⟨rfl, x.nextFrame_bracket, hframe, hpc, hstate.trans hrun, ?_, ?_, hcnt, hstore, hnext.tick⟩
  · rw [x.nextFrame_brk0, hwrites]
    exact ite_self _
  · rw [x.nextFrame_brk1, hwrites]
    exact ite_self _

/-! ### The missed edge (R361 to R363) -/

/-- An edge that finds slice `k` alone at work, with its frame not complete: the parts of `quiet`, and of the slice. -/
structure EdgeMissed (s : State) (k : Nat) : Prop where
  alone : ∀ j, j ≠ k → (s.sl j).state ≠ .running
  noStart : ∀ j, (s.sl j).startAt = none
  noFault : ∀ j, justFaulted s j = false
  noCmds : s.cmds = []
  noPeriod : s.tick.pending = none
  running : (s.sl k).state = .running
  undone : (s.sl k).frameDone = false
  notOver : (s.sl k).overexp = false
  notHeld : (s.sl k).held = false
  noDrain : (s.sl k).drain = none
  noScrub : s.scrubDue k = false
  present : k < s.chip.model.slices

/-- The block is quiet but for slice `k`. -/
theorem quiet_parts {s : State} {k : Nat} (hk : k < 32) (h : quiet (s.mod k fun x => { x with state := .ready }) = true) :
    (∀ j, j ≠ k → (s.sl j).state ≠ .running ∧ justFaulted s j = false) ∧ (∀ j, (s.sl j).startAt = none) ∧ s.cmds = [] ∧
      s.tick.pending = none := by
  simp only [quiet, Bool.and_eq_true, List.all_eq_true, List.mem_range, bne_iff_ne, ne_eq, Bool.not_eq_true', Option.isNone_iff_eq_none,
    List.isEmpty_iff, decide_eq_true_eq] at h
  obtain ⟨⟨⟨⟨hall, hcmds⟩, -⟩, hperiod⟩, -⟩ := h
  have hother (j : Nat) (hj : j ≠ k) : (s.mod k fun x => { x with state := .ready }).sl j = s.sl j := State.sl_setSl_ne _ _ _ _ hj.symm
  refine ⟨fun j hj => ?_, fun j => ?_, hcmds, hperiod⟩
  · by_cases hlt : j < 32
    · obtain ⟨⟨hrun, -⟩, hfault⟩ := hall j hlt
      rw [justFaulted, hother j hj] at hfault
      rw [hother j hj] at hrun
      exact ⟨hrun, hfault⟩
    · rw [justFaulted, s.sl_of_ge (Nat.not_lt.1 hlt)]
      exact ⟨by decide, rfl⟩
  · by_cases hlt : j < 32
    · obtain ⟨⟨-, hstart⟩, -⟩ := hall j hlt
      by_cases hj : j = k
      · subst hj
        rw [State.mod, State.sl_setSl _ _ _ hlt] at hstart
        exact hstart
      · rwa [hother j hj] at hstart
    · rw [s.sl_of_ge (Nat.not_lt.1 hlt)]
      rfl

namespace EdgeMissed
variable {s : State} {k : Nat} (h : EdgeMissed s k)
include h

theorem slicesIn_running : s.slicesIn (· == .running) = [k] := by
  rw [State.slicesIn, ← List.filterMap_eq_filter]
  exact filterMap_range_eq_singleton h.present (by simp [h.running]) fun j _ hj => by simp [h.alone j hj]

theorem exposed : (s.sl k).exposed = true := by simp [Slice.exposed, h.undone, h.notOver, h.notHeld]

/-- The edge overexposes the slice; where its work has stopped it goes on from there. -/
theorem slicesEdge {edge : Nat} {u : State} (hu : (s.sliceOver k edge).afterOver k edge = u) (hstart : ∀ j, (u.sl j).startAt = none)
    (hcmds : u.cmds = []) : s.slicesEdge edge = u := by
  unfold State.slicesEdge
  simp only [State.refuseSwitches_idle h.noCmds, h.slicesIn_running, h.exposed, State.foldl_faultedOver_idle h.noFault, hu,
    State.foldl_startSlice_idle hstart, State.migrations_idle hcmds, State.endAtEdge_idle hcmds, List.filter_cons, List.filter_nil,
    if_true, List.foldl_nil, List.foldl_cons, List.contains_cons, beq_self_eq_true, Bool.true_or]

end EdgeMissed

/-- What the overexposure of slice `k` leaves: another slice `y`, the count, the interrupt. -/
structure State.Overexposes (s : State) (k : Nat) (y : Slice) (u : State) : Prop where
  slice : u.sl k = y
  others : ∀ j, j ≠ k → u.sl j = s.sl j
  tick : u.tick = { s.tick with overexp := sat16 s.tick.overexp 1 }
  irq : u.irq.status.getLsbD 4 = true
  cmds : u.cmds = s.cmds
  chip : u.chip = s.chip
  pending : u.pending = s.pending

/-- A slice whose overexposure is counted (R361). -/
def Slice.overexposed (x : Slice) : Slice := { x with overexps := sat16 x.overexps 1 }

theorem State.Beside.cmds {s t : State} (h : s.Beside t) : t.cmds = s.cmds := by
  unfold State.cmds State.chan
  rw [h.mbox, h.fw]

theorem State.Via.cmds {R : Slice → Slice → Prop} {s t : State} {k : Nat} (h : s.Via R k t) : t.cmds = s.cmds :=
  h.field (fun _ => rfl) State.Beside.cmds

/-- The block with an overexposure counted, before its interrupt. -/
def State.overexposed (s : State) (k : Nat) : State :=
  { s with tick := { s.tick with overexp := sat16 s.tick.overexp 1 } }.setSl k (s.sl k).overexposed

section counted
variable (s : State) {k : Nat}

theorem State.overexposed_sl (hk : k < 32) : (s.overexposed k).sl k = (s.sl k).overexposed := State.sl_setSl _ k _ hk

theorem State.overexposed_sl_ne {j : Nat} (hj : j ≠ k) : (s.overexposed k).sl j = s.sl j := State.sl_setSl_ne _ k j _ hj.symm

/-- An overexposure counts and raises its interrupt, before anything is logged. -/
theorem State.countOverexp_log (data : List Byte) (code : Nat) (fault : Bool) :
    (s.overexposed k).Beside ((s.countOverexp k).log k 4 code fault data) ∧
      ((s.countOverexp k).log k 4 code fault data).irq.status.getLsbD 4 = true := by
  have hlog : (s.countOverexp k).Beside ((s.countOverexp k).log k 4 code fault data) := (State.Beside.refl _).log ..
  exact ⟨((State.Beside.refl (s.overexposed k)).irqSet 4).trans hlog, hlog.2 4 (State.irqSet_status _ (by decide))⟩

variable (hk : k < 32)
include hk

/-- A slice whose edge is held (R363). -/
def Slice.heldAt (x : Slice) (edge : Nat) : Slice :=
  { x.overexposed with held := true, heldNs := edge, heldTicks := sat16 x.heldTicks 1 }

theorem State.overHold_overexposes (edge : Nat) : s.Overexposes k ((s.sl k).heldAt edge) (s.overHold k edge) := by
  obtain ⟨data, hhold⟩ : ∃ data, s.overHold k edge = ((s.countOverexp k).log k 4 2 false data).mod k fun x =>
      { x with held := true, heldNs := edge, heldTicks := sat16 x.heldTicks 1 } := ⟨_, rfl⟩
  obtain ⟨hbeside, hirq⟩ := s.countOverexp_log (k := k) data 2 false
  rw [hhold]
  exact {
    slice := by rw [State.mod, State.sl_setSl _ _ _ hk, hbeside.sl, s.overexposed_sl hk]; rfl
    others := fun j hj => by rw [State.mod, State.sl_setSl_ne _ _ _ _ hj.symm, hbeside.sl, s.overexposed_sl_ne hj]
    tick := hbeside.tick
    irq := hirq
    cmds := hbeside.cmds
    chip := hbeside.chip
    pending := hbeside.pending }

/-- The slice whose frame aborts keeps its frame's place; nothing of it runs on. -/
theorem State.overAbort_overexposes (edge : Nat) : s.Overexposes k ((s.overAbort k edge).sl k) (s.overAbort k edge) ∧
    (s.sl k).overexposed.aborted.Stopping ((s.overAbort k edge).sl k) ∧ ∀ f ∈ ((s.overAbort k edge).sl k).flight, f.Stopped := by
  obtain ⟨data, habort⟩ : ∃ data, s.overAbort k edge = ((s.countOverexp k).log k 4 0x0501 true data).abortWork k 4 0x0501 := ⟨_, rfl⟩
  obtain ⟨hbeside, hirq⟩ := s.countOverexp_log (k := k) data 0x0501 true
  obtain ⟨l, hl⟩ : ∃ l, (s.countOverexp k).log k 4 0x0501 true data = l := ⟨_, rfl⟩
  rw [hl] at habort hbeside hirq
  have hstops := State.Stops.abortWork hk l 4 0x0501
  have hslice := hstops.sl_eq hk
  have hset : ((l.setSl k (l.sl k).aborted).semLeave k).sl k = (l.sl k).aborted := State.sl_setSl l k _ hk
  rw [hset, hbeside.sl, s.overexposed_sl hk] at hslice
  rw [habort]
  have hover : s.Overexposes k ((l.abortWork k 4 0x0501).sl k) (l.abortWork k 4 0x0501) := {
    slice := rfl
    others := fun j hj => by
      rw [hstops.sl_ne hj]
      exact (State.sl_setSl_ne _ k j _ hj.symm).trans ((hbeside.sl j).trans (s.overexposed_sl_ne hj))
    tick := hstops.tick.trans hbeside.tick
    irq := hstops.irq hirq
    cmds := hstops.cmds.trans hbeside.cmds
    chip := hstops.chip.trans hbeside.chip
    pending := hstops.pending.trans hbeside.pending }
  exact ⟨hover, hslice, fun f hf => State.abortWork_stopped hk rfl _ _ hf⟩

end counted

theorem Slice.Stopping.startAt {x y : Slice} (h : x.Stopping y) : y.startAt = x.startAt := by
  have heq := h.1
  unfold Slice.Stored at heq
  rw [heq]
  rfl

theorem State.Overexposes.mod {s u : State} {k : Nat} {y : Slice} (h : s.Overexposes k y u) (hk : k < 32) (f : Slice → Slice) :
    s.Overexposes k (f y) (u.mod k f) where
  slice := by rw [State.mod, State.sl_setSl _ _ _ hk, h.slice]
  others j hj := by rw [State.mod, State.sl_setSl_ne _ _ _ _ hj.symm, h.others j hj]
  tick := h.tick
  irq := h.irq
  cmds := h.cmds
  chip := h.chip
  pending := h.pending

namespace EdgeMissed
variable {s : State} {k : Nat} (h : EdgeMissed s k)
include h

/-- Where the edge is to be held, it is, and nothing else happens to the slice (R363). -/
theorem holds (hk : k < 32) (hhold : (s.setting 0x0106).testBit k = true) (edge : Nat) :
    s.Overexposes k ((s.sl k).heldAt edge) ((s.sliceOver k edge).afterOver k edge) := by
  have hover : s.sliceOver k edge = s.overHold k edge := by
    unfold State.sliceOver
    rw [h.noDrain]
    exact if_pos hhold
  have hheld := s.overHold_overexposes hk edge
  have hafter : (s.overHold k edge).afterOver k edge = s.overHold k edge := by
    unfold State.afterOver
    dsimp only
    rw [hheld.slice, if_pos (.inr rfl)]
  rw [hover, hafter]
  exact hheld

/-- Where it is not, the work is aborted, and the slice starts no frame while its units stop (R362). -/
theorem aborts (hk : k < 32) (hhold : (s.setting 0x0106).testBit k = false) (hany : (s.sl k).flight.any (·.run?.isSome) = true)
    (edge : Nat) : ∃ z, (s.sl k).overexposed.aborted.Stopping z ∧ (∀ f ∈ z.flight, f.Stopped) ∧
      s.Overexposes k { z with overNs := some s.now, overexp := true } ((s.sliceOver k edge).afterOver k edge) := by
  obtain ⟨habort, hstop, hall⟩ := s.overAbort_overexposes hk edge
  obtain ⟨z, hz⟩ : ∃ z, z = (s.overAbort k edge).sl k := ⟨_, rfl⟩
  rw [← hz] at habort hstop hall
  obtain ⟨hstate, -, -, -, -, -, -, -, -, hheld, -⟩ := hstop.keeps
  have hover : s.sliceOver k edge = (s.overAbort k edge).mod k fun x => { x with overNs := some s.now } := by
    unfold State.sliceOver
    rw [h.noDrain]
    dsimp only
    rw [hhold, h.noScrub]
    rfl
  have hnoted := habort.mod hk fun x => { x with overNs := some s.now }
  have hflight : z.flight.isEmpty = false := by
    obtain ⟨e, he, hrun⟩ := List.any_eq_true.1 hany
    have hne : z.flight.length ≠ 0 := by
      rw [hstop.2.1]
      exact List.length_pos_of_mem (List.mem_filter.2 ⟨he, hrun⟩) |>.ne'
    exact List.isEmpty_eq_false_iff.2 fun hnil => hne (by rw [hnil]; rfl)
  have hafter : (s.sliceOver k edge).afterOver k edge = (s.sliceOver k edge).mod k fun x => { x with overexp := true } := by
    unfold State.afterOver
    dsimp only
    rw [hover, hnoted.slice, if_neg, if_neg]
    · rw [hflight]; decide
    · rintro (hnot | hyes)
      · exact hnot (hstate.trans h.running)
      · exact absurd ((hheld.trans h.notHeld).symm.trans hyes) (by decide)
  refine ⟨z, hstop, hall, ?_⟩
  rw [hafter, hover]
  exact hnoted.mod hk fun x => { x with overexp := true }

/-- What the block edge makes of the slice and of the block. -/
theorem exec_edge {y : Slice} (hl : s.live = true) (hact : s.tick.active = true) (hext : s.setting 0x0102 ≠ 1) (hdue : s.tick.next ≤ s.now)
    (hover : s.Overexposes k y ((s.sliceOver k s.tick.next).afterOver k s.tick.next)) (hstart : y.startAt = none) :
    ∃ t, exec .blockTickEdge s = .next t ∧ t.sl k = y ∧ t.tick.overexp = sat16 s.tick.overexp 1 ∧ t.irq.status.getLsbD 4 = true := by
  obtain ⟨u, hu⟩ : ∃ u, (s.sliceOver k s.tick.next).afterOver k s.tick.next = u := ⟨_, rfl⟩
  rw [hu] at hover
  have hstarts (j : Nat) : (u.sl j).startAt = none := by
    by_cases hj : j = k
    · rw [hj, hover.slice, hstart]
    · rw [hover.others j hj, h.noStart j]
  have hedge := h.slicesEdge hu hstarts (hover.cmds.trans h.noCmds)
  have hlog := State.blockEdge_logged hedge ((congrArg Tick.pending hover.tick).trans h.noPeriod)
  refine ⟨s.blockEdge s.tick.next, ?_, ?_, ?_, ?_⟩
  · rw [exec_blockTickEdge_due hact hext hdue]
    exact act_logged hl hlog hover.pending hover.chip
  · rw [State.sl, hlog.slices]
    exact hover.slice
  · exact (congrArg Tick.overexp hlog.tick).trans (congrArg Tick.overexp hover.tick)
  · exact (State.Beside.of_logged hlog).2 4 hover.irq

end EdgeMissed

theorem overexposedFrames_holds : overexposedFrames := by
  intro s k hl hquiet hpresent hact hext hdue x hrun hundone hover hheld hdrain hscrub hany
  obtain ⟨hothers, hstart, hcmds, hperiod⟩ := quiet_parts k.isLt hquiet
  have hfault (j : Nat) : justFaulted s j = false := by
    by_cases hj : j = k.val
    · rw [justFaulted, hj, hrun]; rfl
    · exact (hothers j hj).2
  have h : EdgeMissed s k.val := {
    alone := fun j hj => (hothers j hj).1
    noStart := hstart, noFault := hfault, noCmds := hcmds, noPeriod := hperiod, running := hrun, undone := hundone, notOver := hover
    notHeld := hheld, noDrain := hdrain, noScrub := hscrub, present := hpresent }
  cases hhold : (s.setting 0x0106).testBit k.val with
  | true =>
    obtain ⟨t, ht, hslice, htick, hirq⟩ := h.exec_edge hl hact hext hdue (h.holds k.isLt hhold s.tick.next) (hstart k.val)
    refine ⟨t, ht, ?_⟩
    rw [hslice]
    exact ⟨hrun, rfl, htick, hirq, rfl, rfl, rfl, fun _ => rfl, fun hno => absurd hno (by decide)⟩
  | false =>
    obtain ⟨z, hstop, hall, habort⟩ := h.aborts k.isLt hhold hany s.tick.next
    obtain ⟨t, ht, hslice, htick, hirq⟩ := h.exec_edge hl hact hext hdue habort (hstop.startAt.trans (hstart k.val))
    obtain ⟨hstate, -, -, hseq, -, hbracket, -, -, -, -, hoverexps⟩ := hstop.keeps
    refine ⟨t, ht, ?_⟩
    rw [hslice]
    have hhalted : z.seq.halted = true := by rw [hseq]; rfl
    refine ⟨hstate.trans hrun, hoverexps, htick, hirq, by rw [hseq]; rfl, by rw [hseq]; rfl, hbracket, fun hyes => absurd hyes (by decide),
      fun _ => ⟨hhalted, ?_, fun f hf => hall f hf⟩⟩
    simp [Slice.canIssue, hhalted]

/-- Settles O19: a missed edge counts, and holds the slice's frame or aborts it; a held edge makes the next frame once the frame is
complete. -/
theorem edgesMissed : Obligations.EdgesMissed := ⟨overexposedFrames_holds, heldEdges_holds⟩

end Sys2Proof.Machine
end

section
/-! SUPPORT. How a running instruction leaves its unit, and where its completion record goes (R139, R149 to R151). -/

namespace Sys2Proof.Machine

/-! ### What a slice is once an instruction has left it (R71, R131, R139) -/

/-- The comparators after an instruction that completed has written its own (R139). -/
def Entry.resolves (e : Entry) (r : Running) (q : Seq) : Seq :=
  match e.cmpW with
  | some c => { q with cmp := q.cmp.set c (e.cmpResult r), cmpOpen := q.cmpOpen.set c false }
  | none => q

/-- A slice that an instruction has left. -/
def Slice.left (x : Slice) (e : Entry) (r : Running) : Slice :=
  let x := ({ x with flight := x.flight.filter fun y => y.key != e.key }.feedSlots r).raiseOthers e r.done
  match e.cmpW with
  | some c => if stoppedStatus r.status then x else x.setCmp c (e.cmpResult r)
  | none => x

theorem Slice.raiseOthers_eq (x : Slice) (e : Entry) (n : Nat) :
    ∃ l, x.raiseOthers e n = x.withFlight l ∧ ∀ y ∈ l, ∃ z ∈ x.flight, y.key = z.key := by
  unfold Slice.raiseOthers
  split
  · exact ⟨x.flight, rfl, fun y hy => ⟨y, hy, rfl⟩⟩
  · refine ⟨_, rfl, fun y hy => ?_⟩
    obtain ⟨z, hz, rfl⟩ := List.mem_map.1 hy
    refine ⟨z, hz, ?_⟩
    dsimp only
    split <;> rfl

/-- An instruction that was not stopped leaves the slice with its comparator resolved; the others stay in flight. -/
theorem Slice.left_eq (x : Slice) (e : Entry) {r : Running} (h : stoppedStatus r.status = false) :
    ∃ l slots, x.left e r = { x with flight := l, slots := slots, seq := e.resolves r x.seq } ∧ ∀ y ∈ l, y.key ≠ e.key := by
  obtain ⟨l, hraise, hkeys⟩ := ({ x with flight := x.flight.filter fun y => y.key != e.key }.feedSlots r).raiseOthers_eq e r.done
  refine ⟨l, ({ x with flight := x.flight.filter fun y => y.key != e.key }.feedSlots r).slots, ?_, fun y hy => ?_⟩
  · unfold Slice.left Entry.resolves
    rw [hraise]
    cases e.cmpW with
    | none => rfl
    | some c =>
      dsimp only
      rw [h, if_neg (by decide), Slice.setCmp_eq]
      rfl
  · obtain ⟨z, hz, hkey⟩ := hkeys y hy
    rw [hkey]
    exact bne_iff_ne.1 (List.mem_filter.1 hz).2

/-- An instruction alone that feeds no meter leaves its unit and resolves its comparator. -/
theorem Slice.left_alone (x : Slice) {e : Entry} {r : Running} (h : stoppedStatus r.status = false) (hfeeds : r.feeds = [])
    (hgroup : e.group = none) :
    x.left e r = { x with flight := x.flight.filter fun y => y.key != e.key, seq := e.resolves r x.seq } := by
  have hraise (y : Slice) (n : Nat) : y.raiseOthers e n = y := if_pos (by rw [hgroup]; rfl)
  have hfeed (y : Slice) : y.feedSlots r = y := by
    unfold Slice.feedSlots
    rw [hfeeds]
    rfl
  unfold Slice.left Entry.resolves
  rw [hraise, hfeed]
  cases e.cmpW with
  | none => rfl
  | some c =>
    dsimp only
    rw [h, if_neg (by decide), Slice.setCmp_eq]

/-! ### Retirement (R149) -/

/-- The last writes of an instruction, and its fade points. -/
def State.lastWrites (s : State) (k : Nat) (e : Entry) (r : Running) : State :=
  r.pend.fades.reverse.foldl (fun s i =>
    s.log k 6 Config.fadeItemCode.toNat false (objData i.ctx i.layer i.start i.stop))
    ((s.scatterLands k r.done r.pend.land).settle k r.done e r).2

/-- What an instruction has done once its read-modify-writes are done. -/
def State.lastResult (s : State) (k : Nat) (e : Entry) (r : Running) : Running :=
  ((s.scatterLands k r.done r.pend.land).settle k r.done e r).1

/-- The completion record of an instruction, where one is asked for or it was stopped. -/
def State.endRecord (s : State) (k : Nat) (e : Entry) (r : Running) : State :=
  if e.fields.crec.toNat = 1 ∨ e.fields.crec.toNat = 2 ∨ r.status ≠ 0 then
    let t := if e.fields.crec.toNat = 2 then s.fogTime r (r.countsAt r.done) else (0, s)
    t.2.writeRecord k (e.recInfo r.status r.done r.total r.fault (r.countsAt r.done) t.1 r.extra)
  else s

/-- The trace entry of an instruction. -/
def State.endTrace (s : State) (k : Nat) (e : Entry) (r : Running) : State :=
  if e.fields.trace && s.sheet.trace.getLsbD 0 then
    s.log k 2 1 false (instrData e.index e.routine e.op r.status r.done e.frame) true
  else s

/-- Retirement with each step named. -/
theorem State.retire_eq (s : State) (k : Nat) (e : Entry) (r : Running) : s.retire k e r =
    (((((s.lastWrites k e r).mod k (·.left e (s.lastResult k e r))).endRecord k e (s.lastResult k e r)).endTrace k e (s.lastResult k e r)).kvRelease k
      e.key) := rfl

theorem State.settle_result (s : State) (k n : Nat) (e : Entry) (r : Running) :
    (s.settle k n e r).1.cmpVal = r.cmpVal ∧ (s.settle k n e r).1.status = r.status := by
  unfold State.settle
  split
  · exact ⟨rfl, rfl⟩
  · split <;> exact ⟨rfl, rfl⟩

theorem State.lastResult_cmpResult (s : State) (k : Nat) (e : Entry) (r : Running) : e.cmpResult (s.lastResult k e r) = e.cmpResult r := by
  unfold Entry.cmpResult
  rw [State.lastResult, (State.settle_result ..).1]

theorem State.lastResult_status (s : State) (k : Nat) (e : Entry) (r : Running) : (s.lastResult k e r).status = r.status :=
  (State.settle_result ..).2

section retire
variable {k : Nat} (hk : k < 32)
include hk

theorem State.Stores.lastWrites (s : State) (e : Entry) (r : Running) : s.Stores k (s.lastWrites k e r) :=
  (Stores.settle hk (Stores.scatterLands hk (Stores.refl s k) _ _) _ _ _).beside
    (.foldl (fun t _ => (State.Beside.refl t).log ..) _ (.refl _))

theorem State.Stores.endRecord (s : State) (e : Entry) (r : Running) : s.Stores k (s.endRecord k e r) := by
  unfold State.endRecord
  split
  · refine Stores.writeRecord hk ?_ _
    split
    · unfold State.fogTime
      split
      · exact Stores.refl s k
      · split
        · exact Stores.refl s k
        · exact Stores.of_beside (State.Beside.refl s).draw
    · exact Stores.refl s k
  · exact Stores.refl s k

omit hk in
theorem State.Beside.endTrace (s : State) (k : Nat) (e : Entry) (r : Running) : s.Beside (s.endTrace k e r) :=
  .ite ((State.Beside.refl s).log ..) (.refl s)

/-- Apart from its stores, the slice is left as `Slice.left` says. -/
theorem State.Stores.retire (s : State) (e : Entry) (r : Running) :
    ((s.lastWrites k e r).setSl k (((s.lastWrites k e r).sl k).left e (s.lastResult k e r))).Stores k (s.retire k e r) := by
  rw [State.retire_eq]
  exact (Stores.endRecord hk _ e _).beside ((State.Beside.endTrace _ k e _).kvRelease k e.key)

end retire

/-! ### Completion (R126, R149) -/

theorem State.checkDrain_idle {s : State} {k : Nat} (h : (s.sl k).seq.wait = none) : s.checkDrain k = s := by
  unfold State.checkDrain
  simp only [h]

theorem State.takeLatch_idle {s : State} {k : Nat} {e : Entry} (h : e.op < 0xA0) : s.takeLatch k e = s := by
  unfold State.takeLatch
  have hop : e.op ≠ 0xA1 := by omega
  split
  · rfl
  · rw [if_pos (.inl hop)]

section complete
variable {s : State} {k u : Nat} {e : Entry} {r : Running} (hclock : s.clockStopped k = false)
  (hpick : (s.sl k).flight.find? (fun y => y.unit == u && y.run?.isSome) = some e) (hrun : e.run? = some r) (hop : e.op < 0xA0)
include hclock hpick hrun hop

theorem State.completeUnit_waits (hstatus : r.status = 0) (htag : s.tagged k e.key = true) : s.completeUnit k u = s := by
  have hfin : s.finished k e = false := by
    unfold State.finished
    simp [hrun, hstatus, htag, stoppedStatus]
  unfold State.completeUnit
  simp only [hclock, hpick, State.takeLatch_idle hop, hrun, hfin, Bool.false_eq_true, if_false, Bool.not_false, if_true]

theorem State.completeUnit_retires (htag : s.tagged k e.key = false) (hwaiters : s.kv.waiters = [])
    (hgood : ∀ w ∈ r.pend.rmws, w.bad s.ectl.poisoned = false) : s.completeUnit k u = (s.retire k e r).checkDrain k := by
  have h0 : ¬e.op = 0xA0 := by omega
  have h1 : ¬e.op = 0xA1 := by omega
  have hfin : s.finished k e = true := by
    unfold State.finished
    simp [htag, h0, h1, hwaiters]
  have hfailed : e.takeFailed r = none := by
    unfold Entry.takeFailed
    split
    · rw [if_neg fun h => h1 h.1]
    · rfl
  have hrmws : r.pend.rmws.find? (·.bad s.ectl.poisoned) = none := List.find?_eq_none.2 fun w hw => by simp [hgood w hw]
  unfold State.completeUnit
  simp only [hclock, hpick, State.takeLatch_idle hop, hrun, hfin, hfailed, hrmws, h0, Bool.false_eq_true, if_false, Bool.not_true,
    false_and]

end complete

theorem stoppedStatus_zero {r : Running} (h : r.status = 0) : stoppedStatus r.status = false := by rw [h]; rfl

/-! ### An instruction that leaves nothing to do (R139, R149) -/

theorem State.makeRoom_of_kept {s : State} (h : s.keptBytes ≤ trayRegion) (n : Nat) : s.makeRoom n = s := by
  cases n with
  | zero => rfl
  | succ n => exact if_pos h

/-- An instruction that pins nothing and waits for nothing releases nothing. -/
theorem State.kvRelease_idle {s : State} {k key : Nat} (hwaiters : s.kv.waiters = [])
    (hpins : ∀ q ∈ s.kv.ctxs, ∀ p ∈ q.pins, ¬(p.slice = k ∧ p.key = key))
    (hkept : s.keptBytes ≤ trayRegion) : s.kvRelease k key = s := by
  have hctx : ∀ q ∈ s.kv.ctxs, ({ q with pins := q.pins.filter fun p => !(p.slice == k && p.key == key) } : KvCtx) = q := by
    intro q hq
    have hfilter : (q.pins.filter fun p => !(p.slice == k && p.key == key)) = q.pins :=
      List.filter_eq_self.2 fun p hp => by simpa using not_and_or.1 (hpins q hq p hp)
    rw [hfilter]
  have hctxs : (s.kv.ctxs.map fun (c : KvCtx) => { c with pins := c.pins.filter fun p => !(p.slice == k && p.key == key) }) = s.kv.ctxs :=
    (List.map_congr_left hctx).trans (List.map_id _)
  unfold State.kvRelease
  rw [hctxs, hwaiters]
  have hsame : ({ s with kv := { s.kv with ctxs := s.kv.ctxs, waiters := [] } } : State) = s := by rw [← hwaiters]
  exact (congrArg State.trayRoom hsame).trans (State.makeRoom_of_kept hkept _)

section pendNone
variable {s : State} {k : Nat} {e : Entry} {r : Running} (hpend : r.pend = Pend.none)
include hpend

theorem State.lastResult_of_pend_none : s.lastResult k e r = r := by
  have hrmws : r.pend.rmws.isEmpty = true := by rw [hpend]; rfl
  exact congrArg Prod.fst (if_pos (c := r.pend.rmws.isEmpty = true) hrmws)

theorem State.lastWrites_of_pend_none : s.lastWrites k e r = s := by
  have hrmws : r.pend.rmws.isEmpty = true := by rw [hpend]; rfl
  unfold State.lastWrites State.settle
  rw [if_pos hrmws, hpend]
  rfl

theorem State.retire_of_pend_none : s.retire k e r =
    (((s.setSl k ((s.sl k).left e r)).endRecord k e r).endTrace k e r).kvRelease k e.key := by
  rw [State.retire_eq, State.lastWrites_of_pend_none hpend, State.lastResult_of_pend_none hpend]
  rfl

end pendNone

theorem State.endRecord_none {s : State} {k : Nat} {e : Entry} {r : Running} (hstatus : r.status = 0) (h1 : e.fields.crec ≠ 1)
    (h2 : e.fields.crec ≠ 2) : s.endRecord k e r = s := by
  refine if_neg ?_
  rintro (h | h | h)
  · exact h1 (BitVec.eq_of_toNat_eq h)
  · exact h2 (BitVec.eq_of_toNat_eq h)
  · exact h hstatus

theorem State.endTrace_none {s : State} {k : Nat} {e : Entry} {r : Running} (h : e.fields.trace = false) : s.endTrace k e r = s :=
  if_neg (by rw [h, Bool.false_and]; decide)

theorem unitCompletes_holds : unitCompletes := by
  intro s k u e r hl hclock x c hpick hrun hop
  refine ⟨fun htag hstatus => ?waits, fun htag hstatus hfeeds h1 h2 htrace hgroup hpend hkept hwait hwaiters hpins => ?leaves,
    fun htag hstatus hgood hwait hwaiters hpins => ?resolves⟩
  case waits => exact act_eq hl (State.completeUnit_waits hclock hpick hrun hop hstatus htag) rfl rfl
  case leaves =>
    have hleft := x.left_alone (stoppedStatus_zero hstatus) hfeeds hgroup
    have hretire : s.retire k.val e r = s.setSl k.val (x.left e r) := by
      rw [State.retire_of_pend_none hpend, State.endRecord_none hstatus h1 h2, State.endTrace_none htrace]
      exact State.kvRelease_idle hwaiters hpins hkept
    have hcomplete : s.completeUnit k.val u.val = s.setSl k.val (x.left e r) := by
      rw [State.completeUnit_retires hclock hpick hrun hop htag hwaiters (by rw [hpend]; exact fun w hw => absurd hw List.not_mem_nil),
        hretire]
      refine State.checkDrain_idle ?_
      rw [State.sl_setSl _ _ _ k.isLt, hleft]
      unfold Entry.resolves
      cases e.cmpW <;> exact hwait
    refine act_eq hl (hcomplete.trans ?_) rfl rfl
    rw [hleft]
    rfl
  case resolves =>
    obtain ⟨l, slots, hleft, hkeys⟩ := ((s.lastWrites k.val e r).sl k.val).left_eq e (r := s.lastResult k.val e r)
      (by rw [State.lastResult_status]; exact stoppedStatus_zero hstatus)
    have hwrites := State.Stores.lastWrites k.isLt s e r
    have hbefore := (hwrites.sl_eq k.isLt).keeps
    have hretire := State.Stores.retire k.isLt s e r
    have hslice := hretire.sl_eq k.isLt
    rw [State.sl_setSl _ _ _ k.isLt, hleft] at hslice
    obtain ⟨-, hseq, -⟩ := hslice.keeps
    have hseq' : ((s.retire k.val e r).sl k.val).seq = e.resolves r x.seq := by
      rw [hseq, hbefore.2.1]
      unfold Entry.resolves
      rw [State.lastResult_cmpResult]
    have hidle : (s.retire k.val e r).checkDrain k.val = s.retire k.val e r := by
      refine State.checkDrain_idle ?_
      rw [hseq']
      unfold Entry.resolves
      cases e.cmpW <;> exact hwait
    have hcomplete := (State.completeUnit_retires hclock hpick hrun hop htag hwaiters hgood).trans hidle
    refine ⟨_, act_eq hl hcomplete ?_ ?_, fun y hy => ?_, fun n hn => ?_, fun hn => ?_⟩
    · exact hretire.pending.trans hwrites.pending
    · exact hretire.chip.trans hwrites.chip
    · rw [hslice.flight] at hy
      exact hkeys y hy
    · rw [hseq']
      unfold Entry.resolves
      rw [hn]
      exact ⟨rfl, rfl⟩
    · rw [hseq']
      unfold Entry.resolves
      rw [hn]

/-! ### The completion record (R150, R151) -/

theorem length_leBytes : ∀ n v, (leBytes n v).length = n
  | 0, _ => rfl
  | n + 1, v => congrArg (· + 1) (length_leBytes n (v / 256))

theorem recordBytes_length (now : Nat) {r : RecInfo} (h : r.crec = 1) : (recordBytes now r).length = 128 := by
  have hfog : ¬r.crec = 2 := by omega
  unfold recordBytes
  simp [length_leBytes, hfog]

theorem Mem.readN_writeN : ∀ (l : List Byte) (m : Mem) (a : Nat), m.wf = true → (m.writeN a l).readN a l.length = l
  | [], _, _, _ => rfl
  | b :: bs, m, a, h => by
    have hfirst : (m.writeN a (b :: bs)).read a = b := Mem.read_writeN (b :: bs) m a 0 h (Nat.succ_pos _)
    exact congrArg₂ List.cons hfirst (Mem.readN_writeN bs (m.write a b) (a + 1) (Mem.write_wf m a b h))

/-- A byte of the slice store lies where its address says. -/
theorem locate_store {r : Run} (hfault : r.fault = none) (hsize : r.env.storeBytes = 25165824) (domain : Nat) (base : Int) {a : Nat}
    (ha : a < 25165824) : locate r (plainTensor false domain base) a .write 0 0 = (r, some (.store, a)) := by
  have hin : a < r.env.storeBytes := by rw [hsize]; exact ha
  unfold locate plainTensor
  simp [hfault, hin]

/-- Bytes written to the slice store, and what they replaced. -/
theorem writeVirtual_store (domain : Nat) (base : Int) : ∀ (l : List Byte) (r : Run) (a : Nat), r.fault = none →
    r.env.storeBytes = 25165824 → a + l.length ≤ 25165824 → (∀ w ∈ r.undo, ∀ p ∈ w.parts, p.space = .store) →
      ∃ undo, writeVirtual r (plainTensor false domain base) a l = { r with store := r.store.writeN a l, undo := undo } ∧
        ∀ w ∈ undo, ∀ p ∈ w.parts, p.space = .store
  | [], r, _, _, _, _, hundo => ⟨r.undo, rfl, hundo⟩
  | b :: bs, r, a, hfault, hsize, hfit, hundo => by
    rw [List.length_cons] at hfit
    obtain ⟨undo, hwrite, hall⟩ := writeVirtual_store domain base bs
      { r with store := r.store.write a b, undo := ⟨0, [⟨.store, a, 0xFF, r.store.read a⟩]⟩ :: r.undo } (a + 1) hfault hsize (by omega)
      (by
        intro w hw p hp
        rcases List.mem_cons.1 hw with rfl | hw
        · rw [List.mem_singleton.1 hp]
        · exact hundo w hw p hp)
    refine ⟨undo, ?_, hall⟩
    rw [writeVirtual, locate_store hfault hsize domain base (by omega)]
    exact hwrite

/-- What the write of a record does. -/
def State.recordRun (s : State) (k : Nat) (o : RecOut) : Run :=
  let c := (s.sl k).cring
  let addr := c.base + c.wr.toNat % max 1 c.entries * 128
  writeVirtual (s.waitingRun (s.mkRun k 0 false false)) (plainTensor c.virt c.domain addr) addr o.bytes

theorem State.putRun_ring {k : Nat} (hk : k < 32) (s : State) (r : Run) :
    ((s.putRun k r).sl k).cring = (s.sl k).cring ∧ ((s.putRun k r).sl k).store = r.store := by
  unfold State.putRun
  dsimp only
  rw [State.mod, State.sl_setSl _ _ _ hk]
  exact ⟨rfl, rfl⟩

/-- A record whose write ends at once is written, and WR counts up. -/
theorem State.sendRecords_one {s : State} {k : Nat} {o : RecOut} (hfault : (s.recordRun k o).fault = none)
    (hext : (((s.recordRun k o).undo.flatMap (·.parts)).filter fun p => p.space == .ext) = []) (hk : k < 32) :
    ((s.sendRecords k [o]).sl k).cring = { (s.sl k).cring with wr := (s.sl k).cring.wr + 1 } ∧
      ((s.sendRecords k [o]).sl k).store = (s.recordRun k o).store := by
  obtain ⟨run, hrun⟩ : ∃ run, run = s.recordRun k o := ⟨_, rfl⟩
  rw [← hrun] at hfault hext ⊢
  have hwaits : run.waits = false := by
    unfold Run.waits
    rw [hfault]
  have hsend : s.sendRecords k [o] = ((((s.putRun k run).emulWritten run.undo s.ectl.poisoned).mod k fun x =>
      { x with cring := { x.cring with wr := x.cring.wr + 1 } }).mod k fun x => { x with recOut := [] }) := by
    unfold State.recordRun at hrun
    dsimp only at hrun
    unfold State.sendRecords
    dsimp only
    rw [← hrun, hwaits, hfault]
    dsimp only
    rw [hext]
    rfl
  obtain ⟨hring, hstore⟩ := State.putRun_ring hk s run
  have hwritten := (State.Beside.emulWritten (.refl (s.putRun k run)) run.undo s.ectl.poisoned).sl k
  rw [hsend, State.mod, State.sl_setSl _ _ _ hk, State.mod, State.sl_setSl _ _ _ hk, hwritten, ← hring, ← hstore]
  exact ⟨rfl, rfl⟩

section record
variable {s : State} {k : Nat} (hk : k < 32) (hout : (s.sl k).recOut = [])
include hk hout

/-- A record that the ring has no room for is lost, and counts. -/
theorem State.writeRecord_full (info : RecInfo)
    (hfull : (s.sl k).cring.entries ≤ ((s.sl k).cring.wr - (s.sl k).cring.rd).toNat) :
    ((s.writeRecord k info).sl k).cring = { (s.sl k).cring with lost := sat16 (s.sl k).cring.lost 1 } ∧
      ((s.writeRecord k info).sl k).store = (s.sl k).store := by
  have hlost : s.writeRecord k info = s.recordLost k info.entryData := by
    unfold State.writeRecord
    dsimp only
    rw [if_pos (by rw [hout]; exact hfull)]
  have hlog (t : State) (data : List Byte) : (t.log k 2 4 false data).sl k = t.sl k := ((State.Beside.refl t).log ..).sl k
  rw [hlost, State.recordLost, hlog, State.mod, State.sl_setSl _ _ _ hk]
  exact ⟨rfl, rfl⟩

omit hk in
/-- Where the ring has room, the record goes to it. -/
theorem State.writeRecord_sends (info : RecInfo) (hroom : ((s.sl k).cring.wr - (s.sl k).cring.rd).toNat < (s.sl k).cring.entries) :
    s.writeRecord k info = s.sendRecords k [⟨recordBytes s.now info, info.entryData, []⟩] := by
  unfold State.writeRecord
  dsimp only
  rw [if_neg (by rw [hout]; exact Nat.not_le.2 hroom), hout]
  exact if_pos rfl

omit hk hout in
/-- A record of a ring in the slice store goes to the entry that WR names. -/
theorem State.recordRun_store {o : RecOut} (hlen : o.bytes.length = 128) (hvirt : (s.sl k).cring.virt = false)
    (hfit : (s.sl k).cring.base + (s.sl k).cring.entries * 128 ≤ 25165824) (hentries : 0 < (s.sl k).cring.entries) :
    (s.recordRun k o).fault = none ∧ (((s.recordRun k o).undo.flatMap (·.parts)).filter fun p => p.space == .ext) = [] ∧
      (s.recordRun k o).store = (s.sl k).store.writeN
        ((s.sl k).cring.base + (s.sl k).cring.wr.toNat % (s.sl k).cring.entries * 128) o.bytes := by
  obtain ⟨c, hc⟩ : ∃ c, (s.sl k).cring = c := ⟨_, rfl⟩
  obtain ⟨r, hr⟩ : ∃ r, s.waitingRun (s.mkRun k 0 false false) = r := ⟨_, rfl⟩
  have hclean : r.fault = none ∧ r.env.storeBytes = 25165824 ∧ r.undo = [] ∧ r.store = (s.sl k).store := by
    rw [← hr]
    exact ⟨rfl, rfl, rfl, rfl⟩
  obtain ⟨hfault, hsize, hundo, hsame⟩ := hclean
  rw [hc] at hvirt hfit hentries
  have hmax : max 1 c.entries = c.entries := by omega
  have hslot : c.wr.toNat % c.entries < c.entries := Nat.mod_lt _ hentries
  obtain ⟨undo, hwrite, hstore⟩ := writeVirtual_store c.domain (c.base + c.wr.toNat % c.entries * 128 : Nat) o.bytes r
    (c.base + c.wr.toNat % c.entries * 128) hfault hsize (by omega) (by rw [hundo]; exact fun w hw => absurd hw List.not_mem_nil)
  unfold State.recordRun
  dsimp only
  rw [hr, hc, hvirt, hmax, hwrite]
  refine ⟨hfault, List.filter_eq_nil_iff.2 fun p hp => ?_, by rw [← hsame]⟩
  obtain ⟨w, hw, hp⟩ := List.mem_flatMap.1 hp
  rw [hstore w hw p hp]
  decide

/-- A record of a ring in the slice store lies in its entry, and WR counts up. -/
theorem State.writeRecord_room {info : RecInfo} (hcrec : info.crec = 1) (hvirt : (s.sl k).cring.virt = false)
    (hfit : (s.sl k).cring.base + (s.sl k).cring.entries * 128 ≤ 25165824)
    (hroom : ((s.sl k).cring.wr - (s.sl k).cring.rd).toNat < (s.sl k).cring.entries) :
    ((s.writeRecord k info).sl k).cring = { (s.sl k).cring with wr := (s.sl k).cring.wr + 1 } ∧
      ((s.writeRecord k info).sl k).store = (s.sl k).store.writeN
        ((s.sl k).cring.base + (s.sl k).cring.wr.toNat % (s.sl k).cring.entries * 128) (recordBytes s.now info) := by
  obtain ⟨o, ho⟩ : ∃ o : RecOut, o = ⟨recordBytes s.now info, info.entryData, []⟩ := ⟨_, rfl⟩
  have hbytes : o.bytes = recordBytes s.now info := by rw [ho]
  obtain ⟨hfault, hext, hstore⟩ := State.recordRun_store (s := s) (k := k) (o := o)
    (by rw [hbytes]; exact recordBytes_length _ hcrec) hvirt hfit (Nat.zero_lt_of_lt hroom)
  obtain ⟨hring, hput⟩ := State.sendRecords_one hfault hext hk
  rw [State.writeRecord_sends hout info hroom, ← ho, ← hbytes]
  exact ⟨hring, hput.trans hstore⟩

end record

theorem State.checkDrain_ring {k : Nat} (hk : k < 32) (s : State) : ((s.checkDrain k).sl k).cring = (s.sl k).cring ∧
    ((s.checkDrain k).sl k).store = (s.sl k).store ∧ (s.checkDrain k).pending = s.pending ∧ (s.checkDrain k).chip = s.chip := by
  have hsame : (s.sl k).cring = (s.sl k).cring ∧ (s.sl k).store = (s.sl k).store ∧ s.pending = s.pending ∧ s.chip = s.chip :=
    ⟨rfl, rfl, rfl, rfl⟩
  unfold State.checkDrain
  dsimp only
  split
  · split
    · split
      · rw [State.mod, State.sl_setSl _ _ _ hk, Slice.endWait_eq]
        exact hsame
      · exact hsame
    · exact hsame
  · exact hsame

theorem completionRecords_holds : completionRecords := by
  intro s k u e r hl hclock x c hpick hrun hop hstatus htag hcrec hpend hout hwaiters hvirt hfit hwf
  obtain ⟨l, slots, hleft, -⟩ := x.left_eq e (stoppedStatus_zero hstatus)
  obtain ⟨z, hz⟩ : ∃ z, z = s.setSl k.val (x.left e r) := ⟨_, rfl⟩
  have hzsl : z.sl k.val = x.left e r := by rw [hz, State.sl_setSl _ _ _ k.isLt]
  have hring : (z.sl k.val).cring = x.cring ∧ (z.sl k.val).store = x.store ∧ (z.sl k.val).recOut = [] := by
    rw [hzsl, hleft]
    exact ⟨rfl, rfl, hout⟩
  obtain ⟨hzring, hzstore, hzout⟩ := hring
  have hrecord : z.endRecord k.val e r =
      z.writeRecord k.val (e.recInfo r.status r.done r.total r.fault (r.countsAt r.done) 0 r.extra) := by
    have hcode : e.fields.crec.toNat = 1 := congrArg BitVec.toNat hcrec
    have hnot : ¬e.fields.crec.toNat = 2 := by omega
    unfold State.endRecord
    rw [if_pos (.inl hcode), if_neg hnot]
  obtain ⟨w, hw⟩ : ∃ w, w = z.writeRecord k.val (e.recInfo r.status r.done r.total r.fault (r.countsAt r.done) 0 r.extra) := ⟨_, rfl⟩
  have hafter : w.Beside (s.retire k.val e r) := by
    rw [State.retire_of_pend_none hpend, ← hz, hrecord, ← hw]
    exact (State.Beside.endTrace w k.val e r).kvRelease k.val e.key
  have hstores : z.Stores k.val w := hw ▸ State.Stores.writeRecord k.isLt (.refl z k.val) _
  obtain ⟨hdring, hdstore, hdpending, hdchip⟩ := (s.retire k.val e r).checkDrain_ring k.isLt
  have hcomplete := State.completeUnit_retires hclock hpick hrun hop htag hwaiters (by rw [hpend]; exact fun w hw => absurd hw List.not_mem_nil)
  refine ⟨_, act_eq hl hcomplete ?_ ?_, fun hroom => ?_, fun hfull => ?_⟩
  · rw [hdpending, hafter.pending, hstores.pending, hz]
    rfl
  · rw [hdchip, hafter.chip, hstores.chip, hz]
    rfl
  · obtain ⟨hwring, hwstore⟩ := State.writeRecord_room (s := z) (info := e.recInfo r.status r.done r.total r.fault (r.countsAt r.done) 0 r.extra)
      k.isLt hzout (congrArg BitVec.toNat hcrec) (by rw [hzring]; exact hvirt) (by rw [hzring]; exact hfit) (by rw [hzring]; exact hroom)
    rw [← hw, hzring] at hwring
    rw [← hw, hzring, hzstore] at hwstore
    have hnow : z.now = s.now := by rw [hz]; rfl
    rw [hdring, hdstore, hafter.sl, hwring, hwstore, hnow]
    have hread := Mem.readN_writeN (recordBytes s.now (e.recInfo r.status r.done r.total r.fault (r.countsAt r.done) 0 r.extra)) x.store
      (x.cring.base + x.cring.wr.toNat % x.cring.entries * 128) hwf
    rw [recordBytes_length _ (congrArg BitVec.toNat hcrec)] at hread
    exact ⟨rfl, hread⟩
  · obtain ⟨hwring, hwstore⟩ := State.writeRecord_full (s := z) k.isLt hzout
      (e.recInfo r.status r.done r.total r.fault (r.countsAt r.done) 0 r.extra) (by rw [hzring]; exact hfull)
    rw [hdring, hdstore, hafter.sl, hw, hwring, hwstore, hzring, hzstore]
    exact ⟨rfl, rfl⟩

/-- Settles O14: a finished instruction retires; its record is written or lost as the ring has room. -/
theorem unitsComplete : Obligations.UnitsComplete := ⟨unitCompletes_holds, completionRecords_holds⟩

end Sys2Proof.Machine
end

section
/-! SUPPORT. What the counter and parameter instructions write at issue (R136, R137, R156, R157, R159, R499). -/

namespace Sys2Proof.Machine

/-! ### Registers of the brackets (R136) -/

theorem Slice.param_fin (x : Slice) (p : Fin 64) : x.param p.val = if x.bracket then x.brk1[p] else x.brk0[p] := by
  cases hb : x.bracket <;> simp [Slice.param, hb]

theorem Slice.paramIn_fin (x : Slice) (p : Fin 64) : x.paramIn p.val = if x.bracket then x.brk0[p] else x.brk1[p] := by
  cases hb : x.bracket <;> simp [Slice.paramIn, hb]

theorem Slice.setParamIn_fin (x : Slice) (p : Fin 64) (v : W64) : x.setParamIn p.val v =
    { x with brk0 := if x.bracket then x.brk0.set p v else x.brk0, brk1 := if x.bracket then x.brk1 else x.brk1.set p v } := by
  cases hb : x.bracket <;> simp [Slice.setParamIn, hb, setIfInBounds_eq_set _ _ _ p.isLt]

/-- The write of a register, with its time and its mark among those that the program has written (R136, R137). -/
theorem Slice.progParam_eq (x : Slice) (p : Fin 64) (v : W64) (now : Nat) : x.progParam p v now =
    { x with
      brk0 := if x.bracket then x.brk0.set p v else x.brk0
      brk1 := if x.bracket then x.brk1 else x.brk1.set p v
      progNs := (p.val, now) :: x.progNs.filter fun e => e.1 != p.val
      pwrites := if p.val ∈ x.pwrites then x.pwrites else p.val :: x.pwrites } := by
  simp only [Slice.progParam, Slice.setParamIn_fin, List.contains_iff_mem, noteWrite]

/-! ### Counters (R156, R157) -/

/-- CWRAP writes its counter in either case, with the value that it had where the counter is below the immediate. -/
theorem Slice.setCnt_wrap (x : Slice) (n : Fin 8) (imm : W32) :
    (if imm.ule x.seq.cnt[n] then x.setCnt n (x.seq.cnt[n] - imm) else x) =
      x.setCnt n (if imm.toNat ≤ x.seq.cnt[n].toNat then x.seq.cnt[n] - imm else x.seq.cnt[n]) := by
  simp only [BitVec.ule, decide_eq_true_eq]
  split
  · rfl
  · simp [Slice.setCnt]

/-- A scalar instruction that writes a counter. -/
theorem act_scalar_setCnt {s : State} {k : SliceId} (h : s.takes k.val = true) (op : Nat) (n : Fin 8) (v : Slice → W32) :
    act s (s.scalar k.val op [] [] fun x => x.setCnt n (v x)) = s.only k { (s.sl k.val).afterIssue with
      seq := { (s.sl k.val).afterIssue.seq with
        cnt := (s.sl k.val).seq.cnt.set n (v (s.sl k.val).afterIssue), pc := (s.sl k.val).seq.pc + 1 } } :=
  act_only h (State.scalar_eq h op [] [] _ rfl rfl rfl)

theorem counterInstructions_holds : counterInstructions := by
  intro s k h x y put
  refine ⟨fun n imm => act_scalar_setCnt h 0x10 n _, fun n imm => act_scalar_setCnt h 0x11 n _,
    fun n m => act_scalar_setCnt h 0x12 n _, fun n p => ?cldp, fun n imm => ?cwrap⟩
  case cldp =>
    refine (act_scalar_setCnt h 0x13 n _).trans ?_
    rw [Slice.param_fin]
    rfl
  case cwrap =>
    have hwrap : exec (.cwrap k n imm) s = act s (s.scalar k.val 0x1A [] [] fun x =>
        x.setCnt n (if imm.toNat ≤ x.seq.cnt[n].toNat then x.seq.cnt[n] - imm else x.seq.cnt[n])) :=
      congrArg (fun f => act s (s.scalar k.val 0x1A [] [] f)) (funext fun x => x.setCnt_wrap n imm)
    exact hwrap.trans (act_scalar_setCnt h 0x1A n _)

/-! ### Parameter registers (R136, R137, R159, R499) -/

/-- Where the next instruction's frame is whole, it is so still once other frames are written whole (R498, R499). -/
theorem State.fetchBad_cleanFrames {s : State} {k : Nat} (hf : s.fetchBad k = none) (j lo n : Nat) :
    (s.cleanFrames j lo n).fetchBad k = none := by
  have hbad (f : Nat) : (s.cleanFrames j lo n).frameBad k f = true → s.frameBad k f = true := by
    simpa [State.frameBad, State.cleanFrames] using fun hmem _ => hmem
  simp only [State.fetchBad, ite_eq_right_iff, reduceCtorEq, imp_false, Bool.and_eq_true, not_and] at hf ⊢
  exact fun hr hb => hf hr (hbad _ hb)

/-- A slice takes its next instruction as well with a frame of its brackets whole. -/
theorem State.takes_cleanInactive {s : State} {k : Nat} (h : s.takes k = true) (p : Nat) : (s.cleanInactive k p).takes k = true := by
  obtain ⟨hl, hcan, hf, hcut⟩ := State.takes_parts h
  have hf' : (s.cleanInactive k p).fetchBad k = none := State.fetchBad_cleanFrames hf _ _ _
  rw [State.takes, hf']
  simpa [and_assoc] using ⟨hl, hcan, hcut⟩

/-- Whichever value stays of two writes in one core cycle, the queue and what manufacture fixed stay as they were (R137). -/
theorem State.sameCycle_fixed (s : State) (k p : Nat) (host : W64) :
    (s.sameCycle k p host).pending = s.pending ∧ (s.sameCycle k p host).chip = s.chip := by
  unfold State.sameCycle
  dsimp only
  split
  · exact ⟨rfl, rfl⟩
  · exact ⟨(State.Logged.log ..).pending, (State.Logged.log ..).chip⟩

/-- An instruction that writes a register: the slice issues it on the state with the register's frame whole, and a write of the host that
can fall in the same core cycle follows. -/
theorem act_scalarParam {s : State} {k : SliceId} (h : s.takes k.val = true) (op : Nat) (p : Fin 64) (v : Slice → W64) :
    act s (s.scalarParam k.val op p v) =
      let x := s.sl k.val
      let t := (s.cleanInactive k.val p.val).setSl k.val (x.afterIssue.progParam p (v x.afterIssue) s.now).nextPc
      .next (if justWritten p.val s.now x.hostNs then t.sameCycle k.val p.val (x.paramIn p.val) else t) := by
  obtain ⟨hl, -⟩ := State.takes_parts h
  have hscalar := State.scalar_eq (State.takes_cleanInactive h p.val) op [] [] (fun x => x.progParam p (v x) s.now) rfl
    (by rw [Slice.progParam_eq]; rfl) (by rw [Slice.progParam_eq]; rfl)
  rw [State.scalarParam, State.gate_takes h]
  dsimp only
  rw [hscalar]
  split
  · exact act_live s _ hl (State.sameCycle_fixed ..).1 (State.sameCycle_fixed ..).2
  · exact act_live s _ hl rfl rfl

theorem parameterInstructions_holds : parameterInstructions := by
  intro s k h x y put
  have hput (op : Nat) (p : Fin 64) (v : Slice → W64) : act s (s.scalarParam k.val op p v) = put p (v y) := by
    refine (act_scalarParam h op p v).trans ?_
    dsimp only
    rw [Slice.progParam_eq, Slice.paramIn_fin]
    rfl
  refine ⟨fun p imm => hput 0x17 p _, fun p q imm => ?padd, fun p n => hput 0x19 p _⟩
  refine (hput 0x18 p _).trans ?_
  rw [Slice.param_fin]
  rfl

/-- Settles O5: each of the instructions is a scalar one with one write, of a counter or of a register of the inactive bracket. -/
theorem scalarRegisters : Obligations.ScalarRegisters := ⟨counterInstructions_holds, parameterInstructions_holds⟩

end Sys2Proof.Machine
end

section
/-! SUPPORT. What fills and empties the translation caches (R221 to R223, R227): queued invalidations, and walks that end. -/

namespace Sys2Proof.Machine
variable {s : State}

/-! ### Invalidations (R223, R227) -/

/-- A write that queues an invalidation is answered, and refused with 16 waiting. -/
theorem act_queueInval (hl : s.live = true) (hv : s.node.valid = true) (src : W12) (i : Inval) :
    act s (s.cpWrite src 0x6010 (s.queueInval i)) =
      if s.xl.invals.length < 16 then
        .next (answered { s with xl := { s.xl with invals := s.xl.invals ++ [i], issued := s.xl.issued + 1 } } src 0x6010 true)
      else .next (answered s src 0x6010 false) := by
  unfold State.queueInval
  by_cases hroom : s.xl.invals.length < 16
  · rw [if_pos hroom, if_neg (Nat.not_le.mpr hroom)]
    exact act_cpWrite_some hl hv rfl rfl
  · rw [if_neg hroom, if_pos (Nat.not_lt.mp hroom)]
    exact act_cpWrite_none hl hv

theorem State.invalidate_tlb (s : State) (i : Inval) :
    (s.invalidate i).xl.hub.tlb = s.xl.hub.tlb.filter fun e => !i.meets e.domain e.va (2 ^ e.log2) := rfl

theorem State.invalidate_micro (s : State) (i : Inval) (k : Nat) :
    ((s.invalidate i).sl k).micro = (s.sl k).micro.filter fun e => !i.meets e.domain e.va (2 ^ e.log2) := by
  let drop (x : Slice) : Slice := { x with micro := x.micro.filter fun e => !i.meets e.domain e.va (2 ^ e.log2) }
  have hsl : (s.invalidate i).sl k = drop (s.sl k) := by
    have hget : (s.slices.map drop)[k]? = (s.slices[k]?).map drop := Vector.getElem?_map ..
    exact (congrArg (·.getD Slice.reset) hget).trans (Option.getD_map drop Slice.reset _)
  rw [hsl]

/-- An entry stays in a cache exactly where the invalidation does not cover it. -/
theorem Inval.mem_kept_iff {i : Inval} {e : TlbEntry} {l : List TlbEntry} :
    (e ∈ l.filter fun e => !i.meets e.domain e.va (2 ^ e.log2)) ↔ e ∈ l ∧ i.meets e.domain e.va (2 ^ e.log2) = false := by
  rw [List.mem_filter, Bool.not_eq_true']

theorem State.invalDone_nil (h : s.xl.invals = []) : s.invalDone = s := by
  simp only [State.invalDone, h]

theorem State.invalDone_cons {i : Inval} {rest : List Inval} (h : s.xl.invals = i :: rest) :
    s.invalDone = if s.inFlight i then s
      else { s with xl := { s.xl with invals := rest, done := s.xl.done + 1 } }.invalidate i := by
  simp only [State.invalDone, h]

theorem invalidations_holds : invalidations := by
  intro s src dom pages hl hv queued
  refine ⟨act_queueInval hl hv src _, act_queueInval hl hv src _, act_queueInval hl hv src _, fun h => ?none,
    fun i rest h hfly => ?waits, fun i rest h hfly => ?ends⟩
  case none => exact act_eq hl (State.invalDone_nil h) rfl rfl
  case waits => exact act_eq hl ((State.invalDone_cons h).trans (if_pos hfly)) rfl rfl
  case ends =>
    let t : State := { s with xl := { s.xl with invals := rest, done := s.xl.done + 1 } }
    have hdone : s.invalDone = t.invalidate i := (State.invalDone_cons h).trans (if_neg (by rw [hfly]; exact Bool.false_ne_true))
    refine ⟨t.invalidate i, act_eq hl hdone rfl rfl, rfl, rfl, fun e he => ?_, fun e he => ?_, fun k e he => ?_, rfl⟩
    · rw [t.invalidate_tlb, Inval.mem_kept_iff]
      cases hm : i.meets e.domain e.va (2 ^ e.log2)
      · exact .inl ⟨he, rfl⟩
      · exact .inr rfl
    · rwa [t.invalidate_tlb, Inval.mem_kept_iff] at he
    · rwa [t.invalidate_micro, Inval.mem_kept_iff] at he

/-! ### What leaves a set for a new entry (R222, R560) -/

section keepFirst
variable (p : TlbEntry → Bool)

theorem keepFirst_sublist (n : Nat) (l : List TlbEntry) : (keepFirst p n l).Sublist l := by
  induction l generalizing n with
  | nil => exact .slnil
  | cons e l ih =>
    cases hp : p e
    · simpa [keepFirst, hp] using ih n
    · cases n with
      | zero => simpa [keepFirst, hp] using (ih 0).cons e
      | succ n => simpa [keepFirst, hp] using ih n

/-- Of the entries that satisfy the test, the first ones stay. -/
theorem filter_keepFirst (n : Nat) (l : List TlbEntry) : (keepFirst p n l).filter p = (l.filter p).take n := by
  induction l generalizing n with
  | nil => simp [keepFirst]
  | cons e l ih =>
    cases hp : p e
    · simp [keepFirst, hp, ih]
    · cases n <;> simp [keepFirst, hp, ih]

/-- Every entry that does not satisfy the test stays. -/
theorem filter_not_keepFirst (n : Nat) (l : List TlbEntry) :
    (keepFirst p n l).filter (fun e => !p e) = l.filter fun e => !p e := by
  induction l generalizing n with
  | nil => rfl
  | cons e l ih =>
    cases hp : p e
    · simp [keepFirst, hp, ih]
    · cases n <;> simp [keepFirst, hp, ih]

variable {p}

theorem mem_keepFirst_of_not {n : Nat} {l : List TlbEntry} {e : TlbEntry} (he : e ∈ l) (hp : p e = false) : e ∈ keepFirst p n l := by
  have hmem : e ∈ l.filter fun e => !p e := by simp [he, hp]
  rw [← filter_not_keepFirst p n l] at hmem
  exact List.mem_of_mem_filter hmem

/-- Where there are no more of them than may stay, all stay. -/
theorem keepFirst_eq_self {n : Nat} {l : List TlbEntry} (h : (l.filter p).length ≤ n) : keepFirst p n l = l := by
  refine (keepFirst_sublist p n l).eq_of_length ?_
  have hl := List.length_eq_length_filter_add (l := l) p
  have hk := List.length_eq_length_filter_add (l := keepFirst p n l) p
  rw [filter_keepFirst, filter_not_keepFirst, List.take_of_length_le h] at hk
  exact hk.trans hl.symm

end keepFirst

/-- An entry is in the set of the hub's TLB that another one goes to. -/
def TlbEntry.sameSet (t e : TlbEntry) : Bool :=
  Config.tlbSet e.domain e.va e.log2 % 8192 == Config.tlbSet t.domain t.va t.log2 % 8192

/-- A new entry goes before the others, of which seven of its set stay. -/
theorem hubInsert_eq (tlb : List TlbEntry) (t : TlbEntry) : hubInsert tlb t = t :: keepFirst t.sameSet 7 tlb := by
  have hset : hubInsert tlb t = if tlb.length < 8 then t :: tlb else t :: keepFirst t.sameSet 7 tlb := rfl
  rw [hset]
  split
  case isTrue h =>
    have hfew : (tlb.filter t.sameSet).length ≤ 7 := (List.length_filter_le _ _).trans (Nat.le_of_lt_succ h)
    rw [keepFirst_eq_self hfew]
  case isFalse => rfl

/-! ### Walks (R221, R222, R338) -/

/-- The walk of the hub for a page of a domain. -/
def Run.walk (r : Run) (dom va : Nat) (d : Domain) : WalkEnd × List WalkEntry :=
  walkFrom r.env r.emul r.ext dom va 4 (d.target == 1) d.root r.hub.walkc

section findLeaf
variable {r : Run} {dom va : Nat} {d : Domain} (hmicro : r.micro = []) (htlb : ∀ e ∈ r.hub.tlb, e.covers dom va = false)
  (htarget : d.target < 2)
include hmicro htlb htarget

theorem findLeaf_of_leaf {t : TlbEntry} (h : (r.walk dom va d).1 = .leaf t) :
    findLeaf r dom va d = (.leaf t, { r with
      misses := r.misses + 1, micro := [t]
      hub := { r.hub with tlb := hubInsert r.hub.tlb t, walkc := (r.walk dom va d).2, walks := r.hub.walks + 1 } }) := by
  have hfind : r.hub.tlb.find? (·.covers dom va) = none := List.find?_eq_none.mpr (by simpa using htlb)
  unfold Run.walk at h ⊢
  simp only [findLeaf, hmicro, List.find?_nil, hfind, if_pos htarget, h]
  rfl

theorem findLeaf_of_stop {reason level entry : Nat} (h : (r.walk dom va d).1 = .stop reason level entry) :
    (findLeaf r dom va d).1 = .stop reason level entry := by
  have hfind : r.hub.tlb.find? (·.covers dom va) = none := List.find?_eq_none.mpr (by simpa using htlb)
  unfold Run.walk at h
  simp only [findLeaf, hmicro, List.find?_nil, hfind, if_pos htarget, h]

end findLeaf

/-- The run of a walk that reads no granule in error. -/
def State.walkRun (s : State) : Run := { s.waitingRun (s.mkRun 0 0 false false) with micro := [] }

/-- The state with the hub's caches and its count of walks after a walk (R222, R227). -/
def State.withWalk (s : State) (hub : HubXl) : State :=
  { s with xl := { s.xl with
      hub := hub, walks := BitVec.ofNat 48 (satAdd (2 ^ 48 - 1) s.xl.walks.toNat (hub.walks - s.xl.hub.walks)) } }

theorem State.withWalk_one {hub : HubXl} (h : hub.walks = s.xl.hub.walks + 1) :
    s.withWalk hub = { s with xl := { s.xl with
      hub := hub, walks := BitVec.ofNat 48 (satAdd (2 ^ 48 - 1) s.xl.walks.toNat 1) } } := by
  rw [State.withWalk, h, Nat.add_sub_cancel_left]

section walkDone
variable {dom va : Nat} {d : Domain}

theorem State.walkDone_noDomain (h : s.xl.hub.domains.find? (fun d => d.id == dom && d.valid) = none) (errs : List SoftErr) :
    s.walkDone dom va errs = s := by
  simp only [State.walkDone, h]

variable (hd : s.xl.hub.domains.find? (fun d => d.id == dom && d.valid) = some d)
  (htlb : ∀ e ∈ s.xl.hub.tlb, e.covers dom va = false) (htarget : d.target < 2)
include hd htlb htarget

/-- A walk that meets a column in HALT waits (R338, R560). -/
theorem State.walkDone_halted {level entry : Nat} (h : (s.walkRun.walk dom va d).1 = .stop 0 level entry) :
    s.walkDone dom va [] = s := by
  have hstop : (findLeaf s.walkRun dom va d).1 = .stop 0 level entry := findLeaf_of_stop rfl htlb htarget h
  unfold State.walkDone
  rw [hd]
  dsimp only
  split
  case h_1 => rfl
  case h_2 heq => cases hstop.symm.trans heq
  case h_3 hne _ => exact absurd hstop (hne _ _)

/-- A walk that finds a leaf caches it, and what leaves the TLB for it is of its set (R221, R222, R560). -/
theorem State.walkDone_leaf {t : TlbEntry} (h : (s.walkRun.walk dom va d).1 = .leaf t) :
    s.walkDone dom va [] = s.withWalk { s.xl.hub with
      tlb := t :: keepFirst t.sameSet 7 s.xl.hub.tlb, walkc := (s.walkRun.walk dom va d).2, walks := s.xl.hub.walks + 1 } := by
  have hleaf := findLeaf_of_leaf rfl htlb htarget h
  rw [hubInsert_eq] at hleaf
  have hend := congrArg (·.1) hleaf
  have hhub := congrArg (·.2.hub) hleaf
  unfold State.walkDone
  rw [hd]
  dsimp only
  split
  case h_1 heq => cases hend.symm.trans heq
  case h_2 heq => cases hend.symm.trans heq
  case h_3 => exact congrArg s.withWalk hhub

end walkDone

theorem walksCache_holds : walksCache := by
  intro s dom va errs hl set
  refine ⟨fun h => act_eq hl (State.walkDone_noDomain h errs) rfl rfl, ?_⟩
  intro d hd htlb htarget walk
  refine ⟨fun level entry h => ?halted, fun leaf h => ?leaf⟩
  case halted => exact act_eq hl (State.walkDone_halted hd htlb htarget h) rfl rfl
  case leaf =>
    have hdone := (State.walkDone_leaf hd htlb htarget h).trans (State.withWalk_one rfl)
    refine ⟨keepFirst leaf.sameSet 7 s.xl.hub.tlb, act_eq hl hdone rfl rfl, fun e he => ?_, fun e he hne => ?_, fun hfew => ?_,
      fun _ => ?_⟩
    · exact (keepFirst_sublist leaf.sameSet 7 _).subset he
    · exact mem_keepFirst_of_not he (beq_eq_false_iff_ne.mpr hne)
    · exact keepFirst_eq_self (Nat.le_of_lt_succ hfew)
    · exact filter_keepFirst leaf.sameSet 7 _

/-- Settles O25: an invalidation filters every cache by what it covers, and a walk's leaf takes the place of the last of its set. -/
theorem translationCaches : Obligations.TranslationCaches := ⟨invalidations_holds, walksCache_holds⟩

end Sys2Proof.Machine
end

section
/-! SUPPORT. Entries that spill (R382): two steps of the KV page manager that write external memory only where entries of the contact sheet
spill to it. -/

namespace Sys2Proof.Machine

/-- The external memory after a command of a live block is that of the state which the command makes. -/
theorem act_ext {s t u : State} (hl : s.live = true) (h : act s t = .next u) : u.ext = t.ext := by
  unfold act at h; cases h; rw [State.commit, if_pos hl]

/-- A spill ring of 2^12 entries at address 0. -/
def spillSheet : Sheet := { Sheet.reset with spillOn := true, log2 := 12 }

/-! ### The fix of a page in the emulsion that lies partly in an uncorrectable granule -/

/-- A planar pool in the emulsion: a page has 8 planes of 1,024 bits. -/
def planarPool : KvPool := ⟨0, true, 1, .int8, true, 64, 1, 2, 0, 0, 1, 0, 1, [(0, 0)]⟩

/-- The group of page 0 of layer 0 of context 0. -/
def writingGroup : KvGroup := ⟨0, 0, 0, 0, 0, 0, [.writing]⟩

/-- A layer whose tray of 16 tokens is being fixed. -/
def fixingLayer : KvLayer := ⟨16, 16, .fixing, false, List.replicate 16 ⟨⟨List.replicate 64 5, []⟩, ⟨[], []⟩⟩, 0, 0, 0, []⟩

/-- The page to be written begins in an uncorrectable granule, which no write of single bits makes whole. -/
def poisonedFix : State := { State.reset with
  kv := { Kv.reset with
    ctxs := [⟨0, false, 1, 0, [0], 16, 0, 0, 0, false, false, [fixingLayer], []⟩]
    pools := [planarPool]
    groups := [writingGroup] }
  ectl := { EmulCtl.reset with poisoned := [0] }
  sheet := spillSheet }

theorem poisonedFix_fixEnds_ext : (poisonedFix.fixEnds 0 0).ext ≠ poisonedFix.ext := by decide +kernel

/-- Refutes O33: the fix of a page in the emulsion does change external memory where it meets an uncorrectable granule (R331) while entries
spill. -/
theorem not_traysAndFixes : ¬ Obligations.TraysAndFixes := by
  unfold Obligations.TraysAndFixes trayTransitionsEnd
  rintro ⟨htrays, -⟩
  have hlayer : poisonedFix.layer 0 0 = some fixingLayer := by decide +kernel
  have hgroup : poisonedFix.groupOf 0 0 fixingLayer.k = some (writingGroup, planarPool) := by decide +kernel
  obtain ⟨-, -, -, -, -, -, hfix⟩ := htrays poisonedFix 0 0 fixingLayer rfl hlayer
  obtain ⟨t, hexec, -, -, hemul, -⟩ :=
    hfix writingGroup planarPool rfl hgroup (by decide +kernel) rfl (by decide +kernel) (by decide +kernel)
  have ht : t.ext = (poisonedFix.fixEnds 0 0).ext := act_ext (t := poisonedFix.fixEnds 0 0) rfl hexec
  exact poisonedFix_fixEnds_ext (ht.symm.trans (hemul rfl))

/-! ### The close of a context whose notice is dropped -/

/-- A context that the retirement of a column closes; it has neither layers nor tables. -/
def retiredCtx : KvCtx := ⟨0, true, 1, 0, [], 0, 0, 0, 0, false, false, [], []⟩

/-- A channel on which 16 KV_FADE notices wait: one more is dropped, with an entry (R435). -/
def crowdedChan : Chan := { Chan.reset with held := List.replicate 16 (cplMsg 0 0x8001 0 2 0 0 []) }

/-- Firmware runs, a retirement closes the one open context, and the notice of its close finds no place. -/
def crowdedClose : State := { State.reset with
  node := { Node.reset with valid := true }
  fw := { Firmware.reset with running := true }
  kv := { Kv.reset with ctxs := [retiredCtx], closes := [0] }
  sheet := spillSheet
  mbox := Vector.replicate 16 crowdedChan }

theorem crowdedClose_closeFinish_ext : (crowdedClose.closeFinish 0).ext ≠ crowdedClose.ext := by decide +kernel

/-- Refutes O34: a close without page tables does change external memory where the notice of a retirement's close is dropped (R343, R435)
while entries spill. -/
theorem not_hintsAndCloses : ¬ Obligations.HintsAndCloses := by
  unfold Obligations.HintsAndCloses
  intro h
  have hopen : crowdedClose.kv.ctx 0 = some retiredCtx := by decide +kernel
  obtain ⟨-, hctx⟩ := h crowdedClose 0 0 rfl rfl
  obtain ⟨-, -, -, hclose⟩ := hctx retiredCtx hopen
  obtain ⟨t, hexec, -, -, -, -, -, -, hmem⟩ :=
    hclose rfl rfl rfl rfl rfl (by decide +kernel) rfl (by decide +kernel) (by decide +kernel)
  have ht : t.ext = (crowdedClose.closeFinish 0).ext := act_ext (t := crowdedClose.closeFinish 0) rfl hexec
  exact crowdedClose_closeFinish_ext (ht.symm.trans (hmem rfl).2)

end Sys2Proof.Machine
end

section
/-! SUPPORT. Mailbox commands that firmware serves (R430 to R434): what their checks come to, and how they end. -/

namespace Sys2Proof.Machine

/-! ### Fields of little-endian bytes (R10) -/

theorem ofLeBytes_lt : ∀ l : List Byte, ofLeBytes l < 256 ^ l.length
  | [] => Nat.one_pos
  | b :: bs => by
    have hb : b.toNat < 256 := b.isLt
    have hbs := ofLeBytes_lt bs
    simp only [ofLeBytes, List.length_cons, Nat.pow_succ]
    omega

theorem ofLeBytes_leBytes : ∀ {n v : Nat}, v < 256 ^ n → ofLeBytes (leBytes n v) = v
  | 0, v, h => by simp only [Nat.pow_zero, Nat.lt_one_iff] at h; simp [ofLeBytes, leBytes, h]
  | n + 1, v, h => by
    have hq : v / 256 < 256 ^ n := Nat.div_lt_of_lt_mul (by rw [Nat.pow_succ'] at h; exact h)
    simp only [leBytes, ofLeBytes, ofLeBytes_leBytes hq, BitVec.toNat_ofNat]
    omega

theorem fieldOf_lt (l : List Byte) (off n : Nat) : fieldOf l off n < 256 ^ n :=
  (ofLeBytes_lt _).trans_le (Nat.pow_le_pow_right (by decide) (List.length_take_le ..))

/-- A field that lies whole between what comes before it and what comes after. -/
theorem fieldOf_leBytes {l r : List Byte} {off n v : Nat} (hl : l.length = off) (hv : v < 256 ^ n) :
    fieldOf (l ++ (leBytes n v ++ r)) off n = v := by
  rw [fieldOf, List.drop_left' hl, List.take_left' (length_leBytes n v), ofLeBytes_leBytes hv]

/-! ### A command that is being served -/

/-- The parts of `serving`. -/
structure Serves (s : State) (ch : Channel) (m : Cmd) (code : Nat) : Prop where
  live : s.live = true
  fw : s.fw.running = true
  running : (s.chan ch.val).running = some m
  chan : m.chan = ch.val
  code : m.code = code
  late : m.late = false
  begun : m.begun = false
  conts : s.fw.conts = []
  others : ∀ c < 16, c = ch.val ∨ (s.chan c).running = none
  room : (s.chan ch.val).cpls.length < 64
  held : (s.chan ch.val).held = []

variable {s : State} {ch : Channel} {m : Cmd} {code : Nat}

theorem Serves.of_serving (h : serving s ch m code = true) : Serves s ch m code := by
  simp only [serving, Bool.and_eq_true, beq_iff_eq, Bool.not_eq_true', decide_eq_true_eq, List.isEmpty_iff, List.all_eq_true,
    List.mem_range, Bool.or_eq_true, Option.isNone_iff_eq_none] at h
  obtain ⟨⟨⟨⟨⟨⟨⟨⟨⟨⟨live, fw⟩, running⟩, chan⟩, code⟩, late⟩, begun⟩, conts⟩, others⟩, room⟩, held⟩ := h
  exact ⟨live, fw, running, chan, code, late, begun, conts, others, room, held⟩

namespace Serves
variable (h : Serves s ch m code)
include h

theorem cmdOf : s.cmdOf ch code = some m := by
  simp [State.cmdOf, h.fw, h.running, h.conts, h.chan, h.code, h.begun]

/-- No other command is in progress. -/
theorem eq_of_mem_cmds {x : Cmd} (hx : x ∈ s.cmds) : x = m := by
  simp only [State.cmds, h.conts, List.append_nil, List.mem_filterMap, List.mem_range] at hx
  obtain ⟨c, hc, hrun⟩ := hx
  rcases h.others c hc with rfl | hnone
  · exact Option.some.inj (hrun.symm.trans h.running)
  · rw [hnone] at hrun; cases hrun

/-- So no object is held by another command (R434). -/
theorem busy (n : CmdNeed) : s.busy n m = n.limit m := by
  have hfree : s.busyObj m (n.objs m) = none := by
    simp only [State.busyObj, List.find?_eq_none, State.heldByOther, List.any_eq_true, Bool.and_eq_true, bne_iff_ne]
    rintro o - ⟨x, hx, hne, -⟩
    exact hne (h.eq_of_mem_cmds hx)
  rw [State.busy, hfree]; rfl

end Serves

/-! ### The checks of a command (R430, R562) -/

theorem firstBad_of_clean {fields : List (Nat × Nat)} (h : clean m fields = true) : firstBad m.msg fields = none := by
  simp only [clean, covered, List.all_eq_true, Bool.or_eq_true, beq_iff_eq] at h
  simp only [firstBad, List.find?_eq_none, Bool.and_eq_true, Bool.not_eq_true', bne_iff_ne]
  rintro i hi ⟨hcov, hne⟩
  rcases h i hi with hc | hz
  · rw [hcov] at hc; cases hc
  · exact hne hz

/-- A command passes its checks where none of their conditions holds. -/
theorem checks_eq_none : ∀ {l : List (Bool × Ends)}, (∀ c ∈ l, c.1 = false) → checks l = none
  | [], _ => rfl
  | c :: l, h => by
    have hc : ¬c.1 = true := by rw [h c (.head l)]; decide
    exact (if_neg hc).trans (checks_eq_none fun d hd => h d (.tail c hd))

/-- The first check whose condition holds says how a command ends. -/
theorem checks_append_eq_some : ∀ {l : List (Bool × Ends)} (e : Ends) (r : List (Bool × Ends)), (∀ c ∈ l, c.1 = false) →
    checks (l ++ (true, e) :: r) = some e
  | [], _, _, _ => rfl
  | c :: l, e, r, h => by
    have hc : ¬c.1 = true := by rw [h c (.head l)]; decide
    exact (if_neg hc).trans (checks_append_eq_some e r fun d hd => h d (.tail c hd))

section refused
variable (h : Serves s ch m code) {n : CmdNeed} (hclean : clean m n.defs = true)
include h hclean

theorem Serves.refused : s.refused n m = (n.pre m).or (n.limit m) := by
  simp [State.refused, CmdNeed.fields, firstBad_of_clean hclean, h.busy]

theorem Serves.command_stops {e : Ends} (hpre : n.pre m = some e) (f : Cmd → Ends × State) :
    s.command ch code n f = s.finish m e := by
  simp only [State.command, h.cmdOf, h.refused hclean, hpre, Option.some_or]

theorem Serves.command_runs (hpre : n.pre m = none) (hlimit : n.limit m = none) (f : Cmd → Ends × State) :
    s.command ch code n f = (f m).2.finish m (f m).1 := by
  simp only [State.command, h.cmdOf, h.refused hclean, hpre, hlimit, Option.or_none]

theorem Serves.commandGo_stops {e : Ends} (hpre : n.pre m = some e) (f : Cmd → (Ends × State) ⊕ (Cmd × State)) :
    s.commandGo ch code n f = s.finish m e := by
  simp only [State.commandGo, h.cmdOf, h.refused hclean, hpre, Option.some_or]

theorem Serves.commandGo_ends (hpre : n.pre m = none) (hlimit : n.limit m = none) {f : Cmd → (Ends × State) ⊕ (Cmd × State)}
    {x : Ends × State} (hf : f m = .inl x) : s.commandGo ch code n f = x.2.finish m x.1 := by
  simp only [State.commandGo, h.cmdOf, h.refused hclean, hpre, hlimit, hf, Option.or_none]

theorem Serves.commandGo_goes (hpre : n.pre m = none) (hlimit : n.limit m = none) {f : Cmd → (Ends × State) ⊕ (Cmd × State)}
    {x : Cmd × State} (hf : f m = .inr x) : s.commandGo ch code n f =
      x.2.updCmd m fun _ => { x.1 with begun := true, objs := (n.objs m).filter (· != .library) } := by
  simp only [State.commandGo, h.cmdOf, h.refused hclean, hpre, hlimit, hf, Option.or_none]

end refused

/-! ### The end of a command (R431, R433) -/

theorem chan_congr {s t : State} (h : t.mbox = s.mbox) (c : Nat) : t.chan c = s.chan c := by rw [State.chan, State.chan, h]

/-- A command that ends where its effect has left the mailbox alone. -/
theorem Serves.finish (h : Serves s ch m code) {t : State} (hm : t.mbox = s.mbox) (e : Ends) :
    t.finish m e = ended t ch m e.status e.a e.b e.res := by
  have hfree : ((t.modChan ch.val fun x => { x with running := none }).chan ch.val).cpls.length < 64 ∧
      ((t.modChan ch.val fun x => { x with running := none }).chan ch.val).held.isEmpty = true := by
    rw [State.chan_modChan _ _ _ ch.isLt, chan_congr hm]
    exact ⟨h.room, by rw [h.held]; rfl⟩
  simp only [State.finish, State.endCmd, h.late, Bool.false_eq_true, if_false, h.chan, State.postCpl, if_pos hfree]
  rfl

/-- A command that goes on is found changed on its channel. -/
theorem Serves.updCmd (h : Serves s ch m code) (t : State) (f : Cmd → Cmd) :
    t.updCmd m f = t.modChan ch.val fun x => { x with running := some (f m) } := by
  simp only [State.updCmd, h.late, h.chan, Bool.false_eq_true, if_false]

section act
variable (h : Serves s ch m code) {n : CmdNeed} (hclean : clean m n.defs = true)
include h hclean

/-- The answer of a command that fails its checks. -/
theorem Serves.act_stops {status a b : Nat} {res : List Byte} (hpre : n.pre m = some ⟨status, a, b, res⟩) (f : Cmd → Ends × State) :
    act s (s.command ch code n f) = .next (ended s ch m status a b res) :=
  act_eq h.live ((h.command_stops hclean hpre f).trans (h.finish rfl _)) rfl rfl

/-- The answer of a command whose effect leaves the mailbox alone. -/
theorem Serves.act_runs (hpre : n.pre m = none) (hlimit : n.limit m = none) {f : Cmd → Ends × State} {status a b : Nat}
    {res : List Byte} {t : State} (hf : f m = (⟨status, a, b, res⟩, t)) (hm : t.mbox = s.mbox) (hp : t.pending = s.pending)
    (hc : t.chip = s.chip) : act s (s.command ch code n f) = .next (ended t ch m status a b res) :=
  act_eq h.live (by rw [h.command_runs hclean hpre hlimit, hf]; exact h.finish hm _) hp hc

end act

theorem posted_chan (s : State) (ch : Channel) (msg : List Byte) : (posted s ch.val msg).chan ch.val =
    { s.chan ch.val with
      cpls := (s.chan ch.val).cpls ++ [leBytes 8 s.now ++ msg.drop 8], cplWr := (s.chan ch.val).cplWr + 1 } := by
  simp [posted, State.chan, ch.isLt]

/-- What of a completion follows its status. -/
def cplRest (a b : Nat) (res : List Byte) : List Byte :=
  leBytes 1 0 ++ leBytes 1 0 ++ leBytes 2 a ++ leBytes 4 b ++ (res ++ List.replicate 40 0).take 40

theorem cplMsg_drop (seq cmd status a b : Nat) (res : List Byte) : (cplMsg seq cmd status 0 a b res).drop 8 =
    leBytes 4 seq ++ (leBytes 2 cmd ++ (leBytes 2 status ++ cplRest a b res)) := by
  simp [cplMsg, cplRest, length_leBytes]

/-- The completion posted answers the command, with its status (R431). -/
theorem completed_ended (s : State) (ch : Channel) (m : Cmd) {status : Nat} (hstatus : status < 65536) (a b : Nat) (res : List Byte) :
    completed (ended s ch m status a b res) ch m status = true := by
  have hseq := fieldOf_leBytes (n := 4) (r := leBytes 2 m.code ++ (leBytes 2 status ++ cplRest a b res)) (length_leBytes 8 s.now)
    (fieldOf_lt m.msg 4 4)
  have hcode := fieldOf_leBytes (l := leBytes 8 s.now ++ leBytes 4 (m.f 4 4)) (off := 12) (n := 2) (v := m.code)
    (r := leBytes 2 status ++ cplRest a b res) (by simp [length_leBytes]) (fieldOf_lt m.msg 0 2)
  have hst := fieldOf_leBytes (l := leBytes 8 s.now ++ leBytes 4 (m.f 4 4) ++ leBytes 2 m.code) (off := 14) (n := 2)
    (r := cplRest a b res) (by simp [length_leBytes]) hstatus
  simp only [List.append_assoc] at hcode hst
  have hend : (ended s ch m status a b res).chan ch.val = { s.chan ch.val with
      running := none
      cpls := (s.chan ch.val).cpls ++
        [leBytes 8 s.now ++ (leBytes 4 (m.f 4 4) ++ (leBytes 2 m.code ++ (leBytes 2 status ++ cplRest a b res)))]
      cplWr := (s.chan ch.val).cplWr + 1 } := by
    rw [ended, posted_chan, State.chan_modChan _ _ _ ch.isLt, cplMsg_drop]; rfl
  simp only [completed, hend, List.getLast?_concat, Option.isNone_none, Bool.true_and, Bool.and_eq_true, beq_iff_eq]
  exact ⟨⟨hseq, hcode⟩, hst⟩

end Sys2Proof.Machine
end

section
/-! SUPPORT. The mailbox commands that only report (R296, R382, R439, R449 to R451, R454, R531). -/

namespace Sys2Proof.Machine

theorem bufBad_eq_false {m : Cmd} {off len : Nat} (h : decide (m.f off 8 % 64 = 0 ∧ m.f off 8 + len ≤ 2 ^ 52) = true) :
    bufBad m off len = false := by
  obtain ⟨halign, hend⟩ := of_decide_eq_true h
  exact decide_eq_false (not_or.mpr ⟨not_not.mpr halign, Nat.not_lt.mpr hend⟩)

variable {s : State} {ch : Channel} {m : Cmd}

/-- A command that only reports ends OK with its results. -/
theorem Serves.act_report {code : Nat} {fields : List (Nat × Nat)} (h : Serves s ch m code) (hclean : clean m fields = true)
    (res : Cmd → List Byte) : act s (s.report ch code fields res) = .next (ended s ch m 0 0 0 (res m)) :=
  h.act_runs (n := { defs := fields }) hclean rfl rfl rfl rfl rfl rfl

/-! ### GET_SETTING (R450) -/

section getSetting
variable (h : Serves s ch m 0x0C) (hclean : clean m [(16, 2), (18, 1)] = true)
include h hclean

theorem exec_getSetting_missing (hinfo : settingInfo s.chip.model (m.f 16 2) = none) :
    exec (.getSetting ch) s = .next (ended s ch m 6 (m.f 16 2) 0 []) :=
  h.act_stops (n := s.getNeed) hclean (if_pos (by rw [hinfo]; rfl)) _

theorem exec_getSetting_badKind {i : SettingInfo} (hinfo : settingInfo s.chip.model (m.f 16 2) = some i) (hkind : 2 < m.f 18 1) :
    exec (.getSetting ch) s = .next (ended s ch m 2 18 0 []) :=
  h.act_stops (n := s.getNeed) hclean (by simp only [State.getNeed, checks, hinfo, hkind]; rfl) _

theorem exec_getSetting_ok {i : SettingInfo} (hinfo : settingInfo s.chip.model (m.f 16 2) = some i) (hkind : m.f 18 1 ≤ 2)
    (hstored : m.f 18 1 = 1 → s.fw.state ≠ .limited) : exec (.getSetting ch) s =
      .next (ended s ch m 0 0 0 (s.getSetting m i).1.res) := by
  have hget : s.getSetting m i = (⟨0, 0, 0, (s.getSetting m i).1.res⟩, s) := by
    have hno : ¬(m.f 18 1 = 1 ∧ s.fw.state = .limited) := fun ⟨h1, h2⟩ => hstored h1 h2
    simp only [State.getSetting, if_neg hno]
  exact h.act_runs (n := s.getNeed) hclean (by simp [State.getNeed, checks, hinfo, hkind]) rfl (by rw [hinfo]; exact hget) rfl rfl rfl

end getSetting

/-- The results of GET_SETTING: the value asked for, the range, the default, and what the setting is. -/
theorem State.getSetting_res (s : State) (m : Cmd) (i : SettingInfo) (hkind : m.f 18 1 ≤ 2)
    (hstored : m.f 18 1 = 1 → s.fw.state ≠ .limited) : (s.getSetting m i).1.res =
      (if m.f 18 1 = 0 then leBytes 8 (((s.settings.find? fun (p : Nat × W64) => p.1 == i.id).map Prod.snd).getD 0).toNat
        else if m.f 18 1 = 1 then leBytes 8 ((s.storedOf i.id).getD (BitVec.ofInt 64 i.dflt)).toNat
        else leBytes 8 (BitVec.ofInt 64 i.dflt).toNat) ++
      leBytes 8 (BitVec.ofInt 64 i.lo).toNat ++ leBytes 8 (BitVec.ofInt 64 i.hi).toNat ++ leBytes 8 (BitVec.ofInt 64 i.dflt).toNat ++
      leBytes 2 1 ++ leBytes 1 ((if (s.storedOf i.id).isSome then 1 else 0) + (if i.signed then 2 else 0)) := by
  have hno : ¬(m.f 18 1 = 1 ∧ s.fw.state = .limited) := fun ⟨h1, h2⟩ => hstored h1 h2
  unfold State.getSetting
  rw [if_neg hno]
  rcases (by omega : m.f 18 1 = 0 ∨ m.f 18 1 = 1 ∨ m.f 18 1 = 2) with h0 | h1 | h2
  · rw [h0]; rfl
  · rw [h1]; rfl
  · rw [h2]; rfl

/-! ### KV_SEQ_QUERY (R296, R449) -/

theorem exec_kvSeqQuery_missing (h : Serves s ch m 0x10) (hclean : clean m [(16, 5), (24, 14)] = true)
    (hctx : s.kv.ctx (m.f 16 2) = none) : exec (.kvSeqQuery ch) s = .next (ended s ch m 6 (m.f 16 2) 0 []) :=
  h.act_stops (n := s.queryNeed) hclean (if_pos (by simp only [hctx]; rfl)) _

theorem exec_kvSeqQuery_ok (h : Serves s ch m 0x10) (hclean : clean m [(16, 5), (24, 14)] = true) {x : KvCtx}
    (hctx : s.kv.ctx (m.f 16 2) = some x) (hlayer : m.f 18 2 < x.layers.length)
    (hkind : m.f 20 1 = 0 ∨ (m.f 20 1 = 1 ∧ 1 ≤ m.f 36 2 ∧ m.f 36 2 ≤ 4095)) (hbuf : bufBad m 24 m.queryBytes = false) :
    exec (.kvSeqQuery ch) s = .next (ended (s.putBuffer (m.f 24 8) (s.queryOut m)) ch m 0 0 0 (leBytes 4 m.queryBytes)) := by
  have hpre : s.queryPre m = none := by
    have hkind1 : ¬1 < m.f 20 1 := by omega
    have hcount : (m.f 20 1 == 1 && (m.f 36 2 == 0 || decide (4095 < m.f 36 2))) = false := by
      rcases hkind with h0 | ⟨-, hlo, hhi⟩
      · rw [h0]; rfl
      · simp [Nat.ne_of_gt hlo, Nat.not_lt.mpr hhi]
    exact checks_eq_none (by simp [State.noContext, hctx, hlayer, hkind1, hbuf, hcount])
  exact h.act_runs (n := s.queryNeed) hclean hpre rfl rfl rfl rfl rfl

/-! ### READ_CONTACT_SHEET (R382, R451) -/

theorem sheetFields_eq_none (hflag : m.f 20 1 ≤ 1) (hlo : 1 ≤ m.f 16 4) (hhi : m.f 16 4 ≤ 32768)
    (hbuf : bufBad m 24 (32 * m.f 16 4) = false) : sheetFields m = none := by
  exact checks_eq_none (by simp [extraBits, hbuf]; omega)

theorem State.readSheetCmd_spills (hs : s.sheet.spillOn = true) : s.readSheetCmd m = (⟨5, 0, 1, []⟩, s) := if_pos hs

theorem State.readSheetCmd_copies (hs : s.sheet.spillOn = false) : s.readSheetCmd m =
    (⟨0, 0, 0, leBytes 4 s.sheet.first.toNat ++ leBytes 4 (s.sheetOut m).length⟩,
      if (m.f 20 1).testBit 0 then
        { s.putBuffer (m.f 24 8) (s.sheetOut m).flatten with
          sheet := { s.sheet with rd := s.sheet.first + BitVec.ofNat 32 (s.sheetOut m).length } }
      else s.putBuffer (m.f 24 8) (s.sheetOut m).flatten) :=
  if_neg (by rw [hs]; decide)

/-- A flag of one bit. -/
theorem testBit_zero_of_le_one {n : Nat} (h : n ≤ 1) : n.testBit 0 = decide (n = 1) := by
  rcases Nat.le_one_iff_eq_zero_or_eq_one.mp h with rfl | rfl <;> rfl

/-! ### ATTEST (R454, R531) -/

theorem State.spdmReply_error {req : List Byte} {e : Nat × Nat} (h : s.spdmError req = some e) :
    s.spdmReply req = [0x12, 0x7F, BitVec.ofNat 8 e.1, BitVec.ofNat 8 e.2] := by
  rw [State.spdmReply, h]; rfl

theorem State.spdmError_lost {req : List Byte} (hlost : s.sec.resync = true) (hcode : spdmCode req ≠ 0x84) :
    s.spdmError req = some (0x43, 0) := by
  simp only [State.spdmError, if_neg hcode, hlost, if_true]

theorem spdmOrder_eq_none {c : Nat} (h : c ∉ [0xE1, 0xE3, 0x81, 0x82, 0x83, 0xE0]) : spdmOrder c = none := by
  unfold spdmOrder
  split
  case h_7 => rfl
  all_goals exact absurd (by decide) h

theorem State.spdmError_unsupported {req : List Byte} (hkept : s.sec.resync = false)
    (hcode : spdmCode req ∉ [0x84, 0xE1, 0xE3, 0x81, 0x82, 0x83, 0xE0]) : s.spdmError req = some (0x07, spdmCode req) := by
  obtain ⟨hversion, horder⟩ := not_or.mp (List.mem_cons.not.mp hcode)
  simp only [State.spdmError, if_neg hversion, hkept, Bool.false_eq_true, if_false, spdmOrder_eq_none horder]

/-! ### The statement -/

/-- Settles O49: each command passes its checks or fails the first one, and its effect is its report. -/
theorem mailboxReports : Obligations.MailboxReports := by
  unfold Obligations.MailboxReports
  intro s ch m i x end_ w buf fill
  refine ⟨fun h hc => (Serves.of_serving h).act_report hc _, fun h hc => (Serves.of_serving h).act_report hc _,
    fun h hc => (Serves.of_serving h).act_report hc _, fun h hc => ?getSetting, fun h hc => ?query, fun h hc hflag hlo hhi hbuf => ?sheet,
    fun h hc => ?cert, fun h hc hreq hmin hmax hrsp => ?attest⟩ <;> replace h := Serves.of_serving h
  case getSetting =>
    refine ⟨fun hi => exec_getSetting_missing h hc hi, fun hi hk => exec_getSetting_badKind h hc hi hk, fun hi hk hst => ?_⟩
    rw [exec_getSetting_ok h hc hi hk hst, s.getSetting_res m i hk hst]
  case query =>
    exact ⟨exec_kvSeqQuery_missing h hc, fun hx hl hk hbuf => exec_kvSeqQuery_ok h hc hx hl hk (bufBad_eq_false hbuf)⟩
  case sheet =>
    have hpre := sheetFields_eq_none hflag hlo hhi (bufBad_eq_false hbuf)
    refine ⟨fun hs => h.act_runs (n := sheetNeed) hc hpre rfl (State.readSheetCmd_spills hs) rfl rfl rfl,
      fun hs => h.act_runs (n := sheetNeed) hc hpre rfl ((State.readSheetCmd_copies hs).trans ?_) ?_ ?_ ?_⟩
    · simp only [testBit_zero_of_le_one hflag, decide_eq_true_eq]; rfl
    all_goals split <;> rfl
  case cert =>
    refine ⟨fun hn => h.act_stops (n := certNeed) hc (if_pos (decide_eq_true hn)) _,
      fun hn hbuf => ?_⟩
    have hpre : certFields m = none := checks_eq_none (by simp [hn, bufBad_eq_false hbuf])
    dsimp only
    split
    case isTrue hlen => exact h.act_runs (n := certNeed) hc hpre rfl (if_pos hlen) rfl rfl rfl
    case isFalse hlen => exact h.act_runs (n := certNeed) hc hpre rfl (if_neg hlen) rfl rfl rfl
  case attest =>
    have hpre : attestFields m = none := 
      checks_eq_none (by simp [bufBad_eq_false hreq, bufBad_eq_false hrsp, hmin, hmax])
    refine ⟨fun hlost hcode => State.spdmReply_error (State.spdmError_lost hlost hcode),
      fun hkept hcode => State.spdmReply_error (State.spdmError_unsupported hkept hcode), ?_⟩
    split
    case isTrue hlen => exact h.act_runs (n := attestNeed) hc hpre rfl (if_pos hlen) rfl rfl rfl
    case isFalse hlen => exact h.act_runs (n := attestNeed) hc hpre rfl (if_neg hlen) rfl rfl rfl

end Sys2Proof.Machine
end

section
/-! SUPPORT. The KV page manager's records (R268 to R303): contexts replaced, tables written, free levels watched, and what happens where
nothing waits. -/

namespace Sys2Proof.Machine

/-! ### A context replaced -/

section modCtx
variable (v : Kv) (s : State) (n : Nat) {f : KvCtx → KvCtx} (hf : ∀ c, (f c).num = c.num)

theorem Kv.ctx_num {v : Kv} {n : Nat} {c : KvCtx} (h : v.ctx n = some c) : c.num = n := by
  simpa using List.find?_some h

include hf

theorem Kv.ctx_modCtx (m : Nat) : (v.modCtx n f).ctx m = (v.ctx m).map fun c => if c.num = n then f c else c := by
  have hnum : (fun c : KvCtx => c.num == m) ∘ (fun c => if c.num = n then f c else c) = fun c => c.num == m := by
    funext c
    simp only [Function.comp]
    split
    · rw [hf]
    · rfl
  rw [Kv.ctx, Kv.modCtx, List.find?_map, hnum, Kv.ctx]

theorem State.ctx_modCtx_same : (s.modCtx n f).kv.ctx n = (s.kv.ctx n).map f := by
  rw [State.modCtx, Kv.ctx_modCtx _ _ hf]
  cases h : s.kv.ctx n with
  | none => rfl
  | some c => simp [Kv.ctx_num h]

theorem State.ctx_modCtx_ne {m : Nat} (hm : m ≠ n) : (s.modCtx n f).kv.ctx m = s.kv.ctx m := by
  rw [State.modCtx, Kv.ctx_modCtx _ _ hf]
  cases h : s.kv.ctx m with
  | none => rfl
  | some c => simp [Kv.ctx_num h, hm]

end modCtx

/-! ### Free levels (R299, R302) -/

/-- `t` is `s` after free levels were looked at: the chains under pressure, the pools' counters, and entries. -/
def State.Leveled (s t : State) : Prop :=
  ∃ press stats, ({ s with kv := { s.kv with press := press, stats := stats } } : State).Logged t

namespace State.Leveled
variable {s t u : State}

theorem of_logged (h : s.Logged t) : s.Leveled t := ⟨s.kv.press, s.kv.stats, h⟩

theorem refl (s : State) : s.Leveled s := of_logged (.refl s)

theorem trans (hst : s.Leveled t) (htu : t.Leveled u) : s.Leveled u := by
  obtain ⟨_, _, _, _, b, rfl⟩ := hst
  obtain ⟨press, stats, sheet, ext, b', rfl⟩ := htu
  exact ⟨press, stats, sheet, ext, b ||| b', by simp [BitVec.or_assoc]⟩

theorem modStat (s : State) (n : Nat) (f : PoolStat → PoolStat) : s.Leveled (s.modStat n f) := ⟨s.kv.press, _, .refl _⟩

theorem dropPress (s : State) : s.Leveled s.dropPress := ⟨_, s.kv.stats, .refl _⟩

theorem ite {c : Prop} [Decidable c] (ht : s.Leveled t) (hu : s.Leveled u) : s.Leveled (if c then t else u) := by
  split
  · exact ht
  · exact hu

theorem trigger (s : State) (chain : List Nat) : s.Leveled (s.trigger chain) := ite (refl s) ⟨_, s.kv.stats, .refl _⟩

theorem crossings (s : State) (p : KvPool) (above : Bool) (old : Nat) : s.Leveled (s.crossings p above old) := by
  have hlow (t : State) (f : PoolStat → PoolStat) (data : List Byte) :
      t.Leveled (((t.modStat p.num f).log 0x0101 6 1 false data).irqSet 2) :=
    ((modStat ..).trans (of_logged (.log ..))).trans (of_logged (.irqSet ..))
  have hempty (t : State) (f : PoolStat → PoolStat) (data : List Byte) : t.Leveled ((t.modStat p.num f).log 0x0101 6 2 false data) :=
    (modStat ..).trans (of_logged (.log ..))
  unfold State.crossings
  exact trans (ite (hlow s _ _) (refl s)) (ite (hempty _ _ _) (refl _))

theorem foldl {α : Type} {f : State → α → State} (hf : ∀ (t : State) x, t.Leveled (f t x)) (l : List α) (s : State) :
    s.Leveled (l.foldl f s) := by
  induction l generalizing s with
  | nil => exact refl s
  | cons x l ih => exact (hf s x).trans (ih _)

theorem levelsFrom (s old : State) : s.Leveled (s.levelsFrom old) := by
  refine (foldl (fun t p => ?_) _ s).trans (foldl (fun t c => ite (trigger t c) (refl t)) _ _)
  split
  · exact crossings ..
  · exact refl t

theorem kv (h : s.Leveled t) : t.kv = { s.kv with press := t.kv.press, stats := t.kv.stats } := by
  obtain ⟨_, _, _, _, _, rfl⟩ := h; rfl
theorem ctxs (h : s.Leveled t) : t.kv.ctxs = s.kv.ctxs := by rw [h.kv]
theorem pools (h : s.Leveled t) : t.kv.pools = s.kv.pools := by rw [h.kv]
theorem groups (h : s.Leveled t) : t.kv.groups = s.kv.groups := by rw [h.kv]
theorem tabs (h : s.Leveled t) : t.kv.tabs = s.kv.tabs := by rw [h.kv]
theorem waiters (h : s.Leveled t) : t.kv.waiters = s.kv.waiters := by rw [h.kv]
theorem ectl (h : s.Leveled t) : t.ectl = s.ectl := by obtain ⟨_, _, _, _, _, rfl⟩ := h; rfl
theorem mbox (h : s.Leveled t) : t.mbox = s.mbox := by obtain ⟨_, _, _, _, _, rfl⟩ := h; rfl
theorem slices (h : s.Leveled t) : t.slices = s.slices := by obtain ⟨_, _, _, _, _, rfl⟩ := h; rfl
theorem pending (h : s.Leveled t) : t.pending = s.pending := by obtain ⟨_, _, _, _, _, rfl⟩ := h; rfl
theorem chip (h : s.Leveled t) : t.chip = s.chip := by obtain ⟨_, _, _, _, _, rfl⟩ := h; rfl

end State.Leveled

/-! ### Page tables (R274, R332) -/

/-- `t` is `s` after writes of page tables: the memories, and the granules that they make whole. -/
def State.Tabled (s t : State) : Prop :=
  ∃ emul ext poisoned, t = { s with emul := emul, ext := ext, ectl := { s.ectl with poisoned := poisoned } }

namespace State.Tabled
variable {s t u : State}

theorem refl (s : State) : s.Tabled s := ⟨s.emul, s.ext, s.ectl.poisoned, rfl⟩

theorem trans (hst : s.Tabled t) (htu : t.Tabled u) : s.Tabled u := by
  obtain ⟨_, _, _, rfl⟩ := hst
  obtain ⟨emul, ext, poisoned, rfl⟩ := htu
  exact ⟨emul, ext, poisoned, rfl⟩

theorem foldl {α : Type} {f : State → α → State} (hf : ∀ (t : State) x, t.Tabled (f t x)) (l : List α) (s : State) :
    s.Tabled (l.foldl f s) := by
  induction l generalizing s with
  | nil => exact refl s
  | cons x l ih => exact (hf s x).trans (ih _)

theorem putEntry (s : State) (emul : Bool) (pa e : Nat) : s.Tabled (s.putEntry emul pa e) := by
  cases emul with
  | true => exact ⟨_, s.ext, s.ectl.poisoned, rfl⟩
  | false => exact ⟨s.emul, _, s.ectl.poisoned, rfl⟩

theorem zeroEmul (s : State) (pa n : Nat) : s.Tabled (s.zeroEmul pa n) := ⟨_, s.ext, _, rfl⟩

theorem linkTable (s : State) (b : KvTable) : s.Tabled (s.linkTable b) := by
  unfold State.linkTable
  split
  · exact putEntry ..
  all_goals split; exacts [putEntry .., refl s]

theorem clearRoot (s : State) (d : Nat) : s.Tabled (s.clearRoot d) := by
  unfold State.clearRoot
  dsimp only
  split
  · exact zeroEmul ..
  · exact ⟨s.emul, _, s.ectl.poisoned, rfl⟩

theorem fillTables (s : State) (ts : List KvTable) : s.Tabled (s.fillTables ts) :=
  (foldl (fun t b => zeroEmul t b.pa b.size) ts s).trans (foldl linkTable ts _)

theorem syncPage (s : State) (p : KvPool) (n l page : Nat) (scale : Bool) : s.Tabled (s.syncPage p n l page scale) := by
  refine foldl (fun t o => ?_) _ s
  unfold State.syncGranule
  split
  · exact putEntry ..
  · exact refl t

theorem kv (h : s.Tabled t) : t.kv = s.kv := by obtain ⟨_, _, _, rfl⟩ := h; rfl
theorem mbox (h : s.Tabled t) : t.mbox = s.mbox := by obtain ⟨_, _, _, rfl⟩ := h; rfl
theorem slices (h : s.Tabled t) : t.slices = s.slices := by obtain ⟨_, _, _, rfl⟩ := h; rfl
theorem pending (h : s.Tabled t) : t.pending = s.pending := by obtain ⟨_, _, _, rfl⟩ := h; rfl
theorem chip (h : s.Tabled t) : t.chip = s.chip := by obtain ⟨_, _, _, rfl⟩ := h; rfl

end State.Tabled

/-! ### Nothing waits, and no column is being retired (R288, R293, R343) -/

theorem noRetiring_congr {s t : State} (h : t.ectl = s.ectl) : noRetiring t = noRetiring s := by
  simp only [noRetiring, State.col, h]

theorem State.retireGo_idle {s : State} (h : noRetiring s = true) : s.retireGo = s := by
  have hnone : ((List.range 32).filter fun c => (s.col c).state == .retiring) = [] := by
    simpa [noRetiring, List.filter_eq_nil_iff] using h
  rw [State.retireGo, hnone, List.foldl_nil]

theorem State.serveWaiters_idle {s : State} (h : s.kv.waiters = []) : s.serveWaiters = s := by
  rw [State.serveWaiters, h, List.foldl_nil]

theorem State.kvSettled_idle {s : State} (hret : noRetiring s = true) (hwait : s.kv.waiters = []) : s.kvSettled = s := by
  rw [State.kvSettled, State.retireGo_idle hret, State.serveWaiters_idle hwait]

end Sys2Proof.Machine
end

section
/-! SUPPORT. The mailbox commands KV_POOL_CONFIG, KV_SEQ_OPEN and KV_SEQ_CLOSE (R268, R277, R278, R301, R448, R449). -/

namespace Sys2Proof.Machine
variable {s : State} {ch : Channel} {m : Cmd}

/-! ### KV_POOL_CONFIG (R277, R448) -/

theorem State.poolPre_removes (hn : m.f 16 1 ≤ 7) (hrem : m.f 60 1 = 1) :
    s.poolPre m = if (s.kv.pool (m.f 16 1)).isNone then some (.no 6 (m.f 16 1) 0) else none := by
  rw [State.poolPre, if_neg (Nat.not_lt.mpr hn), if_pos hrem]

theorem State.poolPre_sets {f : Fmt} (hn : m.f 16 1 ≤ 7) (hset : m.f 60 1 = 0) (hkind : m.f 17 1 ≤ 1)
    (hstreams : m.f 18 1 = 1 ∨ m.f 18 1 = 2) (hfmt : fmtOfId (m.f 19 1) = some f) (hplanar : m.f 20 1 ≤ 1)
    (hfields : s.poolFields (m.pool f) = none) : s.poolPre m = none := by
  have hrem : ¬m.f 60 1 = 1 := by omega
  rw [State.poolPre, if_neg (Nat.not_lt.mpr hn), if_neg hrem, if_neg (Nat.not_lt.mpr hkind), hfmt]
  have hshape : checks [(!(m.f 18 1 == 1 || m.f 18 1 == 2), .bad 18), (decide (1 < m.f 20 1), .bad 20)] = none :=
    checks_eq_none (by simpa [hplanar] using Decidable.or_iff_not_imp_left.mp hstreams)
  simp only [hshape, hfields, if_pos hset, Option.or_none]

theorem State.poolConfig_removes (hrem : m.f 60 1 = 1) : s.poolConfig m =
    if s.poolClaimed (m.f 16 1) ∨ s.poolNamed (m.f 16 1) then (⟨5, m.f 16 1, 0, []⟩, s)
    else (⟨0, 0, 0, leBytes 4 0 ++ leBytes 1 (((s.kv.pool (m.f 16 1)).map KvPool.z).getD 1)⟩, s.setPool (m.f 16 1) []) := by
  rw [State.poolConfig, if_pos hrem]; rfl

theorem State.poolConfig_sets {f : Fmt} (hset : m.f 60 1 = 0) (hfmt : fmtOfId (m.f 19 1) = some f) :
    s.poolConfig m = s.poolSet (m.pool f) := by
  have hrem : ¬m.f 60 1 = 1 := by omega
  rw [State.poolConfig, if_neg hrem, hfmt]

theorem State.setPool_nil (s : State) (n : Nat) :
    s.setPool n [] = { s with kv := { s.kv with pools := s.kv.pools.filter (·.num != n) } } := by
  rw [State.setPool, List.append_nil]

theorem State.poolSet_unplaced {p : KvPool} (h : s.poolPlaced p = none) : s.poolSet p = (⟨5, p.num, 0, []⟩, s) := by
  rw [State.poolSet, h]; rfl

/-- A pool that nothing uses takes its new shape. -/
theorem State.poolSet_placed {p : KvPool} {l : List (Nat × Nat)} (hplaced : s.poolPlaced p = some l) (hclaimed : s.poolClaimed p.num = false)
    (hnamed : s.poolNamed p.num = false) (hz : s.setting 0x0203 % p.z = 0) (hwait : s.kv.waiters = []) (hret : noRetiring s = true) :
    ∃ t, (s.setPool p.num [{ p with places := l }]).Leveled t ∧
      s.poolSet p = (⟨0, 0, 0, leBytes 4 (p.perPlace * l.length) ++ leBytes 1 p.z⟩, t) := by
  have hlev := (State.Leveled.levelsFrom (s.setPool p.num [{ p with places := l }]) s).trans (.dropPress _)
  refine ⟨_, hlev, ?_⟩
  have hsettled := State.kvSettled_idle ((noRetiring_congr hlev.ectl).trans hret) (hlev.waiters.trans hwait)
  simp [State.poolSet, hplaced, hclaimed, hnamed, hz, hsettled]

/-! ### KV_SEQ_OPEN (R268, R449) -/

theorem State.head_of_chainOk {l : List Nat} (h : s.chainOk l = true) : (l.head?).bind s.kv.pool = s.kv.pool (l.headD 0) := by
  cases l with
  | nil => cases h
  | cons a l => rfl

/-- The checks of KV_SEQ_OPEN on single fields. -/
def openFields (m : Cmd) : List (Bool × Ends) :=
  [(decide (32768 ≤ m.f 16 2), .bad 16), (m.f 18 2 == 0 || decide (4096 ≤ m.f 18 2), .bad 18),
    (m.f 20 1 == 0 || decide (64 < m.f 20 1), .bad 20), (decide (7 < m.f 21 1), .bad 21), (decide (15 < m.f 22 1), .bad 22)]

theorem State.openPre_eq (s : State) (m : Cmd) : s.openPre m = checks (openFields m ++ [(!s.chainOk m.chain, .bad 24),
    (decide (16 * (((m.chain.head?).bind s.kv.pool).map KvPool.maxPages).getD 0 < m.f 28 4), .bad 28)]) := rfl

section openPre
variable (hnum : m.f 16 2 < 32768) (hdom : 1 ≤ m.f 18 2) (hdom' : m.f 18 2 < 4096) (hlayers : 1 ≤ m.f 20 1) (hlayers' : m.f 20 1 ≤ 64)
  (hcls : m.f 21 1 ≤ 7) (hnotice : m.f 22 1 ≤ 15)
include hnum hdom hdom' hlayers hlayers' hcls hnotice

theorem openFields_pass : ∀ c ∈ openFields m, c.1 = false := by
  simp [openFields]; omega

theorem State.openPre_badChain (hchain : s.chainOk m.chain = false) : s.openPre m = some (.bad 24) := by
  rw [State.openPre_eq, hchain]
  exact checks_append_eq_some _ _ (openFields_pass hnum hdom hdom' hlayers hlayers' hcls hnotice)

theorem State.openPre_passes {p : KvPool} (hchain : s.chainOk m.chain = true) (hpool : s.kv.pool (m.chain.headD 0) = some p)
    (hmax : m.f 28 4 ≤ 16 * p.maxPages) : s.openPre m = none := by
  rw [State.openPre_eq, State.head_of_chainOk hchain, hpool, hchain]
  refine checks_eq_none fun c hc => ?_
  rcases List.mem_append.mp hc with hfirst | hlast
  · exact openFields_pass hnum hdom hdom' hlayers hlayers' hcls hnotice c hfirst
  · rcases List.mem_pair.mp hlast with rfl | rfl
    · rfl
    · exact decide_eq_false (Nat.not_lt.mpr hmax)

end openPre

theorem State.seqOpen_again {c : KvCtx} (hctx : s.kv.ctx (m.f 16 2) = some c) :
    s.seqOpen m = (⟨5, m.f 16 2, if c.closing then 9 else 1, []⟩, s) := by
  simp only [State.seqOpen, hctx]; rfl

/-- The open of a context adds it and its tables; what else it writes are page tables and what the free levels bring. -/
theorem State.openCtx_adds (s : State) (c : KvCtx) (tabs : List KvTable) : ∃ t,
    State.Tabled { s with kv := { s.kv with ctxs := s.kv.ctxs ++ [c], tabs := tabs } } t ∧ t.Leveled (s.openCtx c tabs) := by
  refine ⟨_, ?_, .levelsFrom _ s⟩
  split
  · exact (State.Tabled.clearRoot _ _).trans (.fillTables _ _)
  · exact .fillTables _ _

section seqOpen
variable {p : KvPool} (hctx : s.kv.ctx (m.f 16 2) = none) (hpool : (m.chain.head?).bind s.kv.pool = some p)
include hctx hpool

theorem State.seqOpen_full (hplace : s.placeLayers p (m.f 16 2) (m.f 28 4) (s.newLevel2 (m.f 18 2) (m.f 16 2)) (m.f 20 1) = none) :
    ∃ b, s.seqOpen m = (⟨7, m.f 16 2, b, []⟩, s) := by
  simp only [State.seqOpen, hctx, hpool, hplace]
  exact ⟨_, rfl⟩

theorem State.seqOpen_opens {x : Placed}
    (hplace : s.placeLayers p (m.f 16 2) (m.f 28 4) (s.newLevel2 (m.f 18 2) (m.f 16 2)) (m.f 20 1) = some x) :
    ∃ res t u, s.seqOpen m = (⟨0, 0, 0, res⟩, u) ∧
      State.Tabled { s with kv := { s.kv with ctxs := s.kv.ctxs ++ [m.context x.1], tabs := x.2 } } t ∧ t.Leveled u := by
  obtain ⟨t, htab, hlev⟩ := s.openCtx_adds (m.context x.1) x.2
  simp only [State.seqOpen, hctx, hpool, hplace]
  exact ⟨_, t, _, rfl, htab, hlev⟩

end seqOpen

/-! ### KV_SEQ_CLOSE (R301, R449) -/

theorem State.closePre (s : State) (m : Cmd) : s.closeNeed.pre m =
    if (s.kv.ctx (m.f 16 2)).isNone then some ⟨6, m.f 16 2, 0, []⟩ else none := rfl

theorem State.seqClose_again {c : KvCtx} (hctx : s.kv.ctx (m.f 16 2) = some c) (hclosing : c.closing = true) :
    s.seqClose m = .inl (⟨5, m.f 16 2, 9, []⟩, s) :=
  if_pos (by rw [hctx]; exact hclosing)

theorem State.seqClose_begins {c : KvCtx} (hctx : s.kv.ctx (m.f 16 2) = some c) (hclosing : c.closing = false) :
    s.seqClose m = .inr (m, s.closeCtx (m.f 16 2)) :=
  if_neg (by rw [hctx]; exact ne_true_of_eq_false hclosing)

/-! ### The statement -/

/-- Settles O56: each command passes its checks or fails the first one, and only what it sets or adds is not as it was. -/
theorem kvCommands : Obligations.KvCommands := by
  unfold Obligations.KvCommands
  intro s ch m p c f l x n num
  refine ⟨fun h hc => ?pool, fun h hc hnum hdom hdom' hlayers hlayers' hcls hnotice => ?opens, fun h hc => ?close⟩ <;>
    replace h := Serves.of_serving h
  case pool =>
    refine ⟨fun hn => h.act_stops (n := s.poolNeed) hc (if_pos hn) _, fun hn hrem hp => ?missing, fun hn hrem hp huse => ?used,
      fun hn hrem hp huse => ?removed, fun hn hset hkind hstreams hfmt hplanar hfields => ?set⟩
    case missing =>
      exact h.act_stops (n := s.poolNeed) hc ((State.poolPre_removes hn hrem).trans (if_pos (by rw [hp]; rfl))) _
    case used =>
      have hpre := (State.poolPre_removes hn hrem).trans (if_neg (by rw [hp]; exact Bool.false_ne_true))
      exact h.act_runs (n := s.poolNeed) hc hpre rfl
        ((State.poolConfig_removes hrem).trans (if_pos (Bool.or_eq_true .. ▸ huse))) rfl rfl rfl
    case removed =>
      have hpre := (State.poolPre_removes hn hrem).trans (if_neg (by rw [hp]; exact Bool.false_ne_true))
      have hfree : ¬(s.poolClaimed n = true ∨ s.poolNamed n = true) := by
        rw [← Bool.or_eq_true, huse]; decide
      have hrun := (State.poolConfig_removes hrem).trans (if_neg hfree)
      rw [hp, State.setPool_nil] at hrun
      exact h.act_runs (n := s.poolNeed) hc hpre rfl hrun rfl rfl rfl
    case set =>
      have hpre := State.poolPre_sets hn hset hkind hstreams hfmt hplanar hfields
      have hrun := State.poolConfig_sets (s := s) hset hfmt
      refine ⟨fun hl => h.act_runs (n := s.poolNeed) hc hpre rfl (hrun.trans (State.poolSet_unplaced hl)) rfl rfl rfl,
        fun hl hclaimed hnamed hz hwait hret => ?_⟩
      obtain ⟨t, hlev, hput⟩ := State.poolSet_placed hl hclaimed hnamed hz hwait hret
      exact ⟨_, h.act_runs (n := s.poolNeed) hc hpre rfl (hrun.trans hput) hlev.mbox hlev.pending hlev.chip,
        completed_ended t ch m (by decide) _ _ _, hlev.pools, hlev.ctxs, hlev.groups, hlev.slices⟩
  case opens =>
    refine ⟨fun hchain => h.act_stops (n := s.openNeed) hc
      (State.openPre_badChain hnum hdom hdom' hlayers hlayers' hcls hnotice hchain) _, fun hchain hpool hmax => ?_⟩
    have hpre := State.openPre_passes hnum hdom hdom' hlayers hlayers' hcls hnotice hchain hpool hmax
    have hhead := (State.head_of_chainOk hchain).trans hpool
    refine ⟨fun hctx => h.act_runs (n := s.openNeed) hc hpre rfl (State.seqOpen_again hctx) rfl rfl rfl, fun hctx hplace => ?_,
      fun hctx hplace => ?_⟩
    · obtain ⟨b, hrun⟩ := State.seqOpen_full hctx hhead hplace
      exact ⟨_, h.act_runs (n := s.openNeed) hc hpre rfl hrun rfl rfl rfl, completed_ended s ch m (by decide) _ _ _, rfl⟩
    · obtain ⟨res, t, u, hrun, htab, hlev⟩ := State.seqOpen_opens hctx hhead hplace
      exact ⟨_, h.act_runs (n := s.openNeed) hc hpre rfl hrun (hlev.mbox.trans htab.mbox) (hlev.pending.trans htab.pending)
          (hlev.chip.trans htab.chip), completed_ended _ ch m (by decide) _ _ _, hlev.pools.trans (by rw [htab.kv]),
        hlev.groups.trans (by rw [htab.kv]), hlev.ctxs.trans (by rw [htab.kv]; rfl),
        hlev.tabs.trans (by rw [htab.kv]), hlev.slices.trans htab.slices⟩
  case close =>
    refine ⟨fun hctx => ?missing, fun hctx hclosing => ?again, fun hctx hclosing => ?begins⟩
    case missing =>
      have hpre := (s.closePre m).trans (if_pos (by rw [hctx]; rfl))
      exact act_eq h.live ((h.commandGo_stops hc hpre _).trans (h.finish rfl _)) rfl rfl
    all_goals have hpre := (s.closePre m).trans (if_neg (by rw [hctx]; exact Bool.false_ne_true))
    case again =>
      exact act_eq h.live ((h.commandGo_ends hc hpre rfl (State.seqClose_again hctx hclosing)).trans (h.finish rfl _)) rfl rfl
    case begins =>
      have hgo := (h.commandGo_goes hc hpre rfl (State.seqClose_begins hctx hclosing)).trans (h.updCmd _ _)
      have hnum (c : KvCtx) : ({ c with closing := true } : KvCtx).num = c.num := rfl
      refine ⟨_, act_eq h.live hgo rfl rfl, ?_, ?_, fun j hj => State.ctx_modCtx_ne s _ hnum hj, rfl⟩
      · have hchan : (s.closeCtx (m.f 16 2)).chan ch.val = s.chan ch.val := chan_congr rfl _
        simp [goesOn, hchan]
      · exact (State.ctx_modCtx_same s _ hnum).trans (by rw [hctx]; rfl)

end Sys2Proof.Machine
end

section
/-! SUPPORT. Fade steps (R297, R299, R300): what begins one, and what each of its parts makes of the context. -/

namespace Sys2Proof.Machine
variable {s : State}

/-! ### What entries of the contact sheet leave alone -/

theorem State.Logged.kv {s t : State} (h : s.Logged t) : t.kv = s.kv := by obtain ⟨_, _, _, rfl⟩ := h; rfl
theorem State.Logged.xl {s t : State} (h : s.Logged t) : t.xl = s.xl := by obtain ⟨_, _, _, rfl⟩ := h; rfl
theorem State.Logged.ectl {s t : State} (h : s.Logged t) : t.ectl = s.ectl := by obtain ⟨_, _, _, rfl⟩ := h; rfl
theorem State.Logged.mbox {s t : State} (h : s.Logged t) : t.mbox = s.mbox := by obtain ⟨_, _, _, rfl⟩ := h; rfl

/-! ### The layers of a context -/

theorem State.layer_eq_some {n l : Nat} {c : KvCtx} {x : KvLayer} (hctx : s.kv.ctx n = some c) :
    s.layer n l = some x ↔ c.layers[l]? = some x := by
  rw [State.layer, hctx]; rfl

/-- Layers that are changed each by its number. -/
theorem getElem?_map_zipIdx {α β : Type} (f : α × Nat → β) (l : List α) (i : Nat) :
    (l.zipIdx.map f)[i]? = (l[i]?).map fun x => f (x, i) := by
  rw [List.getElem?_map, List.getElem?_zipIdx, Option.map_map, Nat.zero_add]; rfl

theorem takesLayer_iff {layer : Option Nat} {l : Nat} : takesLayer layer l = true ↔ layer = none ∨ layer = some l := by
  cases layer <;> simp [takesLayer]

/-! ### Beginning (R297, R299, R300) -/

theorem State.endFixWaits_idle (h : s.kv.waiters = []) (n : Nat) : s.endFixWaits n = s := by
  rw [State.endFixWaits, h]; rfl

theorem State.beginFade_idle (h : s.kv.waiters = []) (e : ErrFade) (cause : Nat) : s.beginFade e cause =
    { s with kv := { s.kv with fades := s.kv.fades ++ [⟨e.ctx, e.len, e.layer, cause, 1, [], []⟩] } } :=
  State.endFixWaits_idle (s := { s with kv := { s.kv with fades := s.kv.fades ++ [⟨e.ctx, e.len, e.layer, cause, 1, [], []⟩] } }) h e.ctx

/-- The state in which the manager looks for a fade step to begin. -/
def State.fadeReady (s : State) : State := s.dropPress.dropErrFades

section fadeStart
variable (hret : noRetiring s = true)
include hret

theorem State.fadeStart_waits (pool : Nat) (h : s.fw.running = false ∨ 4 ≤ s.kv.fades.length) : s.fadeStart pool = s.fadeReady := by
  rw [State.fadeStart, State.retireGo_idle hret]
  exact if_pos (h.imp_left fun hrun => (Bool.not_eq_true' _).mpr hrun)

variable (hrun : s.fw.running = true) (hroom : s.kv.fades.length < 4)
include hrun hroom

theorem State.fadeStart_error (pool : Nat) {e : ErrFade} (herr : s.fadeReady.errFade = some e) : s.fadeStart pool =
    State.beginFade { s.fadeReady with kv := { s.fadeReady.kv with errFades := s.fadeReady.kv.errFades.erase e } } e 2 := by
  have hgo : ¬((!s.fw.running) = true ∨ 4 ≤ s.kv.fades.length) := by simp [hrun, hroom]
  rw [State.fadeStart, State.retireGo_idle hret]
  refine (if_neg hgo).trans ?_
  rw [← State.fadeReady, herr]

theorem State.fadeStart_pressure {pool : Nat} {chain : List Nat} (herr : s.fadeReady.errFade = none)
    (hpress : s.fadeReady.kv.press.find? (·.contains pool) = some chain) : s.fadeStart pool = s.fadeReady.fadeVictim chain := by
  have hgo : ¬((!s.fw.running) = true ∨ 4 ≤ s.kv.fades.length) := by simp [hrun, hroom]
  rw [State.fadeStart, State.retireGo_idle hret]
  refine (if_neg hgo).trans ?_
  rw [← State.fadeReady, herr, hpress]

end fadeStart

/-- An error fade that can begin is not dropped, and is the next to begin. -/
theorem State.fadeReady_errFade {e : ErrFade} {c : KvCtx} (herr : s.kv.errFades = [e]) (hctx : s.kv.ctx e.ctx = some c)
    (hcan : s.canFade c e.len e.layer = true) : s.fadeReady.kv.errFades = [e] ∧ s.fadeReady.errFade = some e := by
  have hkeeps : (!c.closing && c.falls e.len e.layer) = true := by
    simp only [State.canFade, Bool.and_eq_true] at hcan ⊢
    exact ⟨hcan.1.1, hcan.2⟩
  have hctx' : s.dropPress.kv.ctx e.ctx = some c := hctx
  have herrs : s.fadeReady.kv.errFades = [e] := by
    refine (congrArg (List.filter _) herr).trans ?_
    simp only [List.filter_cons, hctx', hkeeps, if_true, List.filter_nil]
  refine ⟨herrs, ?_⟩
  have hcan' : s.fadeReady.canFade c e.len e.layer = true := hcan
  have hctx'' : s.fadeReady.kv.ctx e.ctx = some c := hctx
  simp only [State.errFade, herrs, List.find?_cons, hctx'', hcan']

theorem State.fadeReady_press {chain : List Nat} (hpress : s.kv.press = [chain]) (hrel : s.relieved chain = false) :
    s.fadeReady.kv.press = [chain] := by
  refine (congrArg (List.filter _) hpress).trans ?_
  simp only [List.filter_cons, hrel, Bool.not_false, if_true, List.filter_nil]

theorem State.fadeReady_errFade_none (herr : s.kv.errFades = []) : s.fadeReady.errFade = none := by
  have herrs : s.fadeReady.kv.errFades = [] := congrArg (List.filter _) herr
  rw [State.errFade, herrs, List.find?_nil]

theorem State.fadeVictim_first {chain : List Nat} {c : KvCtx} {rest : List KvCtx} (hvictims : s.victims chain = c :: rest) :
    s.fadeVictim chain = s.beginFade ⟨c.num, s.fadeLength c, none⟩ 1 := by
  rw [State.fadeVictim, hvictims]

theorem fadeStepsBegin_holds : fadeStepsBegin := by
  intro s pool hl hret hwait
  refine ⟨fun h => ?waits, fun n f layer c hrun hroom herr hctx hcan => ?error,
    fun chain c rest hrun hroom herr hpress hpool hrel hvictims => ?pressure⟩
  case waits => exact ⟨_, act_eq hl (State.fadeStart_waits hret _ h) rfl rfl, rfl, rfl, rfl⟩
  case error =>
    obtain ⟨herrs, hnext⟩ := State.fadeReady_errFade (e := ⟨n, f, layer⟩) herr hctx hcan
    have hstart := (State.fadeStart_error hret hrun hroom pool.val hnext).trans (State.beginFade_idle (by exact hwait) _ 2)
    refine ⟨_, act_eq hl hstart rfl rfl, rfl, ?_, rfl, rfl⟩
    exact (congrArg (List.erase · _) herrs).trans (by simp)
  case pressure =>
    have hfind : s.fadeReady.kv.press.find? (·.contains pool.val) = some chain := by
      rw [State.fadeReady_press hpress hrel, List.find?_cons, hpool]
    have hstart := (State.fadeStart_pressure hret hrun hroom (State.fadeReady_errFade_none herr) hfind).trans
      ((State.fadeVictim_first (s := s.fadeReady) hvictims).trans (State.beginFade_idle (by exact hwait) _ 1))
    exact ⟨_, act_eq hl hstart rfl rfl, rfl, rfl, rfl⟩

/-! ### The lengths fall (R299, steps 1 and 2) -/

theorem State.fadeAt_eq {n : Nat} {f : FadeStep} (hrun : s.fw.running = true) (hfades : s.kv.fades = [f]) (hctx : f.ctx = n) :
    s.fadeAt n f.step = some f := by
  simp [State.fadeAt, hrun, hfades, hctx]

/-- A context after the second part of a fade step. -/
def KvCtx.fadeTo (c : KvCtx) (f : FadeStep) : KvCtx := { c with
  fadeGen := (c.fadeGen + 1) % 256
  layers := c.layers.zipIdx.map fun l => if takesLayer f.layer l.2 then l.1.fade f.len else l.1 }

/-- A fade step after its second part: the lengths as they were, and the groups claimed by then. -/
def State.recordStep (s : State) (f : FadeStep) (c : KvCtx) : FadeStep := { f with
  step := 2
  oldLen := c.layers.map (·.len)
  doomed := (s.kv.groups.filter fun g => g.ctx == f.ctx && takesLayer f.layer g.layer).map fun g => (g.pool, g.column, g.num) }

theorem State.setFade_one {f f' : FadeStep} (hfades : s.kv.fades = [f]) (hctx : f.ctx = f'.ctx) :
    s.setFade f' = { s with kv := { s.kv with fades := [f'] } } := by
  simp [State.setFade, hfades, hctx]

section fadeRecord
variable {n : Nat} {f : FadeStep} {c : KvCtx} (hrun : s.fw.running = true) (hctx : s.kv.ctx n = some c) (hwait : s.kv.waiters = [])
  (hfades : s.kv.fades = [f]) (hfctx : f.ctx = n) (hstep : f.step = 1)
include hrun hctx hwait hfades hfctx hstep

theorem State.fadeRecord_waits (h : c.pins.any (·.write) = true ∨ c.layers.any (fun l => l.tray == .fixing) = true) :
    s.fadeRecord n = s := by
  have hat := State.fadeAt_eq hrun hfades hfctx
  rw [hstep] at hat
  simp only [State.fadeRecord, hat, State.endFixWaits_idle hwait, hctx, if_pos h]

theorem State.fadeRecord_records (hpins : c.pins.any (·.write) = false) (hfix : c.layers.any (fun l => l.tray == .fixing) = false) :
    s.fadeRecord n =
      ((({ s with kv := { s.kv with fades := [s.recordStep f c] } } : State).modCtx n (·.fadeTo f)).dropErrFades) := by
  have hat := State.fadeAt_eq hrun hfades hfctx
  rw [hstep] at hat
  have hgo : ¬(c.pins.any (·.write) = true ∨ c.layers.any (fun l => l.tray == .fixing) = true) := by
    rw [hpins, hfix]; decide
  simp only [State.fadeRecord, hat, State.endFixWaits_idle hwait, hctx, if_neg hgo]
  rw [← hfctx]
  exact congrArg (fun t : State => (t.modCtx f.ctx (·.fadeTo f)).dropErrFades) (State.setFade_one (f' := s.recordStep f c) hfades rfl)

end fadeRecord

theorem KvLayer.fade_high (f : Nat) (x : KvLayer) : (x.fade f).high = x.high := by
  unfold KvLayer.fade; split <;> rfl

theorem KvLayer.fade_of_le {f : Nat} {x : KvLayer} (h : x.len ≤ f) : x.fade f = x := if_pos h

theorem KvLayer.fade_of_lt {f : Nat} {x : KvLayer} (h : f < x.len) : (x.fade f).len = f ∧ (x.fade f).tokens = [] ∧ (x.fade f).tray ≠ .full := by
  rw [KvLayer.fade, if_neg (Nat.not_le.mpr h)]
  refine ⟨rfl, rfl, ?_⟩
  dsimp only
  split
  · decide
  · assumption

/-- What the second part of a fade step makes of a layer. -/
theorem KvLayer.faded_layer (f : FadeStep) (x : KvLayer) (l : Nat) :
    let y := if takesLayer f.layer l then x.fade f.len else x
    let takes : Prop := f.layer = none ∨ f.layer = some l
    y.high = x.high ∧ ((x.len ≤ f.len ∨ ¬takes) → y = x) ∧
      (f.len < x.len → takes → y.len = f.len ∧ y.tokens = [] ∧ y.tray ≠ .full) := by
  dsimp only
  rw [← takesLayer_iff]
  split
  case isTrue htakes =>
    exact ⟨x.fade_high f.len, fun h => KvLayer.fade_of_le (h.resolve_right (not_not.mpr htakes)), fun h _ => KvLayer.fade_of_lt h⟩
  case isFalse htakes => exact ⟨rfl, fun _ => rfl, fun _ h => absurd h htakes⟩

theorem State.fadeRecord_ctx {n : Nat} {f : FadeStep} {c : KvCtx} (hctx : s.kv.ctx n = some c) :
    (((({ s with kv := { s.kv with fades := [s.recordStep f c] } } : State).modCtx n (·.fadeTo f)).dropErrFades)).kv.ctx n =
      some (c.fadeTo f) :=
  (State.ctx_modCtx_same { s with kv := { s.kv with fades := [s.recordStep f c] } } n (f := (·.fadeTo f)) fun _ => rfl).trans (congrArg (Option.map _) hctx)

/-! ### The pages read FADED, and their frames drain (R287, R299, steps 3 and 4) -/

/-- A group stays where it is while its frames drain. -/
theorem KvGroup.drain_place (z : Nat) (f : FadeStep) (g : KvGroup) : (g.drain z f).index = g.index ∧
    ((g.drain z f).pool, (g.drain z f).column, (g.drain z f).num) = (g.pool, g.column, g.num) := by
  unfold KvGroup.drain; split <;> exact ⟨rfl, rfl⟩

theorem KvGroup.drain_live {z : Nat} {f : FadeStep} {g : KvGroup} (hdoomed : (g.pool, g.column, g.num) ∈ f.doomed) {i : Nat}
    (h : (g.drain z f).frames[i]? = some .live) : (g.index * z + i) * 16 < f.len := by
  rw [KvGroup.drain, if_neg (by simpa using hdoomed), getElem?_map_zipIdx, Option.map_eq_some_iff] at h
  obtain ⟨x, -, hx⟩ := h
  by_contra hle
  dsimp only at hx
  split at hx
  · cases hx
  case isFalse hno => exact hno ⟨hx, Nat.le_of_not_lt hle⟩

/-- The state with the frames of a context drained (R288). -/
def State.drained (s : State) (n : Nat) (f : FadeStep) (z : Nat) : State :=
  { s with kv := { s.kv with groups := s.kv.groups.map fun g => if g.ctx = n then g.drain z f else g } }

/-- The layers of a context with the pages of a fade step FADED. -/
def State.refaded (s : State) (n : Nat) (f : FadeStep) (z : Nat) (c : KvCtx) : List KvLayer :=
  c.layers.zipIdx.map fun l => l.1.refade (s.fadedPages n f z l) f.cause

/-- What the third and fourth part of a fade step make of the manager's records. -/
def State.written (s : State) (n : Nat) (f : FadeStep) (z : Nat) (c : KvCtx) : State :=
  let t := (s.drained n f z).modCtx n fun d => { d with layers := (s.drained n f z).refaded n f z c }
  { t with kv := { t.kv with fades := [{ f with step := 4 }] } }

section fadeWrite
variable {n : Nat} {f : FadeStep} {c : KvCtx} (hrun : s.fw.running = true) (hctx : s.kv.ctx n = some c)
  (hfades : s.kv.fades = [f]) (hfctx : f.ctx = n) (hstep : f.step = 2)
include hrun hctx hfades hfctx hstep

theorem State.fadeWrite_waits (h : c.pins.any (fun p => p.gen != c.fadeGen) = true) : s.fadeWrite n = s := by
  have hat := State.fadeAt_eq hrun hfades hfctx
  rw [hstep] at hat
  simp only [State.fadeWrite, hat, hctx, if_pos h]
  split <;> rfl

/-- The entries are written from the records. -/
theorem State.fadeWrite_tabled {p : KvPool} (hpool : s.ctxPool c = some p) (h : c.pins.any (fun p => p.gen != c.fadeGen) = false) :
    (s.written n f p.z c).Tabled (s.fadeWrite n) := by
  have hat := State.fadeAt_eq hrun hfades hfctx
  rw [hstep] at hat
  have hgo : ¬c.pins.any (fun p => p.gen != c.fadeGen) = true := by rw [h]; decide
  have hset := State.setFade_one (s := (s.drained n f p.z).modCtx n fun d => { d with layers := (s.drained n f p.z).refaded n f p.z c })
    (f' := { f with step := 4 }) hfades rfl
  simp only [State.fadeWrite, hat, hctx, hpool, if_neg hgo, List.map_map, Function.comp_def]
  rw [State.written]
  dsimp only
  rw [← hset]
  exact .foldl (fun (t : State) (l : (KvLayer × Nat) × List Nat) => .foldl (fun t page => .syncPage t p n l.1.2 page _) l.2 t) _ _

end fadeWrite

theorem State.written_ctx {n : Nat} {f : FadeStep} {z : Nat} {c : KvCtx} (hctx : s.kv.ctx n = some c) :
    (s.written n f z c).kv.ctx n = some { c with layers := (s.drained n f z).refaded n f z c } :=
  (State.ctx_modCtx_same (s.drained n f z) n (f := fun d => { d with layers := (s.drained n f z).refaded n f z c }) fun _ => rfl).trans
    (congrArg (Option.map _) hctx)

/-- A LIVE frame of a doomed group lies below F. -/
theorem State.drained_live {n : Nat} {f : FadeStep} {z : Nat} {g : KvGroup} (hg : g ∈ (s.drained n f z).kv.groups) (hn : g.ctx = n)
    (hdoomed : (g.pool, g.column, g.num) ∈ f.doomed) {i : Nat} (hlive : g.frames[i]? = some .live) :
    (g.index * z + i) * 16 < f.len := by
  obtain ⟨g', -, rfl⟩ := List.mem_map.mp hg
  obtain ⟨hindex, hplace⟩ := g'.drain_place z f
  by_cases hn' : g'.ctx = n
  · rw [if_pos hn'] at hdoomed hlive ⊢
    rw [hplace] at hdoomed
    rw [hindex]
    exact KvGroup.drain_live hdoomed hlive
  · rw [if_neg hn'] at hn
    exact absurd hn hn'

theorem KvLayer.mem_refade {x : KvLayer} {pages : List Nat} {cause page : Nat} (h : page ∈ pages) :
    (page, cause) ∈ (x.refade pages cause).faded :=
  List.mem_append_right _ (List.mem_map_of_mem h)

theorem State.groupWith_eq_none {n l index : Nat} {test : KvGroup → Bool}
    (h : ∀ g ∈ s.kv.groups, g.ctx = n → g.layer = l → g.index = index → test g = false) : s.groupWith n l index test = none := by
  rw [State.groupWith, List.findSome?_eq_none_iff]
  intro g hg
  have hno : ¬(g.ctx = n ∧ g.layer = l ∧ g.index = index ∧ test g = true) := by
    rintro ⟨hn, hl, hi, ht⟩
    rw [h g (List.mem_reverse.mp hg) hn hl hi] at ht
    cases ht
  cases s.kv.pool g.pool with
  | none => rfl
  | some p => exact if_neg hno

/-- A page at or beyond F and below H of which no frame is LIVE is among those that a fade step fades. -/
theorem State.mem_fadedPages {n : Nat} {f : FadeStep} {z : Nat} {x : KvLayer} {l page : Nat} (htakes : takesLayer f.layer l = true)
    (hlo : f.len ≤ page * 16) (hhi : page * 16 < x.high)
    (hlive : ∀ g ∈ s.kv.groups, g.ctx = n → g.layer = l → g.index = page / z → g.frames[page % z]? ≠ some .live) :
    page ∈ s.fadedPages n f z (x, l) := by
  have hnone : s.groupWith n l (page / z) (fun g => g.frames[page % z]? == some .live) = none :=
    State.groupWith_eq_none fun g hg hn hl hi => beq_eq_false_iff_ne.mpr (hlive g hg hn hl hi)
  have hrange : page < ceilDiv x.high 16 := by unfold ceilDiv; omega
  simp [State.fadedPages, htakes, hnone, hrange, hlo]

/-! ### The end (R223, R288, R299, step 5) -/

theorem State.invalidate_range {d va pages : Nat} (hpages : pages ≠ 0) {e : TlbEntry}
    (he : e ∈ (s.invalidate (.range d va pages)).xl.hub.tlb) (hd : e.domain = d) :
    e.va + 2 ^ e.log2 ≤ va ∨ va + pages * 4096 ≤ e.va := by
  have hkeep := (List.mem_filter.mp he).2
  simp [Inval.meets, hd, hpages] at hkeep
  omega

/-- A frame that drained is RESERVED, and no group of the context stays that is not in use. -/
theorem State.undrain_groups {n : Nat} {g : KvGroup} (hg : g ∈ (s.undrain n).kv.groups) (hn : g.ctx = n) :
    g.inUse = true ∧ .draining ∉ g.frames := by
  obtain ⟨hmem, hkeep⟩ := List.mem_filter.mp hg
  refine ⟨by simpa [hn] using hkeep, ?_⟩
  obtain ⟨g', -, rfl⟩ := List.mem_map.mp hmem
  by_cases hn' : g'.ctx = n
  · rw [if_pos hn']
    intro hdrain
    obtain ⟨f, -, hf⟩ := List.mem_map.mp hdrain
    split at hf
    · cases hf
    case isFalse hne => exact hne hf
  · rw [if_neg hn'] at hn
    exact absurd hn hn'

theorem State.undrain_others {n : Nat} {g : KvGroup} (hg : g ∈ s.kv.groups) (hn : g.ctx ≠ n) : g ∈ (s.undrain n).kv.groups := by
  refine List.mem_filter.mpr ⟨List.mem_map.mpr ⟨g, hg, if_neg hn⟩, ?_⟩
  simp [hn]

/-- The state with a fade step ended: its frames and groups free, no translation of the context cached. -/
def State.fadeEnded (s : State) (n : Nat) (c : KvCtx) : State :=
  let t := (s.invalCtx c).undrain n
  { t with kv := { t.kv with fades := t.kv.fades.filter (·.ctx != n) } }

theorem State.postNow_cpls (t : State) {ch : Nat} (msg : List Byte) (hch : ch < 16) :
    ((t.postNow ch msg).chan ch).cpls.length = (t.chan ch).cpls.length + 1 := by
  have hchan : (t.postNow ch msg).chan ch = (t.modChan ch fun x => { x with
      cpls := x.cpls ++ [leBytes 8 t.now ++ msg.drop 8], cplWr := x.cplWr + 1 }).chan ch := rfl
  rw [hchan, State.chan_modChan _ _ _ hch, List.length_append]; rfl

theorem State.postNotice_posts {ch : Nat} (hroom : (s.chan ch).cpls.length < 64) (hheld : (s.chan ch).held = []) (res : List Byte) :
    s.postNotice ch res = s.postNow ch (cplMsg 0 0x8001 0 2 0 0 res) :=
  if_pos ⟨hroom, by rw [hheld]; rfl⟩

/-- An entry and a notice, where the notice finds room and nothing else is to do. -/
theorem State.notify_settled {n : Nat} {c : KvCtx} (hwait : s.kv.waiters = []) (hret : noRetiring s = true)
    (hroom : (s.chan c.notice).cpls.length < 64) (hheld : (s.chan c.notice).held = []) (data res : List Byte) :
    ∃ t msg, (s.fadeEnded n c).Logged t ∧
      (((s.fadeEnded n c).log 0x0101 6 3 false data).postNotice c.notice res).kvSettled = t.postNow c.notice msg := by
  have hlog := State.Logged.log (s.fadeEnded n c) 0x0101 6 3 false data false
  have hchan := chan_congr (s := s) hlog.mbox c.notice
  refine ⟨_, cplMsg 0 0x8001 0 2 0 0 res, hlog, ?_⟩
  rw [State.postNotice_posts (by rw [hchan]; exact hroom) (by rw [hchan]; exact hheld)]
  exact State.kvSettled_idle ((noRetiring_congr hlog.ectl).trans hret) ((congrArg Kv.waiters hlog.kv).trans hwait)

/-- The last part of a fade step ends it, writes its entry and posts its notice. -/
theorem State.fadeFinish_posts {n : Nat} {f : FadeStep} {c : KvCtx} (hrun : s.fw.running = true) (hctx : s.kv.ctx n = some c)
    (hwait : s.kv.waiters = []) (hfades : s.kv.fades = [f]) (hfctx : f.ctx = n) (hstep : f.step = 4) (hret : noRetiring s = true)
    (hroom : (s.chan c.notice).cpls.length < 64) (hheld : (s.chan c.notice).held = []) :
    ∃ t msg, (s.fadeEnded n c).Logged t ∧ s.fadeFinish n = t.postNow c.notice msg := by
  have hat := State.fadeAt_eq hrun hfades hfctx
  rw [hstep] at hat
  simp only [State.fadeFinish, hat, hctx]
  exact State.notify_settled hwait hret hroom hheld _ _

/-! ### The statement -/

theorem fadeStepsRun_holds : fadeStepsRun := by
  intro s n f c hl hrun hctx hwait hfades hfctx takes
  refine ⟨fun hstep h => act_eq hl (State.fadeRecord_waits hrun hctx hwait hfades hfctx hstep h) rfl rfl,
    fun hstep hpins hfix => ?records,
    fun hstep h => act_eq hl (State.fadeWrite_waits hrun hctx hfades hfctx hstep h) rfl rfl,
    fun p hstep hpool hpins => ?writes, fun hstep hret hnotice hroom hheld => ?finishes⟩
  case records =>
    have hrec := State.fadeRecord_records hrun hctx hwait hfades hfctx hstep hpins hfix
    have hnew := State.fadeRecord_ctx (s := s) (f := f) hctx
    refine ⟨_, act_eq hl hrec rfl rfl, ?_, ⟨_, rfl, fun g hg hn htakes => ?_⟩, fun l x y hx hy => ?_, rfl⟩
    · exact (congrArg (Option.map _) hnew).trans (by simp [KvCtx.fadeTo])
    · exact List.mem_map_of_mem (List.mem_filter.mpr ⟨hg, by simp [hn, hfctx, takesLayer_iff.mpr htakes]⟩)
    · rw [State.layer_eq_some hctx] at hx
      rw [State.layer_eq_some hnew, KvCtx.fadeTo, getElem?_map_zipIdx, hx] at hy
      cases hy
      exact KvLayer.faded_layer f x l
  case writes =>
    have htab := State.fadeWrite_tabled hrun hctx hfades hfctx hstep hpool hpins
    refine ⟨_, act_live s _ hl htab.pending htab.chip, ?_, fun g hg hn hdoomed i hlive => ?_,
      fun l x page hx htakes hlo hhi hlive => ?_⟩
    · rw [htab.kv]; rfl
    · rw [htab.kv] at hg
      exact State.drained_live hg hn hdoomed hlive
    · rw [htab.kv] at hlive
      have hnew := (congrArg (Kv.ctx · n.toNat) htab.kv).trans (State.written_ctx hctx)
      rw [State.layer_eq_some hnew, State.refaded, getElem?_map_zipIdx, Option.map_eq_some_iff] at hx
      obtain ⟨x, -, rfl⟩ := hx
      exact KvLayer.mem_refade (State.mem_fadedPages (takesLayer_iff.mpr htakes) hlo hhi hlive)
  case finishes =>
    obtain ⟨t, msg, hlog, hfin⟩ := State.fadeFinish_posts hrun hctx hwait hfades hfctx hstep hret hroom hheld
    have hkv : (t.postNow c.notice msg).kv = (s.fadeEnded n.toNat c).kv := hlog.kv
    refine ⟨_, act_eq hl hfin hlog.pending hlog.chip, ?_, ?_, fun g hg hn => ?_, fun g hg hn => ?_, ?_, fun e he hd => ?_⟩
    · exact (congrArg Kv.fades hkv).trans ((congrArg (List.filter _) hfades).trans (by simp [hfctx]))
    · rw [hkv]; rfl
    · rw [hkv] at hg; exact State.undrain_groups hg hn
    · rw [hkv]; exact State.undrain_others hg hn
    · exact (State.postNow_cpls t msg hnotice).trans (by rw [chan_congr (s := s) hlog.mbox])
    · have hxl : (t.postNow c.notice msg).xl = (s.invalCtx c).xl := hlog.xl
      rw [hxl, State.invalCtx, Kv.ctx_num hctx] at he
      exact State.invalidate_range (by decide) he hd

/-- Settles O35: each part of a fade step is one change of the records, from which the entries are written; nothing else begins one than
an error or a chain's first victim. -/
theorem fadeSteps : Obligations.FadeSteps := ⟨fadeStepsBegin_holds, fadeStepsRun_holds⟩

end Sys2Proof.Machine
end

section
/-! SUPPORT. The reel engine's records (R306 to R327): ports, rounds and blocks replaced, and what carrying bytes leaves alone. -/

namespace Sys2Proof.Machine

/-! ### Ports -/

section rport
variable (s : State) (p : Nat) (f g : ReelPort → ReelPort)

@[simp] theorem State.rport_modRport : (s.modRport p f).rport p = f (s.rport p) := by
  unfold State.modRport State.rport; split <;> rfl

theorem State.rport_modRport_ne {p q : Nat} (hp : p < 2) (hq : q < 2) (h : p ≠ q) : (s.modRport p f).rport q = s.rport q := by
  unfold State.modRport State.rport
  obtain rfl | rfl : p = 0 ∨ p = 1 := by omega
  · rw [if_neg h.symm, if_neg h.symm]; rfl
  · obtain rfl : q = 0 := by omega
    rfl

@[simp] theorem State.modRport_modRport : (s.modRport p f).modRport p g = s.modRport p fun x => g (f x) := by
  unfold State.modRport; split <;> simp

/-- A port that is changed becomes what the change makes of it. -/
theorem State.modRport_congr {f g : ReelPort → ReelPort} (h : f (s.rport p) = g (s.rport p)) : s.modRport p f = s.modRport p g := by
  unfold State.modRport
  by_cases hp : p = 0
  · rw [if_pos hp, if_pos hp, show f s.reel.portA = g s.reel.portA by simpa [State.rport, hp] using h]
  · rw [if_neg hp, if_neg hp, show f s.reel.portB = g s.reel.portB by simpa [State.rport, hp] using h]

@[simp] theorem State.modRport_rounds : (s.modRport p f).reel.rounds = s.reel.rounds := by unfold State.modRport; split <;> rfl
@[simp] theorem State.modRport_blocks : (s.modRport p f).reel.blocks = s.reel.blocks := by unfold State.modRport; split <;> rfl
@[simp] theorem State.modRport_nextId : (s.modRport p f).reel.nextId = s.reel.nextId := by unfold State.modRport; split <;> rfl
@[simp] theorem State.modRport_forwarded : (s.modRport p f).reel.forwarded = s.reel.forwarded := by
  unfold State.modRport; split <;> rfl
@[simp] theorem State.modRport_hdrCrc : (s.modRport p f).reel.hdrCrc = s.reel.hdrCrc := by unfold State.modRport; split <;> rfl

end rport

/-- A port is read from the reel engine's own records. -/
theorem State.rport_congr {s t : State} (h : t.reel = s.reel) (p : Nat) : t.rport p = s.rport p := by rw [State.rport, h]; rfl

theorem portOf_lt (p : Bool) : portOf p < 2 := by cases p <;> decide

/-! ### Rounds -/

theorem State.round_congr {s t : State} (h : t.reel.rounds = s.reel.rounds) (r : Nat) : t.round r = s.round r := by
  rw [State.round, h]; rfl

section round
variable (s : State) {r : Nat} (f : Round → Round)

@[simp] theorem State.round_modRound (hr : r < 4) : (s.modRound r f).round r = f (s.round r) := by
  simp [State.round, State.modRound, hr]

theorem State.round_modRound_ne {r' : Nat} (h : r ≠ r') : (s.modRound r f).round r' = s.round r' := by
  simp [State.round, State.modRound, h]

@[simp] theorem State.modRound_rport (p : Nat) : (s.modRound r f).rport p = s.rport p := rfl
@[simp] theorem State.modRound_forwarded : (s.modRound r f).reel.forwarded = s.reel.forwarded := rfl
@[simp] theorem State.modRound_blocks : (s.modRound r f).reel.blocks = s.reel.blocks := rfl

/-- A round that is open has one of the four channels. -/
theorem State.round_lt (h : (s.round r).opened = true) : r < 4 := by
  by_contra hr
  simp [State.round, Vector.getElem?_eq_none (Nat.le_of_not_lt hr), Round.reset] at h

end round

/-- What closing makes of a round (R313, R327). -/
def Round.closed (x : Round) : Round :=
  let y := { x with injected := x.injected || (x.opened && x.left.isEmpty && !x.lost) }
  if x.opened && x.left.isEmpty && x.steps.all (·.outcome.isSome) then { y with opened := false } else y

theorem State.closeRound_eq (s : State) (r : Nat) : s.closeRound r = s.modRound r Round.closed := rfl

section closed
variable (x : Round)

@[simp] theorem Round.closed_steps : x.closed.steps = x.steps := by unfold Round.closed; dsimp only; split <;> rfl
@[simp] theorem Round.closed_left : x.closed.left = x.left := by unfold Round.closed; dsimp only; split <;> rfl
@[simp] theorem Round.closed_began : x.closed.began = x.began := by unfold Round.closed; dsimp only; split <;> rfl
@[simp] theorem Round.closed_mode : x.closed.mode = x.mode := by unfold Round.closed; dsimp only; split <;> rfl
@[simp] theorem Round.closed_n : x.closed.n = x.n := by unfold Round.closed; dsimp only; split <;> rfl

theorem Round.closed_opened : x.closed.opened = (x.opened && !(x.left.isEmpty && x.steps.all (·.outcome.isSome))) := by
  unfold Round.closed
  dsimp only
  rw [Bool.and_assoc]
  split
  next h => rw [(Bool.and_eq_true_iff.1 h).2, Bool.not_true, Bool.and_false]
  next h =>
    cases ho : x.opened with
    | false => rfl
    | true =>
      rw [ho, Bool.true_and, Bool.not_eq_true] at h
      rw [h]
      rfl

end closed

/-! ### What carrying bytes leaves alone (R316, R318) -/

/-- `t` is `s` with other ports and blocks, and after free values drawn. -/
def State.Carried (s t : State) : Prop :=
  t = { s with free := t.free, reel := { s.reel with portA := t.reel.portA, portB := t.reel.portB, blocks := t.reel.blocks } }

namespace State.Carried
variable {s t u : State}

theorem refl (s : State) : s.Carried s := rfl

theorem trans (hst : s.Carried t) (htu : t.Carried u) : s.Carried u := by
  refine Eq.trans htu ?_
  exact congrArg (fun t : State => { t with
    free := u.free, reel := { t.reel with portA := u.reel.portA, portB := u.reel.portB, blocks := u.reel.blocks } }) hst

theorem ite {c : Prop} [Decidable c] (ht : s.Carried t) (hu : s.Carried u) : s.Carried (if c then t else u) := by
  split
  · exact ht
  · exact hu

theorem modRport (s : State) (p : Nat) (f : ReelPort → ReelPort) : s.Carried (s.modRport p f) := by
  unfold State.modRport; exact ite rfl rfl

theorem gotUnits (s : State) (b : Blk) (n : Nat) : s.Carried (s.gotUnits b n) :=
  trans (t := { s with reel := { s.reel with blocks := _ } }) rfl (modRport ..)

theorem freeBlocks (s : State) : s.Carried s.freeBlocks := rfl

theorem setBlk (s : State) (id : Nat) (st : BlkState) : s.Carried (s.setBlk id st) := rfl

theorem queueForward (s : State) (b : Blk) : s.Carried (s.queueForward b) := by
  unfold State.queueForward
  exact ite (refl s) (ite (modRport ..) (refl s))

theorem arrive (s : State) (p : Nat) : s.Carried (s.arrive p) := by
  unfold State.arrive
  split
  · exact trans (t := s.draw.2) rfl (gotUnits ..)
  · exact refl s

theorem cutBlock (s : State) (p : Nat) : s.Carried (s.cutBlock p) := by
  unfold State.cutBlock
  split
  · exact refl s
  · rfl

theorem beside (h : s.Carried t) : s.Beside t := .of_eq (by rw [h])
theorem rounds (h : s.Carried t) : t.reel.rounds = s.reel.rounds := by rw [h]
theorem nextId (h : s.Carried t) : t.reel.nextId = s.reel.nextId := by rw [h]
theorem hdrCrc (h : s.Carried t) : t.reel.hdrCrc = s.reel.hdrCrc := by rw [h]
theorem now (h : s.Carried t) : t.now = s.now := by rw [h]; rfl
theorem setting (h : s.Carried t) (id : Nat) : t.setting id = s.setting id := by rw [h]; rfl

end State.Carried

@[simp] theorem State.freeBlocks_rport (s : State) (p : Nat) : s.freeBlocks.rport p = s.rport p := rfl

@[simp] theorem State.queueForward_blocks (s : State) (b : Blk) : (s.queueForward b).reel.blocks = s.reel.blocks := by
  unfold State.queueForward
  split
  · rfl
  · dsimp only
    split
    · exact State.modRport_blocks ..
    · rfl

theorem State.Logged.reel {s t : State} (h : s.Logged t) : t.reel = s.reel := by obtain ⟨_, _, _, rfl⟩ := h; rfl

theorem State.Beside.modRound {s t : State} (h : s.Beside t) (r : Nat) (f : Round → Round) : s.Beside (t.modRound r f) :=
  h.trans (.of_eq rfl)

theorem State.Beside.setBlk {s t : State} (h : s.Beside t) (id : Nat) (st : BlkState) : s.Beside (t.setBlk id st) :=
  h.trans (.of_eq rfl)

theorem State.Beside.live {s t : State} (h : s.Beside t) : t.live = s.live := by rw [h.1]; rfl

/-- The answer of a command of a live block whose effect lies beside the slices. -/
theorem State.Beside.act {s t : State} (h : s.Beside t) (hl : s.live = true) : act s t = .next t := act_live s t hl h.pending h.chip

end Sys2Proof.Machine
end

section
/-! SUPPORT. Headers that arrive (R314 to R318, R321, R324). -/

namespace Sys2Proof.Machine

/-! ### The block before is whole, and the header is counted (R318, R327) -/

/-- The state in which the CRC of a header is checked. -/
def State.beforeHeader (s : State) (p : Nat) : State :=
  (match s.inProgress p with | some b => (s.arriveWhole b).freeBlocks | none => s).modRport p fun x => { x with rx := x.rx + 64 }

theorem State.Carried.beforeHeader (s : State) (p : Nat) : s.Carried (s.beforeHeader p) := by
  refine trans ?_ (modRport ..)
  split
  · exact (gotUnits ..).trans (freeBlocks _)
  · exact refl s

/-- With no block in progress, only the count of the port changes. -/
theorem State.beforeHeader_idle {s : State} {p : Nat} (h : s.inProgress p = none) :
    s.beforeHeader p = s.modRport p fun x => { x with rx := x.rx + 64 } := by
  unfold State.beforeHeader; rw [h]

/-- A block whose header has just arrived (R316). -/
def State.newBlk (s : State) (p : Nat) (h : List Byte) : Blk := ⟨s.reel.nextId, p, h, .passing, 1, 0⟩

/-- The state with that block among the others. -/
def State.withNewBlk (s : State) (p : Nat) (h : List Byte) : State :=
  { s with reel := { s.reel with blocks := s.reel.blocks ++ [s.newBlk p h], nextId := s.reel.nextId + 1 } }

/-- What a header with a bad CRC leaves (R324, R327). -/
def State.dropHeader (s : State) (p : Nat) (h : List Byte) : State :=
  let x := s.draw
  ((({ x.2 with reel := { x.2.reel with hdrCrc := sat16 x.2.reel.hdrCrc 1 } }).modRport p fun y =>
    { y with rx := y.rx + BitVec.ofNat 64 (64 * x.1) }).logReel 3 (fieldOf h 4 1 % 4) p 0 (fieldOf h 16 4) (fieldOf h 40 8)).irqSet 5

section header
variable {s : State} {p : Nat} {h : List Byte}

theorem State.headerIn_down (hup : (s.rport p).up = false) : s.headerIn p h = s := by
  unfold State.headerIn; rw [hup]; rfl

theorem State.headerIn_bad (hup : (s.rport p).up = true) (hcrc : fieldOf h 60 4 ≠ crc32 (h.take 60)) :
    s.headerIn p h = (s.beforeHeader p).dropHeader p h := by
  unfold State.headerIn
  rw [hup, if_neg (by decide)]
  exact if_pos hcrc

end header

theorem State.Beside.dropHeader {s t : State} (hst : s.Beside t) (p : Nat) (h : List Byte) : s.Beside (t.dropHeader p h) :=
  (((hst.draw.trans (.of_eq rfl)).modRport ..).logReel ..).irqSet 5

/-- A bad header is counted and told; the rounds, the blocks and their numbers stay (R324, R327). -/
theorem State.dropHeader_reel (s : State) (p : Nat) (h : List Byte) : ∃ n,
    (s.dropHeader p h).reel = (({ s with reel := { s.reel with hdrCrc := sat16 s.reel.hdrCrc 1 } }).modRport p fun y =>
      { y with rx := y.rx + BitVec.ofNat 64 (64 * n) }).reel := by
  have hlog : ∀ t : State, ((t.logReel 3 (fieldOf h 4 1 % 4) p 0 (fieldOf h 16 4) (fieldOf h 40 8)).irqSet 5).reel = t.reel :=
    fun t => ((State.Logged.log ..).trans (.irqSet ..)).reel
  refine ⟨s.draw.1, (hlog _).trans ?_⟩
  unfold State.modRport
  split <;> rfl

/-! ### The payload that has arrived with it (R318) -/

theorem State.inProgress_of_last {s : State} {p : Nat} {l : List Blk} {b : Blk} (hl : s.reel.blocks = l ++ [b]) (hp : b.port = p) :
    s.inProgress p = if b.whole then none else some b := by
  simp [State.inProgress, hl, hp]

/-- Of a block that has just begun, some units may have arrived, and they are counted. -/
theorem State.arrive_last {s : State} {p : Nat} {l : List Blk} {b : Blk} (hl : s.reel.blocks = l ++ [b]) (hp : b.port = p) :
    ∃ n, n ≤ b.total - b.got ∧ { b with got := b.got + n } ∈ (s.arrive p).reel.blocks ∧
      ((s.arrive p).rport p).rx = (s.rport p).rx + BitVec.ofNat 64 (64 * n) := by
  have hmem : b ∈ s.reel.blocks := by rw [hl]; exact List.mem_append_right _ (List.mem_singleton_self b)
  unfold State.arrive
  rw [State.inProgress_of_last hl hp]
  by_cases hw : b.whole = true
  · rw [if_pos hw]
    exact ⟨0, Nat.zero_le _, hmem, by simp⟩
  · rw [if_neg hw]
    refine ⟨s.draw.1 % (min (b.total - b.got) (s.bufferSpace p) + 1), ?_, ?_, ?_⟩
    · exact (Nat.le_of_lt_succ (Nat.mod_lt _ (Nat.succ_pos _))).trans (Nat.min_le_left ..)
    · simp only [State.gotUnits, State.modRport_blocks]
      exact List.mem_map.2 ⟨b, hmem, if_pos rfl⟩
    · rw [← hp]
      exact congrArg ReelPort.rx (State.rport_modRport _ b.port _)

/-- The state in which the tee decides on the block of a good header. -/
def State.beforeTee (s : State) (p : Nat) (h : List Byte) : State := ((s.beforeHeader p).withNewBlk p h).arrive p

section beforeTee
variable (s : State) (p : Nat) (h : List Byte)

theorem State.Beside.beforeTee : s.Beside (s.beforeTee p h) :=
  ((State.Carried.beforeHeader s p).beside.trans (.of_eq rfl)).trans (State.Carried.arrive _ p).beside

theorem State.beforeTee_rounds : (s.beforeTee p h).reel.rounds = s.reel.rounds :=
  (State.Carried.arrive _ p).rounds.trans (State.Carried.beforeHeader s p).rounds

theorem State.beforeTee_nextId : (s.beforeTee p h).reel.nextId = s.reel.nextId + 1 :=
  (State.Carried.arrive _ p).nextId.trans (congrArg (· + 1) (State.Carried.beforeHeader s p).nextId)

theorem State.beforeTee_now : (s.beforeTee p h).now = s.now := (State.Carried.arrive _ p).now.trans (State.Carried.beforeHeader s p).now

theorem State.beforeTee_setting (id : Nat) : (s.beforeTee p h).setting id = s.setting id :=
  ((State.Carried.arrive _ p).setting id).trans ((State.Carried.beforeHeader s p).setting id)

theorem State.beforeHeader_newBlk : (s.beforeHeader p).newBlk p h = s.newBlk p h := by
  rw [State.newBlk, (State.Carried.beforeHeader s p).nextId]; rfl

/-- The block is there, with the units of its payload that have arrived. -/
theorem State.beforeTee_blk : ∃ n, n ≤ payloadBytes h / 64 ∧
    (⟨s.reel.nextId, p, h, .passing, 1 + n, 0⟩ : Blk) ∈ (s.beforeTee p h).reel.blocks ∧
      (s.inProgress p = none → ((s.beforeTee p h).rport p).rx = (s.rport p).rx + 64 + BitVec.ofNat 64 (64 * n)) := by
  obtain ⟨n, hn, hmem, hrx⟩ := State.arrive_last (s := (s.beforeHeader p).withNewBlk p h) (p := p)
    (b := (s.beforeHeader p).newBlk p h) rfl rfl
  refine ⟨n, ?_, ?_, fun hidle => ?_⟩
  · exact hn.trans_eq (Nat.add_sub_cancel_left ..)
  · rw [← (State.Carried.beforeHeader s p).nextId]
    exact hmem
  · refine hrx.trans ?_
    rw [show ((s.beforeHeader p).withNewBlk p h).rport p = (s.beforeHeader p).rport p from rfl, State.beforeHeader_idle hidle,
      State.rport_modRport]

theorem State.headerIn_good (hup : (s.rport p).up = true) (hcrc : fieldOf h 60 4 = crc32 (h.take 60)) :
    s.headerIn p h = (s.beforeTee p h).teeBlock (s.newBlk p h) := by
  rw [← s.beforeHeader_newBlk]
  unfold State.headerIn
  rw [hup, if_neg (by decide)]
  exact if_neg (not_not.2 hcrc)

end beforeTee

/-! ### The tee's decision (R316, R317, R321, R324) -/

theorem State.mem_setBlk {s : State} {b : Blk} (h : b ∈ s.reel.blocks) (st : BlkState) :
    { b with state := st } ∈ (s.setBlk b.id st).reel.blocks :=
  List.mem_map.2 ⟨b, h, if_pos rfl⟩

section tee
variable {s : State} {b : Blk} {h : List Byte} {r : Round} (hb : b.hdr = h) (hr : s.round (fieldOf h 4 1 % 4) = r)
include hb hr

/-- A block of a channel without an open round is held. -/
theorem State.teeBlock_held (hopen : r.opened = false) : s.teeBlock b = s.setBlk b.id (.held (s.now + s.setting 0x0302)) := by
  subst hb hr
  simp [State.teeBlock, hopen]

/-- A block of a step that is still to land, in the round that is open: where no mask excludes it and its slot is free, it lands. -/
theorem State.teeBlock_lands {k : Nat} (hstep : r.stepOf (fieldOf h 6 2) = k) (hopen : r.opened = true)
    (hnum : fieldOf h 16 4 = r.round) (hsize : fieldOf h 8 2 = r.n) (hmode : (if fieldOf h 5 1 / 2 % 2 = 1 then 2 else 1) = r.mode)
    (hk : k ≠ 0) (hout : (r.step k).outcome = none) (hfwd : r.fwdOnly = false) (hdis : r.disagrees h = false)
    (hmask : r.maskPasses (fieldOf h 20 4) (fieldOf h 24 4) = true) (hfree : r.slotFree k = true) : s.teeBlock b =
      ((s.modRound (fieldOf h 4 1 % 4) fun r => r.modStep k fun y => y.withHeader h).setBlk b.id (.landing k)).queueForward b := by
  subst hb hr hstep
  unfold State.teeBlock
  dsimp only
  rw [if_pos ⟨hopen, hnum, hsize, hmode⟩, if_neg (by simp [hout, hk]), if_neg (by simp [hfwd]), if_neg (by simp [hdis]),
    if_neg (by simp [hmask]), if_pos hfree]

end tee

/-! ### The statement -/

/-- Settles O36: the header is counted, and the tee decides on the block that it begins. -/
theorem reelHeaders : Obligations.ReelHeaders := by
  unfold Obligations.ReelHeaders
  intro s p h hl q rch r k good
  have hexec : exec (.reelHeaderArrive p h) s = act s (s.headerIn (portOf p) h) := rfl
  have hbefore := State.Carried.beforeHeader s (portOf p)
  have hgood : good = true → fieldOf h 60 4 = crc32 (h.take 60) := beq_iff_eq.1
  rw [hexec]
  refine ⟨fun hup => ?down, fun hup hbad => ?bad, fun hup hok hclosed => ?held, ?landing⟩
  case down =>
    rw [State.headerIn_down hup]
    exact (State.Beside.refl s).act hl
  case bad =>
    rw [State.headerIn_bad hup (beq_eq_false_iff_ne.1 hbad)]
    obtain ⟨n, hreel⟩ := (s.beforeHeader (portOf p)).dropHeader_reel (portOf p) h
    refine ⟨_, (hbefore.beside.dropHeader (portOf p) h).act hl, ?_, State.irqSet_status _ (by decide), ?_, ?_, fun hidle => ⟨?_, n, ?_⟩⟩
    · rw [hreel, State.modRport_hdrCrc, hbefore.hdrCrc]
    · rw [hreel, State.modRport_rounds]; exact hbefore.rounds
    · rw [hreel, State.modRport_nextId]; exact hbefore.nextId
    · rw [hreel, State.modRport_blocks, State.beforeHeader_idle hidle]
      exact State.modRport_blocks ..
    · rw [State.rport_congr hreel, State.rport_modRport, State.beforeHeader_idle hidle]
      exact congrArg (fun x : ReelPort => { x with rx := x.rx + BitVec.ofNat 64 (64 * n) }) (State.rport_modRport ..)
  case held =>
    obtain ⟨n, hn, hmem, hrx⟩ := s.beforeTee_blk (portOf p) h
    have hround : (s.beforeTee (portOf p) h).round rch = r := State.round_congr (s.beforeTee_rounds (portOf p) h) rch
    rw [s.headerIn_good _ h hup (hgood hok), State.teeBlock_held (h := h) rfl hround hclosed]
    have hset := State.Carried.setBlk (s.beforeTee (portOf p) h) (s.newBlk (portOf p) h).id (.held (s.now + s.setting 0x0302))
    rw [s.beforeTee_now, s.beforeTee_setting]
    refine ⟨_, n, ((State.Beside.beforeTee s (portOf p) h).setBlk _ _).act hl, State.mem_setBlk hmem _, hn,
      hset.rounds.trans (s.beforeTee_rounds ..), hset.nextId.trans (s.beforeTee_nextId ..), hrx⟩
  case landing =>
    intro hup hok hopen hnum hsize hmode hk hout hfwd hdis hmask hfree
    obtain ⟨n, hn, hmem, -⟩ := s.beforeTee_blk (portOf p) h
    have hround : (s.beforeTee (portOf p) h).round rch = r := State.round_congr (s.beforeTee_rounds (portOf p) h) rch
    rw [s.headerIn_good _ h hup (hgood hok),
      State.teeBlock_lands (h := h) (k := k) rfl hround rfl hopen hnum hsize hmode hk hout hfwd hdis hmask hfree]
    refine ⟨_, n, ((((State.Beside.beforeTee s (portOf p) h).modRound _ _).setBlk _ _).queueForward _).act hl, ?_, hn⟩
    rw [State.queueForward_blocks]
    exact State.mem_setBlk (b := ⟨s.reel.nextId, portOf p, h, .passing, 1 + n, 0⟩) hmem (.landing k)

end Sys2Proof.Machine
end

section
/-! SUPPORT. A RELEASE that writes external memory: it ends a landing that waits on a forward-only round, and the entry of that outcome
spills (R321, R325, R382). -/

namespace Sys2Proof.Machine

/-- A round of two chips, open and forward-only, whose one foreign step has no outcome yet. -/
def forwardOnlyRound : Round :=
  { Round.reset with opened := true, fwdOnly := true, mode := 1, n := 2, left := [0], steps := [⟨1, none, false, 0, 0, 0, 0⟩] }

/-- A block of that round's step 1, without payload, that waits for its slot. -/
def waitingBlk : Blk := ⟨0, 1, List.replicate 64 0, .waiting 1 1000, 1, 0⟩

/-- RELEASE of the step that counter C0 names, on channel 0. -/
def releaseC0 : Fields := ⟨0, 0xFFF, 0xFFF, 0xFFF, 0xFFF, 0, false, false, 0⟩

/-- A running slice whose counters hold 1. -/
def releasingSlice : Slice := { Slice.reset with state := .running, seq := { Seq.reset with cnt := Vector.replicate 8 1 } }

/-- The block with that slice, round and waiting block, while entries spill. -/
def releasingState : State :=
  { State.reset.setSl 0 releasingSlice with
    reel := { Reel.reset with rounds := Reel.reset.rounds.set 0 forwardOnlyRound, blocks := [waitingBlk], nextId := 1 }
    sheet := spillSheet }

theorem releasingState_sl : releasingState.sl 0 = releasingSlice := State.sl_setSl State.reset 0 _ (by decide)

/-- The slot's release wakes the landing that waits; its round takes no more, so its step ends MISSED, and that entry spills. -/
theorem releasingState_spills : (match exec (.release 0 releaseC0) releasingState with
    | .next t => decide (t.ext = releasingState.ext) | _ => true) = false := by decide +kernel

/-- Refutes O37: its last part lets a RELEASE leave external memory as it is, and no premise of it says that no landing waits on a
forward-only round, or that entries do not spill. -/
theorem not_reelArrivals : ¬ Obligations.ReelArrivals := by
  unfold Obligations.ReelArrivals releaseRuns
  rintro ⟨-, -, hrelease⟩
  have hsl : releasingState.sl (0 : SliceId).val = releasingSlice := releasingState_sl
  obtain ⟨ok, hok⟩ : ∃ ok, (releasingState.issueCheck (0 : SliceId).val 0xA2 releaseC0 false).toOption = some ok :=
    Option.isSome_iff_exists.1 (by decide +kernel)
  obtain ⟨t, hexec, -, -, -, -, -, -, hext⟩ := hrelease releasingState 0 releaseC0 ok (by decide +kernel) (by decide +kernel)
    (by decide +kernel) hok (by rw [hsl]; decide) (by rw [hsl]; decide) rfl (by rw [hsl]; intro e he; cases he) (by decide +kernel)
    (by rw [hsl]; decide) (by rw [hsl]; decide +kernel)
  have hspills := releasingState_spills
  rw [hexec] at hspills
  exact absurd hext (of_decide_eq_false hspills)

end Sys2Proof.Machine
end

section
/-! SUPPORT. What the outbound directions send (R312, R313, R315, R316, R318, R403). -/

namespace Sys2Proof.Machine

/-! ### Sending the current item (R318, R403) -/

/-- A port that sends `m` units, and has `cur` to send after them. -/
def ReelPort.send (x : ReelPort) (m : Nat) (cur : Option OutItem) : ReelPort :=
  { x with credits := x.credits - m, tx := x.tx + BitVec.ofNat 64 (64 * m), aborted := x.aborted && m == 0, cur := cur }

/-- What can be sent depends on the blocks alone. -/
theorem sendable_congr {s t : State} (h : t.reel.blocks = s.reel.blocks) (o : OutItem) (c : Nat) : sendable t o c = sendable s o c := by
  unfold sendable; rw [h]

section pump
variable {s : State} {p : Nat} {o : OutItem}

theorem State.pump_idle (h : (s.rport p).cur = none) : s.pump p = s := by unfold State.pump; simp only [h]

/-- The units that have left, and what follows once the item has left whole. -/
theorem State.pump_sends (h : (s.rport p).cur = some o) {m : Nat} (hm : m = sendable s o (s.rport p).credits) :
    s.pump p =
      let t := s.modRport p fun x => x.send m (if o.units - m = 0 then none else some { o with units := o.units - m })
      if o.units - m ≠ 0 then t
      else if o.isFwd then ({ t with reel := { t.reel with forwarded := sat32 t.reel.forwarded 1 } }).freeBlocks
      else (t.modRound o.round fun r => { r with left := r.left.filter (· != p) }).closeRound o.round := by
  subst hm
  unfold State.pump
  simp only [h]
  rfl

theorem State.pump_part (h : (s.rport p).cur = some o) {m : Nat} (hm : m = sendable s o (s.rport p).credits) (hlt : m < o.units) :
    s.pump p = s.modRport p fun x => x.send m (some { o with units := o.units - m }) := by
  have hrest : o.units - m ≠ 0 := by omega
  rw [State.pump_sends h hm]
  simp only [if_neg hrest, if_pos hrest]

end pump

/-! ### The next block starts (R312, R315, R316) -/

/-- The header of what a direction starts to send: a block that is forwarded is a hop on (R314, R315). -/
def State.outHeader (s : State) (p : Nat) (o : OutItem) : List Byte :=
  if o.isFwd then hopHeader (((s.reel.blocks.find? (fun b => b.id == o.id)).map (·.hdr)).getD [])
  else (s.round o.round).header o.round p s.now

/-- An injection's round has begun once it starts (R312). -/
def State.began (s : State) (o : OutItem) : State := if o.isFwd then s else s.modRound o.round fun r => { r with began := true }

@[simp] theorem State.began_rport (s : State) (o : OutItem) (p : Nat) : (s.began o).rport p = s.rport p := by
  unfold State.began; split <;> rfl

@[simp] theorem State.began_blocks (s : State) (o : OutItem) : (s.began o).reel.blocks = s.reel.blocks := by
  unfold State.began; split <;> rfl

/-- A port that starts to send the head of its queue. -/
def ReelPort.start (x : ReelPort) (o : OutItem) (rest : List OutItem) (hdr : List Byte) : ReelPort :=
  { x with cur := some o, queue := rest, lastHdr := hdr }

section start
variable {s : State} {p : Nat} {o : OutItem} {rest : List OutItem}

theorem State.startOut_idle
    (h : (s.rport p).up = false ∨ (s.rport p).credits = 0 ∨ (s.rport p).cur ≠ none ∨ (s.rport p).queue = []) : s.startOut p = s := by
  unfold State.startOut
  dsimp only
  split
  next hcur hqueue =>
    rw [if_pos]
    rcases h with h | h | h | h
    · exact .inl (by rw [h]; rfl)
    · exact .inr h
    · exact absurd hcur h
    · rw [h] at hqueue; cases hqueue
  next => rfl

variable (hup : (s.rport p).up = true) (hcur : (s.rport p).cur = none) (hqueue : (s.rport p).queue = o :: rest)
  (hcredits : 0 < (s.rport p).credits)
include hup hcur hqueue hcredits

theorem State.startOut_starts :
    s.startOut p = ((s.began o).modRport p fun x => x.start o rest (s.outHeader p o)).pump p := by
  unfold State.startOut
  simp only [hcur, hqueue]
  rw [if_neg (by rw [hup]; simp [hcredits.ne'])]
  rfl

variable {m : Nat} (hm : m = sendable s o (s.rport p).credits)
include hm

/-- The direction's port, the rounds and the blocks after the start; an injection that has left whole has left its round. -/
theorem State.startOut_sends : s.startOut p =
    let t := (s.began o).modRport p fun x => (x.start o rest (s.outHeader p o)).send m
      (if o.units - m = 0 then none else some { o with units := o.units - m })
    if o.units - m ≠ 0 then t
    else if o.isFwd then ({ t with reel := { t.reel with forwarded := sat32 t.reel.forwarded 1 } }).freeBlocks
    else (t.modRound o.round fun r => { r with left := r.left.filter (· != p) }).closeRound o.round := by
  rw [State.startOut_starts hup hcur hqueue hcredits, State.pump_sends (o := o) (m := m), State.modRport_modRport]
  · rw [State.rport_modRport]; rfl
  · rw [hm, sendable_congr ((State.modRport_blocks ..).trans (s.began_blocks o)), State.rport_modRport, State.began_rport]; rfl

theorem State.startOut_part (hlt : m < o.units) : s.startOut p = (s.began o).modRport p fun _ =>
    ((s.rport p).start o rest (s.outHeader p o)).send m (some { o with units := o.units - m }) := by
  have hrest : o.units - m ≠ 0 := by omega
  rw [State.startOut_sends hup hcur hqueue hcredits hm]
  simp only [if_neg hrest, if_pos hrest]
  exact State.modRport_congr _ _ (by rw [State.began_rport])

theorem State.startOut_forwards (hall : m = o.units) (hfwd : o.isFwd = true) :
    (s.startOut p).reel.forwarded = sat32 s.reel.forwarded 1 ∧
      (s.startOut p).rport p = ((s.rport p).start o rest (s.outHeader p o)).send m none ∧
      (s.startOut p).reel.rounds = s.reel.rounds := by
  have hbegan : s.began o = s := by unfold State.began; rw [if_pos hfwd]
  have hrest : o.units - m = 0 := by omega
  rw [State.startOut_sends hup hcur hqueue hcredits hm, hbegan]
  simp only [hrest, ne_eq, not_true_eq_false, if_false, if_true, hfwd]
  exact ⟨congrArg (sat32 · 1) (State.modRport_forwarded ..), State.rport_modRport .., State.modRport_rounds ..⟩

theorem State.startOut_injects (hall : m = o.units) (hfwd : o.isFwd = false) (hround : o.round < 4) :
    (s.startOut p).rport p = ((s.rport p).start o rest (s.outHeader p o)).send m none ∧
      (s.startOut p).reel.forwarded = s.reel.forwarded ∧ (s.startOut p).reel.blocks = s.reel.blocks ∧
      (s.startOut p).round o.round = Round.closed
        { s.round o.round with began := true, left := (s.round o.round).left.filter (· != p) } := by
  have hbegan : s.began o = s.modRound o.round fun r => { r with began := true } := by
    unfold State.began; rw [if_neg (by rw [hfwd]; decide)]
  have hrest : o.units - m = 0 := by omega
  rw [State.startOut_sends hup hcur hqueue hcredits hm, hbegan]
  simp only [hrest, ne_eq, not_true_eq_false, if_false, if_true, hfwd, Bool.false_eq_true, State.closeRound_eq, State.modRound_rport,
    State.modRound_blocks, State.modRound_forwarded, State.rport_modRport, State.modRport_forwarded, State.modRport_blocks, true_and]
  rw [State.round_modRound _ _ hround, State.round_modRound _ _ hround, State.round_congr (State.modRport_rounds ..),
    State.round_modRound _ _ hround]

end start

theorem State.Beside.pump {s t : State} (h : s.Beside t) (p : Nat) : s.Beside (t.pump p) := by
  unfold State.pump
  dsimp only
  split
  · exact h
  · exact ite (h.modRport ..) (ite ((h.modRport ..).trans (.of_eq rfl)) (((h.modRport ..).modRound ..).closeRound _))

theorem State.Beside.startOut {s t : State} (h : s.Beside t) (p : Nat) : s.Beside (t.startOut p) := by
  unfold State.startOut
  dsimp only
  split
  · exact ite h (((ite h (h.modRound ..)).modRport ..).pump p)
  · exact h

/-! ### Credits that come back (R403) -/

/-- A port to which `n` credits come back. -/
def ReelPort.credit (x : ReelPort) (n : Nat) : ReelPort := { x with credits := min 65535 (x.credits + n) }

/-- Credits come back to a link that is up: what is being sent goes on, else an injection may start. -/
def State.creditsBack (s : State) (p n : Nat) : State := ((s.modRport p (·.credit n)).pump p).startInjection p

section credit
variable {s : State} {p : Nat}

theorem State.startInjection_none (h : ∀ o, (s.rport p).queue.head? = some o → o.isFwd = true) : s.startInjection p = s := by
  unfold State.startInjection
  rw [if_neg]
  cases hq : (s.rport p).queue.head? with
  | none => simp
  | some o => simp [h o hq]

theorem State.startInjection_busy (h : (s.rport p).cur ≠ none) : s.startInjection p = s := by
  unfold State.startInjection
  split
  · exact State.startOut_idle (.inr (.inr (.inl h)))
  · rfl

theorem State.startInjection_starts {o : OutItem} {rest : List OutItem} (hqueue : (s.rport p).queue = o :: rest)
    (hfwd : o.isFwd = false) : s.startInjection p = s.startOut p := by
  unfold State.startInjection
  rw [if_pos (by simp [hqueue, hfwd])]

/-- Nothing is sent where nothing is being sent: the credits are kept. -/
theorem State.creditsBack_idle (n : Nat) (h : (s.rport p).cur = none) :
    s.creditsBack p n = (s.modRport p (·.credit n)).startInjection p := by
  unfold State.creditsBack
  rw [State.pump_idle (by rw [State.rport_modRport]; exact h)]

/-- A block that waits for credits goes on; while it is not all sent, nothing else starts. -/
theorem State.creditsBack_part {o : OutItem} {n : Nat} (hcur : (s.rport p).cur = some o) {m : Nat}
    (hm : m = sendable s o ((s.rport p).credit n).credits) (hlt : m < o.units) :
    s.creditsBack p n = s.modRport p fun _ => ((s.rport p).credit n).send m (some { o with units := o.units - m }) := by
  unfold State.creditsBack
  rw [State.pump_part (o := o) (m := m) (by rw [State.rport_modRport]; exact hcur)
    (by rw [State.rport_modRport, sendable_congr (State.modRport_blocks ..)]; exact hm) hlt, State.modRport_modRport,
    State.startInjection_busy (by rw [State.rport_modRport]; exact Option.some_ne_none _)]
  exact State.modRport_congr _ _ rfl

end credit

theorem State.Beside.startInjection {s t : State} (h : s.Beside t) (p : Nat) : s.Beside (t.startInjection p) := ite (h.startOut p) h

/-! ### The statement's clauses -/

theorem exec_reelForwardStart {s : State} (hl : s.live = true) (p : Bool) :
    exec (.reelForwardStart p) s = .next (s.startOut (portOf p)) :=
  ((State.Beside.refl s).startOut (portOf p)).act hl

theorem exec_reelCreditReturn (s : State) (p : Bool) (n : BitVec 5) : exec (.reelCreditReturn p n) s =
    act s (if !(s.rport (portOf p)).up then s else s.creditsBack (portOf p) n.toNat) := rfl

theorem exec_reelCreditReturn_down {s : State} (hl : s.live = true) {p : Bool} (n : BitVec 5) (hup : (s.rport (portOf p)).up = false) :
    exec (.reelCreditReturn p n) s = .next s := by
  rw [exec_reelCreditReturn, hup]
  exact (State.Beside.refl s).act hl

theorem exec_reelCreditReturn_up {s : State} (hl : s.live = true) {p : Bool} (n : BitVec 5) (hup : (s.rport (portOf p)).up = true) :
    exec (.reelCreditReturn p n) s = .next (s.creditsBack (portOf p) n.toNat) := by
  rw [exec_reelCreditReturn, hup]
  exact ((((State.Beside.refl s).modRport ..).pump _).startInjection _).act hl

/-- Each outbound direction sends what its credits and the blocks' bytes allow (R312, R313, R315, R316, R318, R403). -/
theorem reelSends_holds : reelSends := by
  unfold reelSends
  intro s p n hl q
  rw [exec_reelForwardStart hl]
  refine ⟨fun hidle => ?idle, fun o rest hup hcur hqueue hcredits _ => ?starts, fun hdown => ?down,
    fun hup hcur hfwd => ?kept, fun o rest hup hcur hqueue hfwd => ?injection, fun o hup hcur hnone hlt => ?part⟩
  case idle => rw [State.startOut_idle hidle]
  case starts =>
    refine ⟨fun hlt => ?_, fun hall hfwd => ?_, fun hall hfwd hround => ?_⟩
    · rw [State.startOut_part hup hcur hqueue hcredits rfl hlt]
      rfl
    · exact ⟨_, rfl, State.startOut_forwards hup hcur hqueue hcredits rfl hall hfwd⟩
    · obtain ⟨hport, hcount, hblocks, hleft⟩ := State.startOut_injects hup hcur hqueue hcredits rfl hall hfwd hround
      refine ⟨_, rfl, hport, hcount, hblocks, ?_⟩
      rw [hleft]
      exact ⟨Round.closed_began _, Round.closed_left _, Round.closed_opened _⟩
  case down => exact exec_reelCreditReturn_down hl n hdown
  case kept =>
    rw [exec_reelCreditReturn_up hl n hup, State.creditsBack_idle _ hcur,
      State.startInjection_none (by rw [State.rport_modRport]; exact hfwd)]
    exact congrArg Host.Outcome.next (State.modRport_congr _ _ rfl)
  case injection =>
    have hcredit : s.modRport (portOf p) (·.credit n.toNat) = s.modRport (portOf p) fun _ => q.credit n.toNat :=
      State.modRport_congr _ _ rfl
    have hbeside : s.Beside (s.modRport (portOf p) fun _ => q.credit n.toNat) := (State.Beside.refl s).modRport ..
    rw [exec_reelCreditReturn_up hl n hup, State.creditsBack_idle _ hcur,
      State.startInjection_starts (by rw [State.rport_modRport]; exact hqueue) hfwd, hcredit]
    exact (exec_reelForwardStart (hbeside.live.trans hl) p).symm
  case part =>
    have hcredits : ((s.rport (portOf p)).credit n.toNat).credits = n.toNat := by
      unfold ReelPort.credit
      simp only [show (s.rport (portOf p)).credits = 0 from hnone]
      omega
    rw [exec_reelCreditReturn_up hl n hup, State.creditsBack_part hcur (m := sendable s o n.toNat) (by rw [hcredits]) hlt]
    refine congrArg Host.Outcome.next (State.modRport_congr _ _ ?_)
    unfold ReelPort.send
    rw [hcredits]
    rfl

end Sys2Proof.Machine
end

section
/-! SUPPORT. Outcomes of steps (R319): how a step gets one, that it keeps it, and what waking the landings leaves (R320, R321, R325). -/

namespace Sys2Proof.Machine

/-! ### Steps of a round -/

/-- The round with an outcome for step `k` (R319). -/
def Round.ended (x : Round) (k o now : Nat) : Round := x.modStep k fun y => { y with outcome := some o, arriveNs := now }

@[simp] theorem Round.closed_step (x : Round) (k : Nat) : x.closed.step k = x.step k := by rw [Round.step, Round.closed_steps]; rfl

theorem Round.closed_portOf (x : Round) (k : Nat) : x.closed.portOf k = x.portOf k := by
  unfold Round.portOf Round.isFwd Round.fwdHops
  rw [Round.closed_mode, Round.closed_n]

/-- A step that is of the round is found among its records. -/
theorem Round.find?_step {x : Round} {k : Nat} (h : x.steps.any (·.k == k) = true) :
    x.steps.find? (·.k == k) = some (x.step k) := by
  rw [← List.isSome_find?] at h
  obtain ⟨y, hy⟩ := Option.isSome_iff_exists.1 h
  rw [Round.step, hy]
  rfl

theorem Round.step_mem {x : Round} {k : Nat} (h : x.steps.any (·.k == k) = true) : x.step k ∈ x.steps ∧ (x.step k).k = k :=
  ⟨List.mem_of_find?_eq_some (x.find?_step h), by simpa using List.find?_some (x.find?_step h)⟩

section ended
variable (x : Round) (o now : Nat)

theorem Round.find?_ended (j k : Nat) : (x.ended j o now).steps.find? (·.k == k) =
    (x.steps.find? (·.k == k)).map fun y => if y.k = j then { y with outcome := some o, arriveNs := now } else y := by
  have hkey : ((fun y : StepRec => y.k == k) ∘ fun y => if y.k = j then { y with outcome := some o, arriveNs := now } else y) =
      fun y => y.k == k := by
    funext y
    dsimp only [Function.comp]
    split <;> rfl
  rw [Round.ended, Round.modStep, List.find?_map, hkey]

theorem Round.step_ended_same {k : Nat} (h : x.steps.any (·.k == k) = true) : ((x.ended k o now).step k).outcome = some o := by
  rw [Round.step, Round.find?_ended, x.find?_step h, Option.map_some, if_pos (x.step_mem h).2]
  rfl

theorem Round.step_ended_ne {j k : Nat} (h : j ≠ k) : (x.ended j o now).step k = x.step k := by
  rw [Round.step, Round.find?_ended, Round.step]
  cases hfind : x.steps.find? (·.k == k) with
  | none => rfl
  | some y =>
    have hyk : y.k = k := by simpa using List.find?_some hfind
    rw [Option.map_some, if_neg (by rw [hyk]; exact h.symm)]

theorem Round.any_ended (j k : Nat) : (x.ended j o now).steps.any (·.k == k) = x.steps.any (·.k == k) := by
  rw [← List.isSome_find?, ← List.isSome_find?, Round.find?_ended, Option.isSome_map]

/-- A round does not close while one of its steps has no outcome (R313). -/
theorem Round.closed_opened_of_open {x : Round} {k : Nat} (hopen : x.opened = true) (hany : x.steps.any (·.k == k) = true)
    (hout : (x.step k).outcome = none) : x.closed.opened = true := by
  have hall : x.steps.all (·.outcome.isSome) = false :=
    List.all_eq_false.2 ⟨x.step k, (x.step_mem hany).1, by rw [hout]; decide⟩
  rw [Round.closed_opened, hopen, hall, Bool.and_false]
  rfl

end ended

/-- Step `k` of channel `r` still has to arrive in the round that is open. -/
def State.Awaits (s : State) (r k : Nat) : Prop :=
  (s.round r).opened = true ∧ (s.round r).steps.any (·.k == k) = true ∧ ((s.round r).step k).outcome = none

/-- Step `k` of channel `r` has the outcome `o`. -/
def State.Ended (s : State) (r k o : Nat) : Prop := ((s.round r).step k).outcome = some o

/-! ### Giving an outcome (R313, R319, R327) -/

/-- The step's record and the counters with an outcome (R319, R327). -/
def State.recorded (s : State) (r k o : Nat) : State :=
  let t := s.modRound r fun x => x.ended k o s.now
  { t with reel := { t.reel with
      corrupt := if o = 3 then sat16 t.reel.corrupt 1 else t.reel.corrupt
      missed := if o = 4 then sat16 t.reel.missed 1 else t.reel.missed
      skipped := if o = 1 then sat32 t.reel.skipped 1 else t.reel.skipped } }

theorem State.recorded_round (s : State) (r k o j : Nat) : (s.recorded r k o).round j = (s.modRound r fun x => x.ended k o s.now).round j :=
  State.round_congr rfl j

section setOutcome
variable {s : State} {r k : Nat} (o inject : Nat)

theorem State.setOutcome_stays (h : ¬s.Awaits r k) : s.setOutcome r k o inject = s := by
  unfold State.setOutcome
  refine if_pos (by_contra fun hne => ?_)
  obtain ⟨hopen, hout, hany⟩ : (s.round r).opened = true ∧ ((s.round r).step k).outcome = none ∧
      (s.round r).steps.any (·.k == k) = true := by simpa using hne
  exact h ⟨hopen, hany, hout⟩

/-- The step's record and the counters change, then entries are written, then the round may close. -/
theorem State.setOutcome_logged (h : s.Awaits r k) :
    ∃ u, (s.recorded r k o).Logged u ∧ s.setOutcome r k o inject = u.closeRound r := by
  obtain ⟨hopen, hany, hout⟩ := h
  unfold State.setOutcome
  rw [if_neg (by simp [hopen, hany, hout])]
  have hentry (code : Nat) : (s.recorded r k o).Logged (if code = 0 then s.recorded r k o else
      (s.recorded r k o).logReel code r ((s.round r).portOf k) k (s.round r).round inject) := .ite (.refl _) (.log ..)
  exact ⟨_, .ite (hentry _) ((hentry _).trans (.irqSet ..)), rfl⟩

theorem State.setOutcome_reel (h : s.Awaits r k) :
    (s.setOutcome r k o inject).reel = ((s.recorded r k o).modRound r Round.closed).reel := by
  obtain ⟨u, hu, heq⟩ := State.setOutcome_logged o inject h
  rw [heq, State.closeRound_eq, State.modRound, State.round_congr (congrArg Reel.rounds hu.reel), hu.reel]
  rfl

theorem State.setOutcome_round (h : s.Awaits r k) :
    (s.setOutcome r k o inject).round r = ((s.round r).ended k o s.now).closed := by
  have hr : r < 4 := s.round_lt h.1
  rw [State.round_congr (congrArg Reel.rounds (State.setOutcome_reel o inject h)), State.round_modRound _ _ hr, State.recorded_round,
    State.round_modRound _ _ hr]

theorem State.setOutcome_round_ne {j : Nat} (hj : r ≠ j) : (s.setOutcome r k o inject).round j = s.round j := by
  by_cases h : s.Awaits r k
  · rw [State.round_congr (congrArg Reel.rounds (State.setOutcome_reel o inject h)), State.round_modRound_ne _ _ hj,
      State.recorded_round, State.round_modRound_ne _ _ hj]
  · rw [State.setOutcome_stays o inject h]

theorem State.setOutcome_rport (p : Nat) : (s.setOutcome r k o inject).rport p = s.rport p := by
  by_cases h : s.Awaits r k
  · rw [State.rport_congr (State.setOutcome_reel o inject h), State.modRound_rport]
    rfl
  · rw [State.setOutcome_stays o inject h]

theorem State.Awaits.setOutcome (h : s.Awaits r k) : (s.setOutcome r k o inject).Ended r k o := by
  rw [State.Ended, State.setOutcome_round o inject h, Round.closed_step, Round.step_ended_same _ _ _ h.2.1]

/-- Another step's outcome leaves a step waiting for its own, on the same port. -/
theorem State.Awaits.setOutcome_ne {j : Nat} (h : s.Awaits r k) (hj : j ≠ k) : (s.setOutcome r j o inject).Awaits r k ∧
    ((s.setOutcome r j o inject).round r).portOf k = (s.round r).portOf k := by
  by_cases hother : s.Awaits r j
  · obtain ⟨hopen, hany, hout⟩ := h
    have hany' : ((s.round r).ended j o s.now).steps.any (·.k == k) = true := by rw [Round.any_ended]; exact hany
    have hout' : (((s.round r).ended j o s.now).step k).outcome = none := by rw [Round.step_ended_ne _ _ _ hj]; exact hout
    rw [State.Awaits, State.setOutcome_round o inject hother, Round.closed_step, Round.closed_steps, Round.closed_portOf]
    exact ⟨⟨Round.closed_opened_of_open hopen hany' hout', hany', hout'⟩, rfl⟩
  · rw [State.setOutcome_stays o inject hother]
    exact ⟨h, rfl⟩

/-- A step keeps the outcome that it has. -/
theorem State.Ended.setOutcome {j i : Nat} {o' : Nat} (h : s.Ended j i o') : (s.setOutcome r k o inject).Ended j i o' := by
  by_cases hw : s.Awaits r k
  · by_cases hr : r = j
    · subst hr
      have hk : k ≠ i := by
        rintro rfl
        exact absurd (hw.2.2.symm.trans h) (Option.some_ne_none _).symm
      rw [State.Ended, State.setOutcome_round o inject hw, Round.closed_step, Round.step_ended_ne _ _ _ hk]
      exact h
    · rw [State.Ended, State.setOutcome_round_ne o inject hr]
      exact h
  · rw [State.setOutcome_stays o inject hw]
    exact h

end setOutcome

theorem State.Ended.of_rounds {s t : State} {r k o : Nat} (h : s.Ended r k o) (ht : t.reel.rounds = s.reel.rounds) : t.Ended r k o := by
  rw [State.Ended, State.round_congr ht]; exact h

/-! ### Landings that wake (R320, R321, R325) -/

/-- Waking the landings carries blocks on and gives the steps of forward-only rounds their outcome; what all of that keeps, it keeps. -/
theorem State.wakeLandings_keeps {P : State → Prop} (hset : ∀ t id st, P t → P (t.setBlk id st)) (hfree : ∀ t : State, P t → P t.freeBlocks)
    (hqueue : ∀ t b, P t → P (t.queueForward b)) (hout : ∀ t r k inject, P t → P (t.setOutcome r k 4 inject)) {s : State} (h : P s) :
    P s.wakeLandings := by
  have hpass (t : State) (b : Blk) (ht : P t) : P (t.passBlock b) := hfree _ (hqueue _ b (hset t b.id .passing ht))
  unfold State.wakeLandings
  refine List.foldlRecOn (motive := P) _ _ h fun t ht b _ => ?_
  cases b.state with
  | held n => exact ht
  | passing => exact ht
  | landing k =>
    dsimp only
    split
    · exact ht
    · exact hfree _ (hset _ _ _ ht)
  | waiting k n =>
    dsimp only
    split
    · exact hpass _ b ht
    · split
      · exact hpass _ b (hout _ _ _ _ ht)
      · split
        · exact hpass _ b ht
        · split
          · exact hqueue _ b (hset _ _ _ ht)
          · exact ht

theorem State.Ended.wakeLandings {s : State} {r k o : Nat} (h : s.Ended r k o) : s.wakeLandings.Ended r k o :=
  State.wakeLandings_keeps (P := fun t => t.Ended r k o) (fun _ _ _ ht => ht) (fun _ ht => ht)
    (fun t b ht => ht.of_rounds (State.Carried.queueForward t b).rounds) (fun _ _ _ _ ht => ht.setOutcome 4 _) h

/-- Nothing is queued on a link that is down. -/
theorem State.queueForward_rport_down {s : State} {p : Nat} (hp : p < 2) (hdown : (s.rport p).up = false) (b : Blk) :
    (s.queueForward b).rport p = s.rport p := by
  unfold State.queueForward
  split
  · rfl
  · dsimp only
    split
    next hup =>
      refine State.rport_modRport_ne s _ (Nat.mod_lt _ (by decide)) hp ?_
      rintro rfl
      rw [hdown] at hup
      cases hup
    · rfl

theorem State.wakeLandings_rport_down {s : State} {p : Nat} (hp : p < 2) (hdown : (s.rport p).up = false) :
    s.wakeLandings.rport p = s.rport p :=
  State.wakeLandings_keeps (P := fun t => t.rport p = s.rport p) (fun _ _ _ ht => ht) (fun _ ht => ht)
    (fun t b ht => (State.queueForward_rport_down hp (by rw [ht]; exact hdown) b).trans ht)
    (fun _ _ _ _ ht => (State.setOutcome_rport 4 _ p).trans ht) rfl

end Sys2Proof.Machine
end

section
/-! SUPPORT. Links that come up and go down, and abort markers (R324, R403, R404). -/

namespace Sys2Proof.Machine

/-! ### The block in progress is cut off (R404) -/

/-- A port that no longer sends the block that is cut off: what has begun to leave ends with an abort marker. -/
def ReelPort.cutOf (x : ReelPort) (b : Blk) : ReelPort :=
  let mine (o : OutItem) : Bool := o.isFwd && o.id == b.id
  { x with queue := x.queue.filter fun o => !mine o, cur := if x.cur.any mine then none else x.cur, aborted := x.aborted || x.cur.any mine }

theorem ReelPort.cutOf_idle {x : ReelPort} (b : Blk) (hcur : x.cur = none) (hqueue : x.queue = []) : x.cutOf b = x := by
  obtain ⟨up, credits, cur, queue, tx, rx, down, aborted, lastHdr⟩ := x
  subst hcur hqueue
  simp [ReelPort.cutOf]

/-- A forward of it that has begun is aborted. -/
theorem ReelPort.cutOf_cur {x : ReelPort} {b : Blk} {o : OutItem} (hcur : x.cur = some o) (hfwd : o.isFwd = true) (hid : o.id = b.id) :
    (x.cutOf b).cur = none ∧ (x.cutOf b).aborted = true := by
  simp [ReelPort.cutOf, hcur, hfwd, hid]

section cut
variable {s : State} {p : Nat}

theorem State.cutBlock_none (h : s.inProgress p = none) : s.cutBlock p = s := by unfold State.cutBlock; rw [h]

theorem State.cutBlock_some {b : Blk} (h : s.inProgress p = some b) :
    (s.cutBlock p).reel.blocks = (s.reel.blocks.filter (·.id != b.id)) ∧ ∀ q, (s.cutBlock p).rport q = (s.rport q).cutOf b := by
  unfold State.cutBlock
  rw [h]
  refine ⟨rfl, fun q => ?_⟩
  unfold State.rport
  split <;> rfl

theorem State.cutBlock_sub {b : Blk} (h : b ∈ (s.cutBlock p).reel.blocks) : b ∈ s.reel.blocks := by
  cases hin : s.inProgress p with
  | none => rwa [State.cutBlock_none hin] at h
  | some c =>
    rw [(State.cutBlock_some hin).1] at h
    exact List.mem_of_mem_filter h

theorem State.cutBlock_rport_idle (q : Nat) (hcur : (s.rport q).cur = none) (hqueue : (s.rport q).queue = []) :
    (s.cutBlock p).rport q = s.rport q := by
  cases hin : s.inProgress p with
  | none => rw [State.cutBlock_none hin]
  | some b => rw [(State.cutBlock_some hin).2, ReelPort.cutOf_idle b hcur hqueue]

end cut

/-! ### The steps that had still to arrive (R324) -/

/-- A block of a step of a channel has arrived whole on a port. -/
def State.arrivedWhole (s : State) (p r k : Nat) : Bool :=
  s.reel.blocks.any fun b => b.port == p && b.whole && fieldOf b.hdr 4 1 % 4 == r &&
    (match b.state with | .landing j | .waiting j _ => j == k | _ => false)

theorem State.arrivedWhole_eq_false {s : State} {p r k : Nat} (h : ∀ b ∈ s.reel.blocks, b.port = p → b.whole = true →
    fieldOf b.hdr 4 1 % 4 = r → b.state ≠ .landing k ∧ ∀ m, b.state ≠ .waiting k m) : s.arrivedWhole p r k = false := by
  refine List.any_eq_false.2 fun b hb hall => ?_
  simp only [Bool.and_eq_true, beq_iff_eq] at hall
  obtain ⟨⟨⟨hport, hwhole⟩, hround⟩, hstate⟩ := hall
  obtain ⟨hlanding, hwaiting⟩ := h b hb hport hwhole hround
  split at hstate
  next j hj => exact hlanding (by rw [hj, beq_iff_eq.1 hstate])
  next j m hj => exact hwaiting m (by rw [hj, beq_iff_eq.1 hstate])
  next => cases hstate

/-- The steps of one channel that end with a link. -/
def State.stepsDownOf (s : State) (p : Nat) (whole : Nat → Nat → Bool) (r : Nat) : State :=
  if (s.round r).opened then
    ((s.round r).steps.filter fun y => y.outcome.isNone && (s.round r).portOf y.k == p && !whole r y.k).foldl
      (fun t y => t.setOutcome r y.k 5 0) s
  else s

theorem State.stepsDown_eq (s : State) (p : Nat) :
    s.stepsDown p = (List.range 4).foldl (fun t r => t.stepsDownOf p (s.arrivedWhole p) r) s := rfl

/-- What an element of a list brings about, where what comes before it leaves it to be done and what comes after keeps it. -/
theorem foldl_meets {α β : Type} {f : β → α → β} {Open Done : β → Prop} {a : α} (hset : ∀ y, Open y → Done (f y a))
    (hkeep : ∀ y b, Done y → Done (f y b)) :
    ∀ {l : List α} {y : β}, a ∈ l → (∀ b ∈ l, ∀ y, Open y → Open (f y b) ∨ Done (f y b)) → Open y → Done (l.foldl f y)
  | b :: l, y, ha, hopen, hy => by
    have hdone {y : β} (h : Done y) : Done (l.foldl f y) := List.foldlRecOn (motive := Done) l f h fun y h b _ => hkeep y b h
    rw [List.foldl_cons]
    rcases List.mem_cons.1 ha with rfl | ha
    · exact hdone (hset y hy)
    · rcases hopen b (List.mem_cons_self ..) y hy with h | h
      · exact foldl_meets hset hkeep ha (fun b hb => hopen b (List.mem_cons_of_mem _ hb)) h
      · exact hdone h

section stepsDown
variable {s : State} {p r k : Nat} {whole : Nat → Nat → Bool}

theorem State.Ended.stepsDownOf {o : Nat} (h : s.Ended r k o) (j : Nat) : (s.stepsDownOf p whole j).Ended r k o := by
  unfold State.stepsDownOf
  split
  · exact List.foldlRecOn (motive := fun t : State => t.Ended r k o) _ _ h fun t ht y _ => ht.setOutcome 5 0
  · exact h

theorem State.stepsDownOf_round_ne {j : Nat} (hj : j ≠ r) : (s.stepsDownOf p whole j).round r = s.round r := by
  unfold State.stepsDownOf
  split
  · exact List.foldlRecOn (motive := fun t : State => t.round r = s.round r) _ _ rfl fun t ht y _ =>
      (State.setOutcome_round_ne 5 0 hj).trans ht
  · rfl

/-- A step that waits on the port ends LINK_DOWN with its channel's. -/
theorem State.Awaits.stepsDownOf (h : s.Awaits r k) (hport : (s.round r).portOf k = p) (hwhole : whole r k = false) :
    (s.stepsDownOf p whole r).Ended r k 5 := by
  obtain ⟨hmem, hk⟩ := Round.step_mem h.2.1
  unfold State.stepsDownOf
  rw [if_pos h.1]
  refine foldl_meets (Open := fun t : State => t.Awaits r k) (Done := fun t => t.Ended r k 5) (a := (s.round r).step k) (fun t ht => ?_)
    (fun t y ht => ht.setOutcome 5 0) (List.mem_filter.2 ⟨hmem, ?_⟩) (fun y _ t ht => ?_) h
  · rw [hk]
    exact ht.setOutcome 5 0
  · rw [hk, hport, hwhole, h.2.2]
    simp
  · by_cases hy : y.k = k
    · rw [hy]
      exact .inr (ht.setOutcome 5 0)
    · exact .inl (ht.setOutcome_ne 5 0 hy).1

/-- A step that waits on the port ends LINK_DOWN, unless its block has arrived whole (R324). -/
theorem State.Awaits.stepsDown (h : s.Awaits r k) (hport : (s.round r).portOf k = p) (hwhole : s.arrivedWhole p r k = false) :
    (s.stepsDown p).Ended r k 5 := by
  have hend (t : State) (ht : t.round r = s.round r) : (t.stepsDownOf p (s.arrivedWhole p) r).Ended r k 5 :=
    State.Awaits.stepsDownOf (by rw [State.Awaits, ht]; exact h) (by rw [ht]; exact hport) hwhole
  rw [State.stepsDown_eq]
  refine foldl_meets (Open := fun t : State => t.round r = s.round r) (Done := fun t => t.Ended r k 5) (a := r) hend
    (fun t j ht => ht.stepsDownOf j) (List.mem_range.2 (s.round_lt h.1)) (fun j _ t ht => ?_) rfl
  by_cases hj : j = r
  · rw [hj]
    exact .inr (hend t ht)
  · exact .inl ((State.stepsDownOf_round_ne hj).trans ht)

end stepsDown
theorem State.stepsDown_rport (s : State) (p q : Nat) : (s.stepsDown p).rport q = s.rport q := by
  rw [State.stepsDown_eq]
  refine List.foldlRecOn (motive := fun t : State => t.rport q = s.rport q) _ _ rfl fun t ht r _ => ?_
  unfold State.stepsDownOf
  split
  · exact List.foldlRecOn (motive := fun t : State => t.rport q = s.rport q) _ _ ht fun t ht y _ => (State.setOutcome_rport 5 0 q).trans ht
  · exact ht

theorem State.Beside.stepsDown {s t : State} (h : s.Beside t) (p : Nat) : s.Beside (t.stepsDown p) := by
  rw [State.stepsDown_eq]
  exact foldl (fun t r => ite (foldl (fun t y => (refl t).setOutcome ..) _ (refl t)) (refl t)) _ h

/-! ### The injections that had still to leave (R313, R324) -/

section dropInjections
variable {s : State} {p : Nat}

/-- What keeps through a round's own injection being dropped, and through the round's closing, keeps through all of them. -/
theorem State.dropInjections_keeps {P : State → Prop} (h : P s)
    (hdrop : ∀ t r, r < 4 → P t → P ((t.modRound r fun x => { x with left := x.left.filter (· != p), lost := true }).closeRound r)) :
    P (s.dropInjections p) := by
  refine List.foldlRecOn (motive := P) _ _ h fun t ht r hr => ?_
  split
  · exact hdrop t r (List.mem_range.1 hr) ht
  · exact ht

theorem State.Ended.dropInjections {r k o : Nat} (h : s.Ended r k o) : (s.dropInjections p).Ended r k o := by
  refine State.dropInjections_keeps (P := fun t => t.Ended r k o) h fun t j hj ht => ?_
  rw [State.Ended, State.closeRound_eq]
  by_cases hr : j = r
  · subst hr
    rw [State.round_modRound _ _ hj, State.round_modRound _ _ hj, Round.closed_step]
    exact ht
  · rw [State.round_modRound_ne _ _ hr, State.round_modRound_ne _ _ hr]
    exact ht

theorem State.dropInjections_rport (q : Nat) : (s.dropInjections p).rport q = s.rport q :=
  State.dropInjections_keeps (P := fun t => t.rport q = s.rport q) rfl fun _ _ _ ht => Eq.trans rfl ht

theorem State.Beside.dropInjections {t : State} (h : s.Beside t) : s.Beside (t.dropInjections p) :=
  State.dropInjections_keeps (P := s.Beside) h fun _ r _ ht => (ht.modRound r _).closeRound r

end dropInjections

/-! ### The link goes down (R324, R403) -/

/-- A port whose link is down. -/
def ReelPort.off (x : ReelPort) : ReelPort := { x with up := false, credits := 0, cur := none, queue := [], down := sat16 x.down 1 }

/-- The state in which the link is down, its loss is told, and nothing else of the reel engine has changed. -/
def State.linkOff (s : State) (p : Nat) : State :=
  let first := s.reel.portA.down = 0 ∧ s.reel.portB.down = 0
  (((({ s with reel := { s.reel with firstNs := if first then BitVec.ofNat 48 s.now else s.reel.firstNs } }).modRport p
    ReelPort.off).logDown p).irqSet 5)

theorem State.Logged.logDown (s : State) (p : Nat) : s.Logged (s.logDown p) := by
  unfold State.logDown
  split
  · exact log ..
  · exact List.foldlRecOn (motive := s.Logged) _ _ (refl s) fun t ht r _ => ht.trans (log ..)

section linkOff
variable (s : State) (p : Nat)

theorem State.linkOff_reel : ∃ firstNs,
    (s.linkOff p).reel = (({ s with reel := { s.reel with firstNs := firstNs } }).modRport p ReelPort.off).reel :=
  ⟨_, ((State.Logged.logDown ..).trans (.irqSet ..)).reel⟩

theorem State.linkOff_rport : (s.linkOff p).rport p = (s.rport p).off := by
  obtain ⟨n, hreel⟩ := s.linkOff_reel p
  rw [State.rport_congr hreel, State.rport_modRport]
  rfl

theorem State.linkOff_rounds : (s.linkOff p).reel.rounds = s.reel.rounds := by
  obtain ⟨n, hreel⟩ := s.linkOff_reel p
  rw [hreel, State.modRport_rounds]

theorem State.linkOff_blocks : (s.linkOff p).reel.blocks = s.reel.blocks := by
  obtain ⟨n, hreel⟩ := s.linkOff_reel p
  rw [hreel, State.modRport_blocks]

theorem State.Beside.linkOff : s.Beside (s.linkOff p) :=
  (((State.Beside.of_eq rfl).modRport ..).trans (of_logged (.logDown ..))).irqSet 5

end linkOff

section linkDown
variable {s : State} {p : Nat}

theorem State.linkDown_down (h : (s.rport p).up = false) : s.linkDown p = s := by
  unfold State.linkDown; rw [h]; rfl

theorem State.linkDown_up (h : (s.rport p).up = true) : s.linkDown p =
    ((((((s.linkOff p).cutBlock p).stepsDown p).dropInjections p).freeBlocks).wakeLandings) := by
  unfold State.linkDown State.linkOff ReelPort.off
  rw [if_neg (by rw [h]; decide)]

theorem State.Beside.linkDown (h : (s.rport p).up = true) : (s.linkOff p).Beside (s.linkDown p) := by
  rw [State.linkDown_up h]
  exact (((State.Carried.cutBlock _ p).beside.stepsDown p).dropInjections.trans (State.Carried.freeBlocks _).beside).wakeLandings

/-- Nothing is sent or queued on the port afterwards. -/
theorem State.linkDown_rport (hp : p < 2) (h : (s.rport p).up = true) : (s.linkDown p).rport p = (s.rport p).off := by
  have hoff := s.linkOff_rport p
  have hport : (((((s.linkOff p).cutBlock p).stepsDown p).dropInjections p).freeBlocks).rport p = (s.rport p).off := by
    rw [State.freeBlocks_rport, State.dropInjections_rport, State.stepsDown_rport,
      State.cutBlock_rport_idle p (by rw [hoff]; rfl) (by rw [hoff]; rfl), hoff]
  rw [State.linkDown_up h, State.wakeLandings_rport_down hp (by rw [hport]; rfl), hport]

/-- A step that had still to arrive on the port ends LINK_DOWN, where its block has not arrived whole. -/
theorem State.linkDown_ends {r k : Nat} (h : (s.rport p).up = true) (hk : s.Awaits r k) (hport : (s.round r).portOf k = p)
    (hwhole : s.arrivedWhole p r k = false) : (s.linkDown p).Ended r k 5 := by
  have hround : ((s.linkOff p).cutBlock p).round r = s.round r :=
    State.round_congr ((State.Carried.cutBlock _ p).rounds.trans (s.linkOff_rounds p)) r
  have hcut : ((s.linkOff p).cutBlock p).arrivedWhole p r k = false := by
    refine List.any_eq_false.2 fun b hb => List.any_eq_false.1 hwhole b ?_
    rw [← s.linkOff_blocks p]
    exact State.cutBlock_sub hb
  have hends : (((s.linkOff p).cutBlock p).stepsDown p).Ended r k 5 :=
    State.Awaits.stepsDown (by rw [State.Awaits, hround]; exact hk) (by rw [hround]; exact hport) hcut
  rw [State.linkDown_up h]
  exact (hends.dropInjections.of_rounds (State.Carried.freeBlocks _).rounds).wakeLandings

end linkDown

/-! ### The statement -/

theorem exec_reelLinkUp (s : State) (p : Bool) : exec (.reelLinkUp p) s =
    act s (if (s.rport (portOf p)).up then s
      else (s.modRport (portOf p) fun x => { x with up := true }).logReel 2 0 (portOf p) 0 0 0) := rfl

/-- Links and abort markers (R324, R403, R404). -/
theorem reelLinks_holds : reelLinks := by
  unfold reelLinks
  intro s p b hl q last
  have hdown : exec (.reelLinkDown p) s = act s (s.linkDown (portOf p)) := rfl
  have habort : exec (.reelAbortMarker p) s = .next (s.cutBlock (portOf p)) := (State.Carried.cutBlock s (portOf p)).beside.act hl
  have hlast : s.inProgress (portOf p) = last.bind fun b => if b.whole then none else some b := rfl
  rw [exec_reelLinkUp, hdown, habort]
  refine ⟨fun hup => ?isUp, fun hup => ?up, fun hup => ?isDown, fun hup => ?down, fun hwhole => ?none, fun hb hwhole => ?cut⟩
  case isUp =>
    rw [if_pos hup]
    exact (State.Beside.refl s).act hl
  case up =>
    have hport : s.modRport (portOf p) (fun x => { x with up := true }) = s.modRport (portOf p) fun _ => { q with up := true } :=
      State.modRport_congr _ _ rfl
    rw [if_neg (Bool.not_eq_true _ ▸ hup), hport]
    exact (((State.Beside.refl s).modRport ..).logReel ..).act hl
  case isDown =>
    rw [State.linkDown_down hup]
    exact (State.Beside.refl s).act hl
  case down =>
    have hbeside := State.Beside.linkDown hup
    refine ⟨_, ((State.Beside.linkOff s _).trans hbeside).act hl, State.linkDown_rport (portOf_lt p) hup,
      hbeside.2 5 (State.irqSet_status _ (by decide)), fun r k hopen hport hany hout hwhole => ?_⟩
    exact State.linkDown_ends hup ⟨hopen, hany, hout⟩ hport (State.arrivedWhole_eq_false hwhole)
  case none =>
    have hin : s.inProgress (portOf p) = none := by
      rw [hlast]
      rcases hwhole with hnone | ⟨hsome, hw⟩
      · rw [hnone, Option.bind_none]
      · rw [hsome, Option.bind_some, if_pos hw]
    rw [State.cutBlock_none hin]
  case cut =>
    have hin : s.inProgress (portOf p) = some b := by
      rw [hlast, hb, Option.bind_some, if_neg (by rw [hwhole]; decide)]
    obtain ⟨hblocks, hports⟩ := State.cutBlock_some hin
    refine ⟨_, rfl, (State.Carried.cutBlock s (portOf p)).rounds, hblocks, fun d o hcur hfwd hid => ?_⟩
    rw [hports]
    exact ReelPort.cutOf_cur hcur hfwd hid

/-- Settles O38: what a port sends is one change of its record, and a link that falls leaves a port on which nothing more is queued and
steps of which each awaited one gets its outcome. -/
theorem reelPorts : Obligations.ReelPorts := ⟨reelSends_holds, reelLinks_holds⟩

end Sys2Proof.Machine
end

section
/-! SUPPORT. What a step does: the command at the front of the queue, else a nanosecond (R318, R350, log 4). -/

namespace Sys2Proof.Machine

/-! ### A nanosecond in which the reel ports carry nothing (R318) -/

theorem State.arrive_empty {s : State} (h : s.reel.blocks = []) (p : Nat) : s.arrive p = s := by
  have hnone : s.inProgress p = none := by rw [State.inProgress, h]; rfl
  unfold State.arrive
  rw [hnone]

theorem State.layUnits_empty {s : State} (h : s.reel.blocks = []) : s.layUnits = s := by rw [State.layUnits, h, List.foldl_nil]

theorem State.freeBlocks_empty {s : State} (h : s.reel.blocks = []) : s.freeBlocks = s := by
  simp only [State.freeBlocks, h, List.filter_nil]
  rw [← h]

/-- With no block in the buffers and no item on its way out, the reel ports leave the block as it is. -/
theorem State.reelFlow_idle {s : State} (hblocks : s.reel.blocks = []) (hA : s.reel.portA.cur = none) (hB : s.reel.portB.cur = none) :
    s.reelFlow = s := by
  rw [State.reelFlow, State.arrive_empty hblocks, State.arrive_empty hblocks, State.layUnits_empty hblocks,
    State.pump_idle (p := 0) hA, State.pump_idle (p := 1) hB, State.freeBlocks_empty hblocks]

/-! ### One step -/

theorem step_front {s : State} {c : Instr} {rest : List Instr} (h : s.pending = c :: rest) :
    step s = exec c { s with pending := rest } := by unfold step; rw [h]

theorem step_empty {s : State} (h : s.pending = []) : step s = .next s.idle := by unfold step; rw [h]

theorem State.idle_runs {s : State} (hrun : s.tb.running = true) (hreset : s.pins.resetLow = false) :
    s.idle = { s with tb := { s.tb with now := s.tb.now + 1 } }.reelFlow := if_pos (by rw [hrun, hreset]; rfl)

theorem State.idle_stands {s : State} (h : s.tb.running = false ∨ s.pins.resetLow = true) : s.idle = s :=
  if_neg (by rcases h with h | h <;> simp [h])

/-- Settles O1: a step is the front command's effect, or that of the block's idling, in which reel ports with nothing to carry do
nothing. -/
theorem frontCommandRuns : Obligations.FrontCommandRuns := by
  unfold Obligations.FrontCommandRuns
  refine ⟨fun s c rest h => step_front h, fun s h hrun hreset => ?runs, fun s h hrun hreset hblocks hA hB => ?quiet,
    fun s h hstands => ?stands⟩
  case runs => rw [step_empty h, State.idle_runs hrun hreset]
  case quiet =>
    rw [step_empty h, State.idle_runs hrun hreset]
    exact congrArg Host.Outcome.next (State.reelFlow_idle hblocks hA hB)
  case stands => rw [step_empty h, State.idle_stands hstands]

end Sys2Proof.Machine
end

section
/-! SUPPORT. The time base (R352, R353): its captures at edges of TIMESYNC, and the steps by which it slews. -/

namespace Sys2Proof.Machine

theorem State.Logged.tb {s t : State} (h : s.Logged t) : t.tb = s.tb := by obtain ⟨_, _, _, rfl⟩ := h; rfl

/-- Apart from its entry, a glitch counts. -/
theorem State.glitch_logged (s : State) (e : Nat) :
    { s with tick := { s.tick with glitch := sat16 s.tick.glitch 1 } }.Logged (s.glitch e) := State.Logged.log ..

/-! ### Edges of TIMESYNC (R352) -/

/-- An edge comes within 1,000 ns of the last one captured. -/
def State.syncTooSoon (s : State) : Bool := match s.tb.lastCap with | some c => decide (s.now < c + 1000) | none => false

theorem State.syncTooSoon_eq_false {s : State} (h : ∀ c, s.tb.lastCap = some c → c + 1000 ≤ s.now) : s.syncTooSoon = false := by
  unfold State.syncTooSoon
  cases hcap : s.tb.lastCap with
  | none => rfl
  | some c => exact decide_eq_false (Nat.not_lt.2 (h c hcap))

theorem State.syncTooSoon_eq_true {s : State} {c : Nat} (hcap : s.tb.lastCap = some c) (h : s.now < c + 1000) :
    s.syncTooSoon = true := by
  unfold State.syncTooSoon
  rw [hcap]
  exact decide_eq_true h

/-- The block with its time base captured. -/
def State.captured (s : State) : State :=
  { s with tb := { s.tb with capture := s.tb.now, seq := s.tb.seq + 1, lastCap := some s.now, capAdj := 0 } }

theorem exec_timesyncEdge (s : State) : exec .timesyncEdge s =
    act s (if !s.tb.running then s else if s.syncTooSoon then s.glitch s.now else s.captured) := rfl

/-! ### Slewing (R353) -/

/-- No slew step is due. -/
theorem exec_slewStep_waits {s : State} (hl : s.live = true) (h : s.tb.slewRemain = 0 ∨ s.now < s.tb.nextSlew) :
    exec .slewStep s = .next s := act_eq hl (if_pos h) rfl rfl

/-- The block after a slew step that leaves the time base at `now`, with `d` of the offset taken from what remains. -/
def State.slewed (s : State) (now : W64) (d : Int) : State :=
  { s with tb := { s.tb with
    now := now, slewRemain := s.tb.slewRemain - d, capAdj := s.tb.capAdj + d, nextSlew := now.toNat + s.setting 0x0105 - 1 } }

section due
variable {s : State} (hl : s.live = true) (hdue : s.tb.nextSlew ≤ s.now)
include hl hdue

theorem exec_slewStep_forward (h : 0 < s.tb.slewRemain) : exec .slewStep s = .next (s.slewed (s.tb.now + 2) 1) := by
  have hgo : ¬(s.tb.slewRemain = 0 ∨ s.now < s.tb.nextSlew) := by omega
  exact act_eq hl ((if_neg hgo).trans (by simp only [if_pos h]; rfl)) rfl rfl

theorem exec_slewStep_back (h : s.tb.slewRemain < 0) : exec .slewStep s = .next (s.slewed s.tb.now (-1)) := by
  have hgo : ¬(s.tb.slewRemain = 0 ∨ s.now < s.tb.nextSlew) := by omega
  have hback : ¬0 < s.tb.slewRemain := by omega
  exact act_eq hl ((if_neg hgo).trans (by simp only [if_neg hback]; rfl)) rfl rfl

end due

/-- Settles O20: an edge of TIMESYNC captures or is a glitch, and a slew step that is due moves the time base by the sign of what
remains. -/
theorem timeSynchronisation : Obligations.TimeSynchronisation := by
  unfold Obligations.TimeSynchronisation
  intro s hl
  refine ⟨fun hrun => ?stands, fun hrun hlast => ?captures, fun c hrun hcap hsoon => ?glitch, exec_slewStep_waits hl,
    fun hpos hdue => exec_slewStep_forward hl hdue hpos, fun hneg hdue => ?back⟩
  case stands =>
    rw [exec_timesyncEdge, hrun]
    exact act_live s s hl rfl rfl
  case captures =>
    rw [exec_timesyncEdge, hrun, State.syncTooSoon_eq_false hlast]
    exact act_live s s.captured hl rfl rfl
  case glitch =>
    have hlog := s.glitch_logged s.now
    rw [exec_timesyncEdge, hrun, State.syncTooSoon_eq_true hcap hsoon]
    exact ⟨s.glitch s.now, act_logged hl hlog rfl rfl, hlog.tb, congrArg Tick.glitch hlog.tick⟩
  case back =>
    rw [exec_slewStep_back hl hdue hneg, State.slewed, sub_neg_eq_add, ← sub_eq_add_neg]
    rfl

end Sys2Proof.Machine
end

section
/-! SUPPORT. The edges of the block tick where no slice has work (R356 to R360): what makes one, and that it is counted and no more. -/

namespace Sys2Proof.Machine

/-! ### A quiet block -/

/-- The parts of `quiet`, of every slice. -/
structure Quiet (s : State) : Prop where
  noneRuns : ∀ j, (s.sl j).state ≠ .running
  noStart : ∀ j, (s.sl j).startAt = none
  noFault : ∀ j, justFaulted s j = false
  noCmds : s.cmds = []
  noTrace : s.sheet.trace.getLsbD 2 = false
  noPeriod : s.tick.pending = none
  period : 0 < s.tick.period

theorem Quiet.of_quiet {s : State} (h : quiet s = true) : Quiet s := by
  simp only [quiet, Bool.and_eq_true, List.all_eq_true, List.mem_range, bne_iff_ne, ne_eq, Bool.not_eq_true', Option.isNone_iff_eq_none,
    List.isEmpty_iff, decide_eq_true_eq] at h
  obtain ⟨⟨⟨⟨hall, hcmds⟩, htrace⟩, hpending⟩, hperiod⟩ := h
  obtain ⟨hrun, hstart, hfault⟩ :
      (∀ j, (s.sl j).state ≠ .running) ∧ (∀ j, (s.sl j).startAt = none) ∧ ∀ j, justFaulted s j = false := by
    simp only [← forall_and]
    intro j
    by_cases hj : j < 32
    · exact ⟨(hall j hj).1.1, (hall j hj).1.2, (hall j hj).2⟩
    · rw [justFaulted, s.sl_of_ge (Nat.not_lt.1 hj)]
      exact ⟨by decide, rfl, rfl⟩
  exact ⟨hrun, hstart, hfault, hcmds, htrace, hpending, hperiod⟩

/-- No entry changes what is traced. -/
theorem State.log_trace (s : State) (src kind code : Nat) (fault : Bool) (data : List Byte) (trace : Bool) :
    (s.log src kind code fault data trace).sheet.trace = s.sheet.trace := by
  unfold State.log
  dsimp only
  split
  · rfl
  · simp only [apply_ite State.sheet, State.irqSet, ite_self]

namespace Quiet
variable {s : State} (h : Quiet s)
include h

theorem withTick {c : Tick} (hpending : c.pending = s.tick.pending) (hperiod : c.period = s.tick.period) : Quiet { s with tick := c } :=
  ⟨h.noneRuns, h.noStart, h.noFault, h.noCmds, h.noTrace, hpending.trans h.noPeriod, hperiod ▸ h.period⟩

theorem log (src kind code : Nat) (fault : Bool) (data : List Byte) (trace : Bool) : Quiet (s.log src kind code fault data trace) := by
  have hlog := State.Logged.log s src kind code fault data trace
  have hsl := (State.Beside.of_logged hlog).sl
  exact {
    noneRuns := fun j => by rw [hsl]; exact h.noneRuns j
    noStart := fun j => by rw [hsl]; exact h.noStart j
    noFault := fun j => by rw [justFaulted, hsl, State.now, hlog.tb]; exact h.noFault j
    noCmds := hlog.cmds.trans h.noCmds
    noTrace := by rw [State.log_trace]; exact h.noTrace
    noPeriod := (congrArg Tick.pending hlog.tick).trans h.noPeriod
    period := by rw [hlog.tick]; exact h.period }

/-! ### The edge of a quiet block (R360) -/

theorem slicesIn_running : s.slicesIn (· == .running) = [] := List.filter_eq_nil_iff.2 fun j _ => by simp [h.noneRuns j]

theorem slicesEdge (edge : Nat) : s.slicesEdge edge = s := by
  unfold State.slicesEdge
  simp only [State.refuseSwitches_idle h.noCmds, h.slicesIn_running, State.foldl_faultedOver_idle h.noFault, List.filter_nil,
    List.foldl_nil, State.foldl_startSlice_idle h.noStart, State.migrations_idle h.noCmds, State.endAtEdge_idle h.noCmds]

theorem blockEdge (edge : Nat) : s.blockEdge edge = quietEdge s edge := by
  have htrace : (s.countEdge edge).traceEdge edge = s.countEdge edge := if_neg (by rw [Bool.not_eq_true]; exact h.noTrace)
  have hnext : nextMultiple s.tick.period edge = (edge / s.tick.period + 1) * s.tick.period := by
    rw [nextMultiple, max_eq_right h.period]
  rw [State.blockEdge_eq, h.slicesEdge, htrace, State.takePeriod_none (s := s.countEdge edge) h.noPeriod, quietEdge, ← hnext]
  rfl

end Quiet

/-! ### What makes an edge (R356 to R358) -/

theorem exec_blockTickEdge (s : State) : exec .blockTickEdge s =
    act s (if s.tick.active && !s.tickExternal && decide (s.tick.next ≤ s.now) then s.blockEdge s.tick.next else s) := rfl

theorem exec_tickInEdge (s : State) : exec .tickInEdge s = act s s.tickIn := rfl

theorem exec_flywheelEdge (s : State) : exec .flywheelEdge s = act s s.flywheel := rfl

/-- A rising TICK_IN that comes at `e` is no glitch. -/
def State.tickTaken (s : State) (e : Nat) : Prop := s.tick.count = 0 ∨ s.tick.last.toNat + 1000 ≤ e

/-- When a missing external edge is generated. -/
def State.flywheelDue (s : State) : Nat := s.tick.last.toNat + s.tick.period + (if s.tick.flywheel then 0 else s.setting 0x0103)

/-- The block after the end of its flywheel, with the entry. -/
def State.flywheelEnds (s : State) (e : Nat) : State :=
  { s with tick := { s.tick with flywheel := false } }.log 0x0105 4 6 false (tickData 0 6 0 e)

/-- The block after a first missing edge, with the entry. -/
def State.flywheelBegins (s : State) (e : Nat) : State :=
  { s with tick := { s.tick with missed := sat16 s.tick.missed 1, flywheel := true } }.log 0x0105 4 5 false (tickData 0 5 0 e)

theorem State.flywheel_eq (s : State) : s.flywheel =
    if !s.tick.active ∨ !s.tickExternal ∨ s.tick.count = 0 then s
    else if s.now < s.flywheelDue then s
    else (if s.tick.flywheel then { s with tick := { s.tick with missed := sat16 s.tick.missed 1 } }
      else s.flywheelBegins s.flywheelDue).blockEdge s.flywheelDue := rfl

theorem Quiet.flywheelEnds {s : State} (h : Quiet s) (e : Nat) : Quiet (s.flywheelEnds e) :=
  (h.withTick (c := { s.tick with flywheel := false }) rfl rfl).log ..

theorem Quiet.flywheelBegins {s : State} (h : Quiet s) (e : Nat) : Quiet (s.flywheelBegins e) :=
  (h.withTick (c := { s.tick with missed := sat16 s.tick.missed 1, flywheel := true }) rfl rfl).log ..

section external
variable {s : State}

theorem State.tickIn_ignored (h : s.tick.active = false ∨ s.tickExternal = false) : s.tickIn = s :=
  if_pos (h.imp (fun h => by rw [h]; rfl) fun h => by rw [h]; rfl)

theorem State.flywheel_ignored (h : s.tick.active = false ∨ s.tickExternal = false) : s.flywheel = s :=
  if_pos (h.imp (fun h => by rw [h]; rfl) fun h => .inl (by rw [h]; rfl))

theorem State.flywheel_early (h : s.now < s.flywheelDue) : s.flywheel = s := by
  rw [State.flywheel_eq, if_pos h, ite_self]

variable (hact : s.tick.active = true) (hext : s.tickExternal = true)
include hact hext

theorem State.tickIn_eq : s.tickIn =
    if s.tick.count ≠ 0 ∧ s.now - 3 < s.tick.last.toNat + 1000 then s.glitch (s.now - 3)
    else (if s.tick.flywheel then s.flywheelEnds (s.now - 3) else s).blockEdge (s.now - 3) :=
  if_neg (by rw [hact, hext]; decide)

theorem State.tickIn_taken (h : s.tickTaken (s.now - 3)) : s.tickIn =
    (if s.tick.flywheel then s.flywheelEnds (s.now - 3) else s).blockEdge (s.now - 3) := by
  rw [State.tickIn_eq hact hext, if_neg]
  rintro ⟨hcount, hsoon⟩
  exact h.elim hcount (Nat.not_le.2 hsoon)

theorem State.flywheel_first (hcount : s.tick.count ≠ 0) (hfly : s.tick.flywheel = false) (h : s.flywheelDue ≤ s.now) :
    s.flywheel = (s.flywheelBegins s.flywheelDue).blockEdge s.flywheelDue := by
  have hsome : ¬(!s.tick.active ∨ !s.tickExternal ∨ s.tick.count = 0) := by
    rw [hact, hext]
    rintro (h | h | h)
    · cases h
    · cases h
    · exact hcount h
  rw [State.flywheel_eq, if_neg hsome, if_neg (Nat.not_lt.2 h), hfly]
  rfl

end external

/-- Settles O17: whatever makes an edge of a quiet block, the edge is counted and the next one is due; entries leave the block quiet. -/
theorem tickEdges : Obligations.TickEdges := by
  unfold Obligations.TickEdges
  intro s hl hquiet ext due
  have h := Quiet.of_quiet hquiet
  simp only [exec_blockTickEdge, exec_tickInEdge, exec_flywheelEdge]
  refine ⟨fun hno => ?noEdge, fun hact hext hnext => ?internal, fun hno => ⟨?noTick, ?noFlywheel⟩, fun hact hext hthree =>
    ⟨fun hcount hsoon => ?glitch, fun htaken hfly => ?taken, fun htaken hfly => ?flywheelEnds, fun hcount hearly => ?early,
      fun hcount hfly hearly => ?tolerated, fun hcount hfly hdue => ?generated⟩⟩
  case noEdge =>
    refine act_eq hl (if_neg ?_) rfl rfl
    simp only [Bool.and_eq_true, Bool.not_eq_true', decide_eq_true_eq]
    rintro ⟨⟨hact, hint⟩, hnext⟩
    rcases hno with hidle | hext | hlt
    · exact absurd (hact.symm.trans hidle) (by decide)
    · exact absurd (hint.symm.trans hext) (by decide)
    · exact Nat.not_le.2 hlt hnext
  case internal =>
    have hint : s.tickExternal = false := hext
    refine act_eq hl ((if_pos ?_).trans (h.blockEdge s.tick.next)) rfl rfl
    simp only [hact, hint, hnext, decide_true, Bool.not_false, Bool.and_self]
  case noTick => exact act_eq hl (State.tickIn_ignored hno) rfl rfl
  case noFlywheel => exact act_eq hl (State.flywheel_ignored hno) rfl rfl
  case glitch =>
    have hlog := s.glitch_logged (s.now - 3)
    exact act_eq hl ((State.tickIn_eq hact hext).trans (if_pos ⟨hcount, hsoon⟩)) hlog.pending hlog.chip
  case taken =>
    refine act_eq hl ((State.tickIn_taken hact hext htaken).trans ?_) rfl rfl
    rw [hfly]
    exact h.blockEdge _
  case flywheelEnds =>
    have hlog : State.Logged _ (s.flywheelEnds (s.now - 3)) := State.Logged.log ..
    refine act_eq hl ((State.tickIn_taken hact hext htaken).trans ?_) hlog.pending hlog.chip
    rw [hfly]
    exact (h.flywheelEnds _).blockEdge _
  case early => exact act_eq hl (State.flywheel_early (hearly.trans_le (Nat.le_add_right ..))) rfl rfl
  case tolerated =>
    have hdue : s.flywheelDue = due := by rw [State.flywheelDue, hfly]; rfl
    exact act_eq hl (State.flywheel_early (hdue ▸ hearly)) rfl rfl
  case generated =>
    have hdue' : s.flywheelDue = due := by rw [State.flywheelDue, hfly]; rfl
    have hlog : State.Logged _ (s.flywheelBegins due) := State.Logged.log ..
    rw [← hdue'] at hdue
    refine act_eq hl ((State.flywheel_first hact hext hcount hfly hdue).trans ?_) hlog.pending hlog.chip
    rw [hdue']
    exact (h.flywheelBegins due).blockEdge due

end Sys2Proof.Machine
end

section
/-! SUPPORT. The mailbox commands POWER_CAP, THERMAL_PARAMS and TIMESYNC (R353, R452, R506, R514). -/

namespace Sys2Proof.Machine

variable {s : State} {ch : Channel} {m : Cmd}

theorem Cmd.f_lt (m : Cmd) (off n : Nat) : m.f off n < 256 ^ n := fieldOf_lt m.msg off n

theorem Cmd.f_toNat (m : Cmd) (off n : Nat) (hn : 256 ^ n ≤ 2 ^ 64) : (BitVec.ofNat 64 (m.f off n)).toNat = m.f off n :=
  (BitVec.toNat_ofNat ..).trans (Nat.mod_eq_of_lt ((m.f_lt off n).trans_le hn))

/-- A command that stores nothing has its effect at once. -/
theorem State.storing_off (s : State) (retries : Nat) (vals : List (Nat × W64)) (f : State → Ends × State) :
    s.storing false retries vals f = f s := rfl

/-! ### POWER_CAP (R452, R506) -/

/-- A value within its bounds is not refused. -/
theorem outside_eq_false {x lo hi : Nat} (h : lo ≤ x ∧ x ≤ hi) (b : Bool) : (b && decide (x < lo ∨ hi < x)) = false := by
  rw [decide_eq_false (by omega), Bool.and_false]

theorem State.capFields_badCap (hflag : m.f 18 1 = 0) (h : m.f 16 2 < s.chip.model.capMinW ∨ s.chip.model.peakW < m.f 16 2) :
    s.capFields m = some (.bad 16) := by
  have hbits : (extraBits m 18 1 1).1 = false := by simp [extraBits, hflag]
  simp only [State.capFields, decide_eq_true h]
  exact checks_append_eq_some (l := [extraBits m 18 1 1]) _ _ fun c hc => by rw [List.mem_singleton.1 hc, hbits]

theorem State.capFields_passes (hflag : m.f 18 1 = 0) (hlo : s.chip.model.capMinW ≤ m.f 16 2) (hhi : m.f 16 2 ≤ s.chip.model.peakW)
    (hwin : m.f 20 4 = 0 ∨ (10 ≤ m.f 20 4 ∧ m.f 20 4 ≤ 1000)) : s.capFields m = none := by
  have hbits : (extraBits m 18 1 1).1 = false := by simp [extraBits, hflag]
  have hcap : ¬(m.f 16 2 < s.chip.model.capMinW ∨ s.chip.model.peakW < m.f 16 2) := by omega
  have hwindow : (m.f 20 4 != 0 && decide (m.f 20 4 < 10 ∨ 1000 < m.f 20 4)) = false := by
    rcases hwin with hzero | hin
    · rw [hzero]; rfl
    · exact outside_eq_false hin _
  refine checks_eq_none fun c hc => ?_
  simp only [List.mem_cons, List.not_mem_nil, or_false] at hc
  rcases hc with rfl | rfl | rfl
  · exact hbits
  · exact decide_eq_false hcap
  · exact hwindow

theorem State.applySetting_cap (s : State) (v : W64) : s.applySetting 0x0601 v = { s.putSetting 0x0601 v with
    power := { s.power with nextCap := if v.toNat = s.power.capW then 0 else v.toNat } } := rfl

theorem State.applySetting_window (s : State) (v : W64) : s.applySetting 0x0602 v = { s.putSetting 0x0602 v with
    power := { s.power with nextWindow := if v.toNat = s.power.windowMs then 0 else v.toNat } } := rfl

/-- The settings that POWER_CAP sets. -/
def capSettings (m : Cmd) : List (Nat × W64) :=
  (0x0601, BitVec.ofNat 64 (m.f 16 2)) :: (if m.f 20 4 = 0 then [] else [(0x0602, BitVec.ofNat 64 (m.f 20 4))])

/-- The block once they are in force: from the next window on. -/
def State.withCap (s : State) (m : Cmd) : State := (capSettings m).foldl (fun t p => t.applySetting p.1 p.2) s

theorem State.withCap_eq (s : State) (m : Cmd) : ∃ settings, s.withCap m = { s with
    settings := settings
    power := { s.power with
      nextCap := if m.f 16 2 = s.power.capW then 0 else m.f 16 2
      nextWindow := if m.f 20 4 = 0 then s.power.nextWindow else if m.f 20 4 = s.power.windowMs then 0 else m.f 20 4 } } := by
  have hcap := m.f_toNat 16 2 (by decide)
  have hwindow := m.f_toNat 20 4 (by decide)
  by_cases h : m.f 20 4 = 0
  · refine ⟨(s.putSetting 0x0601 (BitVec.ofNat 64 (m.f 16 2))).settings, ?_⟩
    simp only [State.withCap, capSettings, h, if_true, List.foldl_cons, List.foldl_nil, State.applySetting_cap, hcap]
    rfl
  · refine ⟨((s.putSetting 0x0601 (BitVec.ofNat 64 (m.f 16 2))).putSetting 0x0602 (BitVec.ofNat 64 (m.f 20 4))).settings, ?_⟩
    simp only [State.withCap, capSettings, h, if_false, List.foldl_cons, List.foldl_nil, State.applySetting_cap,
      State.applySetting_window, hcap, hwindow]
    rfl

theorem State.powerCap_sets (hflag : m.f 18 1 = 0) (retries : Nat) :
    s.powerCap m retries = (⟨0, 0, 0, leBytes 2 (m.f 16 2) ++ leBytes 6 0 ++ leBytes 8 s.power.windowEnd⟩, s.withCap m) := by
  unfold State.powerCap
  rw [hflag]
  rfl

/-! ### THERMAL_PARAMS (R452, R514) -/

@[simp] theorem State.quad_modQuad (s : State) {q : Nat} (f : Quad → Quad) (h : q < 4) : (s.modQuad q f).quad q = f (s.quad q) := by
  simp [State.quad, State.modQuad, h]

theorem State.thermFields_reads {q : Nat} (hquad : m.f 16 1 = q) (hq : q < s.chip.model.quads) (hread : m.f 17 1 = 2) :
    s.thermFields m = none := by
  have hbit : Nat.testBit 2 1 = true := by decide
  exact checks_eq_none (by simp [extraBits, hquad, hq, hread, hbit])

theorem State.thermFields_sets {q : Nat} (hquad : m.f 16 1 = q) (hq : q < s.chip.model.quads) (hset : m.f 17 1 = 0)
    (hlimit : 280 ≤ m.f 18 2 ∧ m.f 18 2 ≤ 420) (hrth : 50 ≤ m.f 20 4 ∧ m.f 20 4 ≤ 5000)
    (htau : 1000 ≤ m.f 24 4 ∧ m.f 24 4 ≤ 1000000) (hhorizon : 1 ≤ m.f 28 2 ∧ m.f 28 2 ≤ 100) : s.thermFields m = none := by
  have hbits : (extraBits m 17 1 2).1 = false := by simp [extraBits, hset]
  have hpresent : (m.f 16 1 != 0xFF && decide (s.chip.model.quads ≤ m.f 16 1)) = false := by simp [hquad, hq]
  refine checks_eq_none fun c hc => ?_
  simp only [List.mem_cons, List.not_mem_nil, or_false] at hc
  rcases hc with rfl | rfl | rfl | rfl | rfl | rfl
  · exact hbits
  · exact hpresent
  · exact outside_eq_false hlimit _
  · exact outside_eq_false hrth _
  · exact outside_eq_false htau _
  · exact outside_eq_false hhorizon _

theorem State.quadsOf_one {q : Nat} (hquad : m.f 16 1 = q) (hq : q < 4) : s.quadsOf m = [q] := by
  rw [State.quadsOf, hquad, if_neg (by omega)]

theorem State.thermParams_reads {q : Nat} (hquad : m.f 16 1 = q) (hq : q < 4) (hread : m.f 17 1 = 2) (retries : Nat) :
    s.thermParams m retries = (⟨0, 0, 0, (s.quad q).values⟩, s) := by
  unfold State.thermParams
  rw [hread, State.quadsOf_one hquad hq]
  rfl

/-- A quadrant with the parameters of a request. -/
def Quad.setBy (x : Quad) (m : Cmd) : Quad := { x with limit := m.f 18 2, rth := m.f 20 4, tau := m.f 24 4, horizon := m.f 28 2 }

theorem State.thermParams_sets {q : Nat} (hquad : m.f 16 1 = q) (hq : q < 4) (hset : m.f 17 1 = 0) (retries : Nat) :
    s.thermParams m retries = (⟨0, 0, 0, ((s.quad q).setBy m).values⟩, s.modQuad q (·.setBy m)) := by
  rw [← s.quad_modQuad (·.setBy m) hq]
  unfold State.thermParams
  rw [hset, State.quadsOf_one hquad hq]
  rfl

/-! ### TIMESYNC (R353) -/

theorem State.anyIn_true (s : State) :
    s.anyIn true = s.present.any fun k => (s.sl k).state == .running || (s.sl k).state == .draining := by
  unfold State.anyIn State.slicesIn
  induction s.present with
  | nil => rfl
  | cons k ks ih => 
    cases h : ((s.sl k).state == .running || (s.sl k).state == .draining) <;> simp_all

theorem State.syncRefused_late (h : (s.tb.lastCap.isNone || m.f 16 2 != s.tb.seq.toNat) = true) : s.syncRefused m = true := by
  unfold State.syncRefused
  dsimp only
  rw [h, Bool.true_or]

section inTime
variable (h : (s.tb.lastCap.isNone || m.f 16 2 != s.tb.seq.toNat) = false)
include h

theorem State.syncRefused_step (hmode : m.f 18 1 = 0) :
    s.syncRefused m = (decide (s.syncOffset m < 0) || s.anyIn true || s.roundOpen) := by
  unfold State.syncRefused
  dsimp only
  rw [h, Bool.false_or, if_pos hmode]

theorem State.syncRefused_slew (hmode : m.f 18 1 = 1) : s.syncRefused m = decide (1000000 < (s.syncOffset m).natAbs) := by
  unfold State.syncRefused
  dsimp only
  rw [h, Bool.false_or, if_neg (by rw [hmode]; decide)]

end inTime

/-- The block with its time base stepped by an offset, before the entry. -/
def State.stepped (s : State) (o : Int) : State :=
  { s with tb := { s.tb with synced := true, lastOffset := satOffset o, slewRemain := 0, now := BitVec.ofInt 64 (s.now + o) } }

/-- The block whose time base is to slew by an offset, before the entry. -/
def State.slewing (s : State) (o : Int) : State :=
  { s with tb := { s.tb with synced := true, lastOffset := satOffset o, slewRemain := o, nextSlew := s.now + s.setting 0x0105 } }

theorem State.timesync_refused (h : s.syncRefused m = true) : s.timesync m = (.no 5 0 0, s) := if_pos h

section taken
variable (h : s.syncRefused m = false)
include h

theorem State.timesync_steps (hmode : m.f 18 1 = 0) :
    ∃ res t, s.timesync m = (⟨0, 0, 0, res⟩, t) ∧ (s.stepped (s.syncOffset m)).Logged t := by
  unfold State.timesync
  dsimp only
  rw [h, hmode]
  exact ⟨_, _, rfl, State.Logged.log ..⟩

theorem State.timesync_slews (hmode : m.f 18 1 = 1) :
    ∃ res t, s.timesync m = (⟨0, 0, 0, res⟩, t) ∧ (s.slewing (s.syncOffset m)).Logged t := by
  unfold State.timesync
  dsimp only
  rw [h, hmode]
  exact ⟨_, _, rfl, State.Logged.log ..⟩

end taken

section exec
variable (h : Serves s ch m 0x1F) (hclean : clean m [(16, 2), (18, 1), (24, 8)] = true)
include h hclean

theorem exec_timesync_badMode (hmode : 1 < m.f 18 1) : exec (.timesync ch) s = .next (ended s ch m 2 18 0 []) :=
  h.act_stops (n := syncNeed) hclean (if_pos (decide_eq_true hmode)) _

variable (hmode : m.f 18 1 ≤ 1)
include hmode

theorem exec_timesync_refused (hrefused : s.syncRefused m = true) : exec (.timesync ch) s = .next (ended s ch m 5 0 0 []) :=
  h.act_runs (n := syncNeed) hclean (if_neg (by simpa using hmode)) rfl (State.timesync_refused hrefused) rfl rfl rfl

/-- A TIMESYNC that is taken completes OK, with the time base as it sets it. -/
theorem exec_timesync_taken {res : List Byte} {t u : State} (ht : s.timesync m = (⟨0, 0, 0, res⟩, t)) (hlog : u.Logged t)
    (hmbox : u.mbox = s.mbox) (hpending : u.pending = s.pending) (hchip : u.chip = s.chip) :
    ∃ v, exec (.timesync ch) s = .next v ∧ completed v ch m 0 = true ∧ v.tb = u.tb ∧ v.slices = u.slices :=
  ⟨_, h.act_runs (n := syncNeed) hclean (if_neg (by simpa using hmode)) rfl ht (hlog.mbox.trans hmbox) (hlog.pending.trans hpending)
    (hlog.chip.trans hchip), completed_ended t ch m (by decide) 0 0 res, hlog.tb, hlog.slices⟩

end exec

/-! ### The statement -/

/-- Settles O51: each command passes its checks or fails the first one, and its effect is one change of the power manager's record, of a
quadrant's or of the time base. -/
theorem powerAndTimeCommands : Obligations.PowerAndTimeCommands := by
  unfold Obligations.PowerAndTimeCommands
  intro s ch r m q
  refine ⟨fun h hclean hflag hwin => ?cap, fun h hclean hquad hq => ?therm, fun h hclean => ?sync⟩ <;>
    replace h := Serves.of_serving h
  case cap =>
    refine ⟨fun hcap => h.act_stops (n := s.capNeed) hclean (State.capFields_badCap hflag hcap) _, fun hlo hhi => ?_⟩
    obtain ⟨settings, hset⟩ := s.withCap_eq m
    have hexec : exec (.powerCap ch r) s = _ := h.act_runs (n := s.capNeed) hclean (State.capFields_passes hflag hlo hhi hwin) rfl
      (State.powerCap_sets hflag r.toNat) (by rw [hset]) (by rw [hset]) (by rw [hset])
    refine ⟨_, hexec, completed_ended _ ch m (by decide) 0 0 _, ?_⟩
    rw [hset]
    exact ⟨rfl, rfl, rfl⟩
  case therm =>
    intro values
    refine ⟨fun hread => h.act_runs (n := s.thermNeed) hclean (State.thermFields_reads hquad hq hread) rfl
      (State.thermParams_reads hquad q.isLt hread r.toNat) rfl rfl rfl, fun hset hl1 hl2 hr1 hr2 ht1 ht2 hh1 hh2 => ?_⟩
    exact h.act_runs (n := s.thermNeed) hclean
      (State.thermFields_sets hquad hq hset ⟨hl1, hl2⟩ ⟨hr1, hr2⟩ ⟨ht1, ht2⟩ ⟨hh1, hh2⟩) rfl
      (State.thermParams_sets hquad q.isLt hset r.toNat) rfl rfl rfl
  case sync =>
    intro o busy late
    have hbusy : busy = (s.roundOpen || s.anyIn true) := by rw [s.anyIn_true]; rfl
    have hstep (hmode : m.f 18 1 = 0) (hlate : late = false) : s.syncRefused m = (decide (o < 0) || busy) := by
      rw [State.syncRefused_step hlate hmode, hbusy, Bool.or_comm s.roundOpen, Bool.or_assoc]
      rfl
    have hslew (hmode : m.f 18 1 = 1) (hlate : late = false) : s.syncRefused m = decide (1000000 < o.natAbs) :=
      State.syncRefused_slew hlate hmode
    refine ⟨exec_timesync_badMode h hclean, fun hmode hlate => exec_timesync_refused h hclean hmode (State.syncRefused_late hlate),
      fun hmode hlate hno => ?stepRefused, fun hmode hlate hno => ?slewRefused, fun hmode hlate hpos hidle => ?steps,
      fun hmode hlate hsmall => ?slews⟩
    case stepRefused =>
      refine exec_timesync_refused h hclean (by omega) ((hstep hmode hlate).trans ?_)
      rwa [Bool.or_eq_true, decide_eq_true_eq]
    case slewRefused => exact exec_timesync_refused h hclean hmode.le ((hslew hmode hlate).trans (decide_eq_true hno))
    case steps =>
      have htaken : s.syncRefused m = false := by
        rw [hstep hmode hlate, hidle, Bool.or_false]
        exact decide_eq_false (not_lt.2 hpos)
      obtain ⟨res, t, ht, hlog⟩ := State.timesync_steps htaken hmode
      obtain ⟨v, hexec, hdone, htb, hslices⟩ := exec_timesync_taken h hclean (by omega) ht hlog rfl rfl rfl
      exact ⟨v, hexec, hdone, by rw [htb]; rfl, by rw [htb]; rfl, by rw [htb]; rfl, hslices⟩
    case slews =>
      have htaken : s.syncRefused m = false := (hslew hmode hlate).trans (decide_eq_false (not_lt.2 hsmall))
      obtain ⟨res, t, ht, hlog⟩ := State.timesync_slews htaken hmode
      obtain ⟨v, hexec, hdone, htb, hslices⟩ := exec_timesync_taken h hclean hmode.le ht hlog rfl rfl rfl
      exact ⟨v, hexec, hdone, by rw [htb]; rfl, by rw [htb]; rfl, by rw [htb]; rfl, hslices⟩

end Sys2Proof.Machine
end

section
/-! SUPPORT. A fault of a slice that runs nothing: no store of it changes (R146, R468, R540). -/

namespace Sys2Proof.Machine

/-- A slice that a fault drains, before its work is aborted. -/
def State.faultDrained (s : State) (k code cause : Nat) : State :=
  (s.mod k fun x => { x with faultNs := some s.now }).drainTo k cause .faulted code

theorem State.faultDrained_sl (s : State) {k : Nat} (hk : k < 32) (code cause : Nat) : (s.faultDrained k code cause).sl k =
    { s.sl k with faultNs := some s.now }.drainingTo cause .faulted code := by
  rw [State.faultDrained, (State.Beside.drainTo hk _ cause .faulted code).sl, State.sl_setSl _ _ _ hk, State.sl_mod _ _ _ hk]

theorem State.faultSlice_running_eq {s : State} {k : Nat} (h : (s.sl k).state = .running) (code cause : Nat) : s.faultSlice k code cause =
    if (s.sl k).overNs = some ((s.faultDrained k code cause).abortWork k 2 code).now then
      ((s.faultDrained k code cause).abortWork k 2 code).overFault k code
    else (s.faultDrained k code cause).abortWork k 2 code := by
  unfold State.faultSlice
  rw [if_pos h]
  rfl

section idle
variable {s : State} {k : Nat} (h : (s.sl k).flight = [])
include h

theorem State.cancelRolls_idle : s.cancelRolls k = s :=
  List.foldl_fixed' (fun r => if_neg (by rw [h]; simp)) _

theorem State.stopMarks_idle : s.stopMarks k = ([], s) := by
  unfold State.stopMarks
  rw [h]
  rfl

theorem State.letGo_idle : (s.semLeave k).Beside (s.letGo k []) := by
  have hrolls : (s.semLeave k).cancelRolls k = s.semLeave k := State.cancelRolls_idle (s := s.semLeave k) h
  rw [State.letGo, List.foldl_nil, hrolls]
  exact .forwardOnly (.refl _) k

theorem State.stopAll_idle (status code : Nat) : s.stopAll k status code = s := by
  rw [State.stopAll, State.stopMarks_idle h, List.foldl_nil]

/-- An abort finds nothing to stop. -/
theorem State.abortWork_idle (hk : k < 32) (status code : Nat) : (s.abortWork k status code).sl k = (s.sl k).aborted := by
  obtain ⟨gone, habort⟩ := s.abortWork_eq k status code
  have hset : (s.setSl k (s.sl k).aborted).sl k = (s.sl k).aborted := State.sl_setSl s k _ hk
  have hnone : ((s.setSl k (s.sl k).aborted).sl k).flight = [] := by rw [hset, Slice.aborted, h, List.filter_nil]
  have hgo := State.letGo_idle hnone
  have hsl : ((s.setSl k (s.sl k).aborted).letGo k []).sl k = (s.sl k).aborted := (hgo.sl k).trans hset
  rw [habort, h, State.stopAll_idle (by rw [hsl, ← hset]; exact hnone), ((State.Beside.refl _).logAbort ..).sl, hsl]

theorem State.overFault_idle (hk : k < 32) (code : Nat) : (s.overFault k code).sl k = s.sl k := by
  unfold State.overFault
  split
  · have hdraw : s.draw.2.sl k = s.sl k := rfl
    rw [State.sl_mod _ _ _ hk, hdraw, h, List.map_nil, ← h]
  · rfl

/-- A fault of a running slice with nothing in flight changes only what every fault does. -/
theorem State.faultSlice_idle (hk : k < 32) (hrun : (s.sl k).state = .running) (code cause : Nat) :
    (s.faultSlice k code cause).sl k = (s.sl k).faultedBy s.now cause code := by
  have hdrained := s.faultDrained_sl hk code cause
  have habort : ((s.faultDrained k code cause).abortWork k 2 code).sl k = (s.sl k).faultedBy s.now cause code := by
    rw [State.abortWork_idle (by rw [hdrained]; exact h) hk, hdrained]
    rfl
  have hnone : (((s.faultDrained k code cause).abortWork k 2 code).sl k).flight = [] := by
    rw [habort, Slice.faultedBy, Slice.aborted, Slice.drainingTo, h]
    rfl
  rw [State.faultSlice_running_eq hrun]
  split
  · rw [State.overFault_idle hnone hk, habort]
  · exact habort

end idle

end Sys2Proof.Machine
end

section
/-! SUPPORT. Beats of timed streams (R366 to R372, R390): those that leave, land, slip, or wait in the skid. -/

namespace Sys2Proof.Machine

/-! ### Beats that leave (R366, R367) -/

theorem streamOf_outbound (x : Slice) (id : Nat) : streamOf x false id = x.schedule.find? fun t => !t.inbound && t.id == id := by
  simp only [streamOf, beq_false]

theorem streamOf_inbound (x : Slice) (id : Nat) : streamOf x true id = x.schedule.find? fun t => t.inbound && t.id == id := by
  simp only [streamOf, beq_true]

section leave
variable {s : State} {k : SliceId} {id : W12} {t : TimedStream} (h : streamOf (s.sl k.val) false id.toNat = some t)
include h

theorem exec_timedBeatSend : exec (.timedBeatSend k id) s =
    act s (if (s.sl k.val).sendsBeats ∧ !s.clockStopped k.val ∧ (s.sl k.val).beatsDone t.id < t.count then
      s.sendBeat k.val t ((s.sl k.val).beatsDone t.id) else s) := by
  rw [streamOf_outbound] at h
  have hexec : exec (.timedBeatSend k id) s = execTimedBeatSend k id s := rfl
  rw [hexec, execTimedBeatSend, h]

theorem exec_timedBeatSend_silent (hl : s.live = true)
    (hno : (s.sl k.val).sendsBeats = false ∨ s.clockStopped k.val = true ∨ t.count ≤ (s.sl k.val).beatsDone t.id) :
    exec (.timedBeatSend k id) s = .next s := by
  rw [exec_timedBeatSend h]
  refine act_eq hl (if_neg ?_) rfl rfl
  rintro ⟨hsends, hclock, hcount⟩
  rcases hno with hno | hno | hno
  · exact absurd (hsends.symm.trans hno) (by decide)
  · rw [hno] at hclock; cases hclock
  · exact Nat.not_lt.2 hno hcount

theorem exec_timedBeatSend_sends (hsends : (s.sl k.val).sendsBeats = true) (hclock : s.clockStopped k.val = false)
    (hcount : (s.sl k.val).beatsDone t.id < t.count) :
    exec (.timedBeatSend k id) s = act s (s.sendBeat k.val t ((s.sl k.val).beatsDone t.id)) := by
  rw [exec_timedBeatSend h, if_pos ⟨hsends, by rw [hclock]; rfl, hcount⟩]

end leave

theorem timedBeatsLeave_holds : timedBeatsLeave := by
  intro s k id t hl x b h
  refine ⟨exec_timedBeatSend_silent h hl, fun hsends hclock hcount => ?_⟩
  rw [exec_timedBeatSend_sends h hsends hclock hcount]
  unfold State.sendBeat
  refine ⟨fun hpeer => ?slice, fun hpeer hport => ?sport⟩
  case slice => exact act_eq hl (if_pos hpeer) rfl rfl
  case sport => exact act_eq hl ((if_neg (by rw [hpeer]; decide)).trans (if_pos hport)) rfl rfl

/-! ### Judging (R369) -/

section judge
variable {t : TimedStream} {phase cycle : Nat}

theorem TimedStream.slotAt_of_le (h : t.start ≤ cycle) (hpos : 0 < t.interval) :
    t.slotAt cycle = ((cycle - t.start) / t.interval : Nat) := by
  rw [TimedStream.slotAt, max_eq_right hpos, ← Int.natCast_sub h, Int.natCast_ediv]

/-- A beat in its own slot and with its own phase is that slot's. -/
theorem TimedStream.judge_in_slot (hpos : 0 < t.interval) {n : Nat} (hlo : t.start + n * t.interval ≤ cycle)
    (hhi : cycle < t.start + (n + 1) * t.interval) (hn : n < t.count) (hphase : phase = n % 4) : t.judge phase cycle = (0, (n : Int)) := by
  have hstart : t.start ≤ cycle := (Nat.le_add_right ..).trans hlo
  have hslot : t.slotAt cycle = n := by
    rw [TimedStream.slotAt_of_le hstart hpos]
    exact congrArg Nat.cast (Nat.div_eq_of_lt_le (by omega) (by omega))
  have hlast : (n + 1) * t.interval ≤ t.count * t.interval := Nat.mul_le_mul_right _ hn
  have hin : ¬(cycle + t.interval < t.start ∨ t.start + t.count * t.interval < cycle) := by omega
  have hd : ((phase : Int) - n) % 4 = 0 := by omega
  unfold TimedStream.judge
  simp only [hslot, if_neg hin, hd, if_true]
  exact if_neg (by omega)

/-- A beat with another phase than its slot's, or before the first slot, is of another case than 0. -/
theorem TimedStream.judge_not_own (hpos : 0 < t.interval) (hlt : phase < 4)
    (h : t.start ≤ cycle → phase ≠ (cycle - t.start) / t.interval % 4) : (t.judge phase cycle).1 ≠ 0 := by
  have hearly : ((phase : Int) - t.slotAt cycle) % 4 = 0 → t.slotAt cycle < 0 := by
    intro hd
    by_cases hle : t.start ≤ cycle
    · have hne := h hle
      rw [TimedStream.slotAt_of_le hle hpos] at hd
      omega
    · exact Int.ediv_neg_of_neg_of_pos (by omega) (by omega)
  unfold TimedStream.judge
  by_cases hd : ((phase : Int) - t.slotAt cycle) % 4 = 0
  · simp only [if_pos hd, hearly hd, true_or, and_true, ne_eq, OfNat.zero_ne_ofNat, not_false_eq_true, if_true, ite_self]
    decide
  · simp only [if_neg hd]
    split_ifs <;> simp_all

end judge

/-! ### Beats that slip (R370, R372) -/

/-- A slice one of whose streams slips, before it faults. -/
def Slice.slipped (x : Slice) (id beats : Nat) : Slice :=
  { x with timed := { x.timed with
    skid := x.timed.skid.filter (·.stream != id), slipFault := true
    dropped := sat16 x.timed.dropped (beats + (x.timed.skid.filter (·.stream == id)).length) } }

/-- The block with a slip counted, before its interrupt. -/
def State.slipCounted (s : State) : State := { s with tick := { s.tick with slips := sat16 s.tick.slips 1 } }

theorem State.slipFault_eq (s : State) (k : Nat) (t : TimedStream) (amount : Nat) (slot : Int) (beats : Nat) :
    ∃ data, s.slipFault k t amount slot beats =
      (((s.log k 5 0x0502 true data).slipCounted.irqSet 4).mod k (·.slipped t.id beats)).faultSlice k 0x0502 5 := ⟨_, rfl⟩

/-- What a slip leaves of its slice and of the block. -/
structure State.Slips (s : State) (k : Nat) (u : State) : Prop where
  state : (u.sl k).state = .draining
  drain : (u.sl k).drain.map (·.fault) = some 0x0502
  slips : u.tick.slips = sat16 s.tick.slips 1
  irq : u.irq.status.getLsbD 4 = true
  slipFault : (u.sl k).timed.slipFault = true
  store : (s.sl k).flight = [] → (u.sl k).store = (s.sl k).store
  chip : u.chip = s.chip
  pending : u.pending = s.pending

theorem Slice.Stopping.timed {x y : Slice} (h : x.Stopping y) : y.timed = x.timed := by
  have heq := h.1
  unfold Slice.Stored at heq
  rw [heq]
  rfl

/-- The slice of a stream that slips faults as any running slice does. -/
theorem State.slipFault_slips {s : State} {k : Nat} (hk : k < 32) (hrun : (s.sl k).state = .running) (t : TimedStream) (amount : Nat)
    (slot : Int) (beats : Nat) : s.Slips k (s.slipFault k t amount slot beats) := by
  obtain ⟨data, hslip⟩ := s.slipFault_eq k t amount slot beats
  have hlog := State.Logged.log s k 5 0x0502 true data false
  obtain ⟨l, hl⟩ : ∃ l, s.log k 5 0x0502 true data = l := ⟨_, rfl⟩
  rw [hl] at hslip hlog
  have hsl : (l.slipCounted.irqSet 4).sl k = s.sl k := (State.Beside.of_logged hlog).sl k
  obtain ⟨v, hv⟩ : ∃ v, (l.slipCounted.irqSet 4).mod k (·.slipped t.id beats) = v := ⟨_, rfl⟩
  have hvsl : v.sl k = (s.sl k).slipped t.id beats := by rw [← hv, State.sl_mod _ _ _ hk, hsl]
  have hvrun : (v.sl k).state = .running := by rw [hvsl]; exact hrun
  have hstops := State.Stops.faultSlice hk hvrun 0x0502 5
  have hstop := (State.faultSlice_running hk hvrun 0x0502 5).slice
  obtain ⟨hstate, hdrain, -⟩ := hstop.keeps
  rw [hslip, hv]
  exact {
    state := hstate
    drain := congrArg (Option.map Drain.fault) hdrain
    slips := by
      rw [hstops.tick]
      exact (congrArg (·.tick.slips) hv.symm).trans (congrArg (fun c : Tick => sat16 c.slips 1) hlog.tick)
    irq := hstops.irq (by
      have hirq := State.irqSet_status l.slipCounted (i := 4) (by decide)
      rw [← hv]
      exact hirq)
    slipFault := by rw [hstop.timed, hvsl]; rfl
    store := fun hidle => by
      have hvidle : (v.sl k).flight = [] := by rw [hvsl]; exact hidle
      rw [State.faultSlice_idle hvidle hk hvrun, hvsl]
      rfl
    chip := by rw [hstops.chip, ← hv]; exact hlog.chip
    pending := by rw [hstops.pending, ← hv]; exact hlog.pending }

/-! ### Beats that arrive (R366, R369, R390) -/

theorem State.receiveBeat_strict {t : TimedStream} (hstrict : t.tolerant = false) (s : State) (k phase cycle : Nat) (data : List Byte) :
    s.receiveBeat k t phase cycle data =
      if (t.judge phase cycle).1 ≠ 0 ∨ s.pastEdge (cycle + t.landing k) then
        s.slipFault k t (t.judge phase cycle).1 (t.slotAt cycle) 1
      else s.mod k fun y => (y.arrived t.id (t.judge phase cycle).2.toNat).landBeat t (t.judge phase cycle).2.toNat data := by
  unfold State.receiveBeat
  simp only [hstrict, Bool.false_eq_true, if_false]

/-- A beat that is the next of its stream, where none waits in the skid. -/
theorem Slice.arrived_next {x : Slice} {id n : Nat} (hdone : x.beatsDone id = n) (hskid : ∀ y ∈ x.timed.skid, y.stream ≠ id) :
    x.arrived id n = x.setBeats id (n + 1) := by
  have hnone : (x.timed.skid.any fun b => b.stream == id && b.index == n + 1) = false :=
    List.any_eq_false.2 fun y hy => by simp [hskid y hy]
  unfold Slice.arrived
  simp only [hdone, hnone, ne_eq, not_true_eq_false, Bool.false_eq_true, if_false]

/-- A beat that arrives at a SPORT comes to the slice that its stream names. -/
theorem exec_timedBeatArrive_sport {s : State} {k : Nat} {t : TimedStream} {b : TimedBeat} (hsport : b.sport = true)
    (hport : b.port.val < s.chip.model.sports)
    (hfind : (s.present.find? fun j => ((s.sl j).inbound b.stream.toNat false).any fun t => t.peer == b.port.val) = some k)
    (ht : (s.sl k).inbound b.stream.toNat false = some t) (hrun : (s.sl k).state = .running) :
    exec (.timedBeatArrive b) s = act s (s.receiveBeat k t b.phase.toNat b.cycle.toNat b.data) := by
  have hbeat : s.sportBeat b.port.val b.stream.toNat b.phase.toNat b.cycle.toNat b.data =
      s.receiveBeat k t b.phase.toNat b.cycle.toNat b.data := by
    unfold State.sportBeat
    simp only [hfind, ht]
    exact if_pos hrun
  exact congrArg (act s) ((if_pos hsport).trans ((if_pos hport).trans hbeat))

theorem timedBeatsArrive_holds : timedBeatsArrive := by
  intro s k t b hl hsport hport hpeer hkind hstrict hpos hfind x ht hrun
  have hexec := exec_timedBeatArrive_sport hsport hport hfind ht hrun
  rw [hexec]
  refine ⟨fun n hlo hhi hn hphase hdone hskid hedge => ?lands, fun hphase => ?slips⟩ <;>
    rw [State.receiveBeat_strict hstrict]
  case lands =>
    have hjudge := TimedStream.judge_in_slot hpos hlo hhi hn hphase
    rw [hjudge, hedge, if_neg (by simp), Int.toNat_natCast]
    refine act_eq hl ?_ rfl rfl
    rw [State.mod, Slice.arrived_next hdone hskid]
    rfl
  case slips =>
    have hjudge := TimedStream.judge_not_own hpos b.phase.isLt hphase
    have hslips := State.slipFault_slips k.isLt hrun t (t.judge b.phase.toNat b.cycle.toNat).1 (t.slotAt b.cycle.toNat) 1
    rw [if_pos (.inl hjudge)]
    exact ⟨_, act_live s _ hl hslips.pending hslips.chip, hslips.state, hslips.drain, hslips.slips, hslips.irq, hslips.slipFault,
      hslips.store⟩

/-! ### Beats lost (R369) -/

theorem exec_beatLost {s : State} {k : SliceId} {id : W12} {t : TimedStream} (h : streamOf (s.sl k.val) true id.toNat = some t)
    (slot : W32) : exec (.beatLost k id slot) s =
      act s (if (s.sl k.val).state = .running ∧ (s.sl k.val).beatsDone t.id < t.count ∧
          slot.toNat = (s.sl k.val).beatsDone t.id + 1 then
        s.slipFault k.val t 0x7E slot.toNat 0 else s) := by
  rw [streamOf_inbound] at h
  have hexec : exec (.beatLost k id slot) s = execBeatLost k id slot s := rfl
  rw [hexec, execBeatLost, h]

/-! ### The skid (R371) -/

/-- Of two beats in the skid, the one whose slot of release comes first. -/
def SkidBeat.earlier (a c : SkidBeat) : SkidBeat := if c.due < a.due then c else a

/-- The beat whose slot comes before that of each other one is found. -/
theorem foldl_earlier {y : SkidBeat} : ∀ (bs : List SkidBeat) (b : SkidBeat), y ∈ b :: bs →
    (∀ z ∈ b :: bs, z ≠ y → y.due < z.due) → bs.foldl SkidBeat.earlier b = y
  | [], b, hy, _ => (List.mem_singleton.1 hy).symm
  | c :: cs, b, hy, hfirst => by
    have hone : b.earlier c = c ∨ b.earlier c = b := ite_eq_or_eq ..
    have hfound : b = y ∨ c = y → b.earlier c = y := by
      have hb := hfirst b (.head _)
      have hc := hfirst c (.tail _ (.head _))
      unfold SkidBeat.earlier
      grind
    rw [List.foldl_cons]
    exact foldl_earlier cs (b.earlier c) (by grind) fun z hz hne => hfirst z (by grind) hne

theorem Slice.nextRelease_none {x : Slice} {id : Nat} (h : ∀ y ∈ x.timed.skid, y.stream ≠ id) : x.nextRelease id = none := by
  have hnil : x.timed.skid.filter (·.stream == id) = [] := List.filter_eq_nil_iff.2 fun y hy => by simp [h y hy]
  unfold Slice.nextRelease
  rw [hnil]

theorem Slice.nextRelease_first {x : Slice} {id : Nat} {y : SkidBeat} (hy : y ∈ x.timed.skid) (hid : y.stream = id)
    (hfirst : ∀ z ∈ x.timed.skid, z.stream = id → z ≠ y → y.due < z.due) : x.nextRelease id = some y := by
  have hmem : y ∈ x.timed.skid.filter (·.stream == id) := List.mem_filter.2 ⟨hy, beq_iff_eq.2 hid⟩
  have hall : ∀ z ∈ x.timed.skid.filter (·.stream == id), z ≠ y → y.due < z.due := fun z hz =>
    hfirst z (List.mem_filter.1 hz).1 (beq_iff_eq.1 (List.mem_filter.1 hz).2)
  unfold Slice.nextRelease
  cases hl : x.timed.skid.filter (·.stream == id) with
  | nil => rw [hl] at hmem; cases hmem
  | cons b bs =>
    rw [hl] at hmem hall
    exact congrArg some (foldl_earlier bs b hmem hall)

section release
variable {s : State} {k : SliceId} {id : W12}

theorem exec_skidRelease_none (hl : s.live = true) (h : (s.sl k.val).nextRelease id.toNat = none) :
    exec (.skidRelease k id) s = .next s := by
  have hexec : exec (.skidRelease k id) s = execSkidRelease k id s := rfl
  rw [hexec, execSkidRelease, h]
  exact act_live s s hl rfl rfl

/-- The beat that is released lands in the window of its stream, whichever peer sends it. -/
theorem exec_skidRelease_lands {b : SkidBeat} {t : TimedStream} (h : (s.sl k.val).nextRelease id.toNat = some b)
    (ht : (s.sl k.val).inbound id.toNat false = some t ∨
      ((s.sl k.val).inbound id.toNat false = none ∧ (s.sl k.val).inbound id.toNat true = some t)) :
    exec (.skidRelease k id) s = act s (s.mod k.val fun x =>
      ({ x with timed := { x.timed with skid := x.timed.skid.erase b } }).landBeat t b.index b.data) := by
  have hexec : exec (.skidRelease k id) s = execSkidRelease k id s := rfl
  rw [hexec, execSkidRelease, h]
  rcases ht with ht | ⟨hnone, ht⟩
  · rw [ht]
  · rw [hnone, ht]

end release

theorem lostAndTolerated_holds : lostAndTolerated := by
  intro s k id slot t hl x
  refine ⟨fun h => ⟨fun hno => ?stays, fun hrun hslot hcount => ?slips⟩,
    fun hskid => exec_skidRelease_none hl (Slice.nextRelease_none hskid), fun y hy hid hfirst ht => ?lands⟩
  case stays =>
    rw [exec_beatLost h]
    refine act_eq hl (if_neg ?_) rfl rfl
    rintro ⟨hrun, hcount, hslot⟩
    exact hno.elim (· hrun) fun hno => hno.elim (· hslot) (Nat.not_le.2 hcount)
  case slips =>
    have hslips := State.slipFault_slips k.isLt hrun t 0x7E slot.toNat 0
    rw [exec_beatLost h, if_pos ⟨hrun, hcount, hslot⟩]
    exact ⟨_, act_live s _ hl hslips.pending hslips.chip, hslips.state, hslips.drain, hslips.slips⟩
  case lands =>
    rw [exec_skidRelease_lands (Slice.nextRelease_first hy hid hfirst) ht]
    exact act_live s _ hl rfl rfl

/-- Settles O22: a beat leaves or lands by one change of its slice, and one that slips faults its slice. -/
theorem timedStreams : Obligations.TimedStreams := ⟨timedBeatsLeave_holds, timedBeatsArrive_holds, lostAndTolerated_holds⟩

end Sys2Proof.Machine
end

section
/-! SUPPORT. A block that RESET_N holds, or that a test instruction has stopped (R401, R418, R419). -/

namespace Sys2Proof.Machine
variable {s : State}

theorem State.live_eq_false (h : s.pins.resetLow = true ∨ s.pins.testStopped = true) : s.live = false := by
  rcases h with h | h <;> simp [State.live, h]

/-- Such a block takes nothing of what a command makes. -/
theorem act_dead (h : s.live = false) (t : State) : act s t = .next s := congrArg Host.Outcome.next (State.commit_dead s t h)

/-- Settles O3: all but the reset, the test access and the supply pins answer by `act`, which takes effect on a live block only. -/
theorem deadBlockIgnoresCommands : Obligations.DeadBlockIgnoresCommands := by
  unfold Obligations.DeadBlockIgnoresCommands
  intro c s h
  have hdead : s.live = false := State.live_eq_false h
  have hpin : ¬s.live = true := by simp [hdead]
  cases c with
  | resetAssert | resetRelease | testInstructionLoad | ijtagInstrumentAccess | wrstnAssert => trivial
  | supplyWarn => exact if_neg hpin
  | supplyWarnDeasserted => exact if_neg hpin
  | _ => exact act_dead hdead _

end Sys2Proof.Machine
end

section
/-! SUPPORT. Semaphores that host nodes take and release by SEM_CMD (R549, R550, R552). -/

namespace Sys2Proof.Machine
variable {s : State} {src : W12} {n : Nat}

/-- An unaddressed block ignores a write of a register (R401, R407). -/
theorem act_cpWrite_unaddressed (hl : s.live = true) (hv : s.node.valid = false) (off : Nat) (t : Option State) :
    act s (s.cpWrite src off t) = .next s :=
  act_eq hl (if_pos (by rw [hv]; rfl)) rfl rfl

theorem State.sem_modSem_ne (s : State) {n j : Nat} (f : Sem → Sem) (h : n ≠ j) : (s.modSem n f).sem j = s.sem j := by
  simp [State.sem, State.modSem, h]

/-! ### TRY_ACQUIRE (R549, R550) -/

theorem State.semTry_free (hheld : (s.sem n).held = false) (hnobody : (s.sem n).waiters = []) :
    s.semTry n src = s.modSem n fun m =>
      { m with held := true, kind := 2, owner := src, abandoned := false, acqAband := m.abandoned, acquires := m.acquires + 1 } :=
  if_neg (by simp [hheld, hnobody])

theorem State.semTry_taken (h : (s.sem n).held = true ∨ (s.sem n).waiters ≠ []) : s.semTry n src = s :=
  if_pos (by simpa using h)

/-! ### RELEASE (R549) -/

/-- The semaphore is held by the host node `src`. -/
def Sem.ownedBy (m : Sem) (src : W12) : Bool := m.held && m.kind == 2 && m.owner == src

theorem State.semHostRelease_eq (s : State) (n : Nat) (src : W12) :
    s.semHostRelease n src = if (s.sem n).ownedBy src then some (s.semRelease n false) else none := by
  simp only [State.semHostRelease, Sem.ownedBy, Bool.and_eq_true, beq_iff_eq, and_assoc]

/-! ### FORCE_RELEASE (R550) -/

/-- A semaphore as a forced release leaves it. -/
def Sem.forced (m : Sem) : Sem := { m.freed with abandoned := true }

/-- A semaphore is freed by force, and that counts (R550, R552). -/
def State.freeForced (s : State) (n : Nat) : State :=
  { s.modSem n Sem.forced with semu := { (s.modSem n Sem.forced).semu with aband := sat16 s.semu.aband 1 } }

/-- It has its entry before it is granted. -/
def State.forceFree (s : State) (n : Nat) : State :=
  (s.freeForced n).log 0x0109 14 4 false (objData n 0 ((s.sem n).owner.toNat + (s.sem n).kind.toNat * 2 ^ 12) 0)

theorem State.forceFree_logged (s : State) (n : Nat) : (s.freeForced n).Logged (s.forceFree n) := .log ..

theorem State.forceFree_semu (s : State) (n : Nat) : (s.forceFree n).semu = (s.freeForced n).semu :=
  (State.Beside.of_logged (s.forceFree_logged n)).semu

theorem State.sem_forceFree (s : State) (n j : Nat) : (s.forceFree n).sem j = (s.modSem n Sem.forced).sem j := by
  rw [State.sem, State.forceFree_semu]; rfl

theorem State.semRelease_forced (hn : n < 256) (h : (s.sem n).waiters = []) : s.semRelease n true = s.forceFree n := by
  have hnobody : ((s.forceFree n).sem n).waiters = [] := by
    rw [State.sem_forceFree, State.sem_modSem _ _ _ hn]; exact h
  have hgrant : s.semRelease n true = (s.forceFree n).semGrant n := rfl
  rw [hgrant, State.semGrant, hnobody]

theorem State.semForce_excluded (h : s.ownerRefuses src = true) : s.semForce n src = none := if_pos h

theorem State.semForce_allowed (h : s.ownerRefuses src = false) :
    s.semForce n src = some (if (s.sem n).held then s.semRelease n true else s) := if_neg (by rw [h]; decide)

/-! ### The statement -/

/-- Settles O23: each operation refuses the write, or makes one change of the semaphore it names. -/
theorem hostSemaphores : Obligations.HostSemaphores := by
  unfold Obligations.HostSemaphores
  intro s src n hl m owned excluded
  have hn : n.toNat < 256 := n.isLt
  have htry : exec (.semTryAcquire src n) s = act s (s.cpWrite src 0xA800 (some (s.semTry n.toNat src))) := rfl
  have hrelease : exec (.semRelease src n) s = act s (s.cpWrite src 0xA800 (s.semHostRelease n.toNat src)) := rfl
  have hforce : exec (.semForceRelease src n) s = act s (s.cpWrite src 0xA800 (s.semForce n.toNat src)) := rfl
  have howned : (s.sem n.toNat).ownedBy src = owned := rfl
  refine ⟨fun hv => ⟨act_cpWrite_unaddressed hl hv _ _, act_cpWrite_unaddressed hl hv _ _, act_cpWrite_unaddressed hl hv _ _⟩,
    fun hv => ⟨fun hheld hnobody => ?acquires, fun htaken => ?taken, fun hown hnobody => ?releases, fun hother => ?notOwner,
      fun hexcl => ?excluded, fun hallow hfree => ?notHeld, fun hallow hheld hnobody => ?forces⟩⟩
  case acquires =>
    rw [htry, State.semTry_free hheld hnobody]
    exact act_cpWrite_some hl hv rfl rfl
  case taken =>
    rw [htry, State.semTry_taken htaken]
    exact act_cpWrite_some hl hv rfl rfl
  case releases =>
    rw [hrelease, State.semHostRelease_eq, howned, if_pos hown, State.semRelease_nobody hn hnobody]
    exact act_cpWrite_some hl hv rfl rfl
  case notOwner =>
    rw [hrelease, State.semHostRelease_eq, howned, if_neg (by simpa using hother)]
    exact act_cpWrite_none hl hv
  case excluded =>
    rw [hforce, State.semForce_excluded hexcl]
    exact act_cpWrite_none hl hv
  case notHeld =>
    rw [hforce, State.semForce_allowed hallow, if_neg (by simpa using hfree)]
    exact act_cpWrite_some hl hv rfl rfl
  case forces =>
    have hlog := s.forceFree_logged n.toNat
    rw [hforce, State.semForce_allowed hallow, if_pos hheld, State.semRelease_forced hn hnobody]
    refine ⟨_, act_cpWrite_some hl hv hlog.pending hlog.chip, ?_, congrArg SemUnit.aband (s.forceFree_semu _), fun j hj => ?_⟩
    · exact (s.sem_forceFree _ _).trans (State.sem_modSem s _ Sem.forced hn)
    · exact (s.sem_forceFree _ _).trans (State.sem_modSem_ne s Sem.forced hj.symm)

end Sys2Proof.Machine
end

section
/-! SUPPORT. Beats of a SPORT that access the aperture (R391 to R393, R471). -/

namespace Sys2Proof.Machine

/-! ### The header of an aperture access (R393) -/

/-- The field of a header that starts at bit `lo` and has `n` bits. -/
def hdrField (h : W64) (lo n : Nat) : Nat := h.toNat / 2 ^ lo % 2 ^ n

/-- A header asks operation `op`, with `tag`, of the line `line` of slice `k`, and its reserved bits are 0. -/
structure Asks (h : W64) (op tag k line : Nat) : Prop where
  op : hdrField h 0 4 = op
  tag : hdrField h 4 12 = tag
  slice : hdrField h 16 5 = k
  line : hdrField h 24 17 = line
  reserved : hdrField h 21 3 = 0
  rest : hdrField h 41 23 = 0

theorem Asks.of_word {op tag k line : Nat} (hop : op < 16) (htag : tag < 4096) (hk : k < 32) (hline : line < 98304) :
    Asks (BitVec.ofNat 64 (op + tag * 2 ^ 4 + k * 2 ^ 16 + line * 2 ^ 24)) op tag k line := by
  have hword : (BitVec.ofNat 64 (op + tag * 2 ^ 4 + k * 2 ^ 16 + line * 2 ^ 24)).toNat =
      op + tag * 2 ^ 4 + k * 2 ^ 16 + line * 2 ^ 24 := by
    rw [BitVec.toNat_ofNat]; omega
  constructor <;> (rw [hdrField, hword]; omega)

variable {s : State} {p k vc : Nat} {h : W64} {op tag line : Nat} {data : List Byte}

/-! ### The access (R392, R393, R471) -/

/-- The aperture of slice `k` is open, and the slice is supplied and loaded past COLD (R392, R471). -/
def State.apertureOpen (s : State) (k : Nat) : Bool :=
  s.ports.aperture.getLsbD k && decide (k < s.chip.model.slices) && (s.sl k).state != .off && (s.sl k).state != .cold

theorem State.apertureBad_eq (ha : Asks h op tag k line) (hop : op = 1 ∨ op = 2) (hline : line < 98304) :
    s.apertureBad h = !s.apertureOpen k := by
  have hbad : s.apertureBad h = (!s.ports.aperture.getLsbD (hdrField h 16 5) || !s.present.contains (hdrField h 16 5) ||
    (s.sl (hdrField h 16 5)).state == .off || (s.sl (hdrField h 16 5)).state == .cold ||
    decide (25165824 ≤ hdrField h 24 17 * 256) || (hdrField h 0 4 != 1 && hdrField h 0 4 != 2) || hdrField h 21 3 != 0 ||
    hdrField h 41 23 != 0) := rfl
  have hfits : ¬25165824 ≤ line * 256 := by omega
  have hpresent : s.present.contains k = decide (k < s.chip.model.slices) := by simp [State.present]
  rw [hbad, ha.op, ha.slice, ha.line, ha.reserved, ha.rest, hpresent, decide_eq_false hfits, State.apertureOpen]
  rcases hop with rfl | rfl <;> simp [Bool.not_and, bne]

theorem State.aperture_eq (s : State) (p vc : Nat) (h : W64) (data : List Byte) : s.aperture p vc h data =
    if s.apertureBad h then s.modSport p fun x => x.answer vc 5 (hdrField h 4 12) []
    else if hdrField h 0 4 = 1 then
      (s.mod (hdrField h 16 5) fun x => { x with
        store := x.store.writeN (hdrField h 24 17 * 256) ((data ++ List.replicate 256 0).take 256) }).modSport p fun x =>
          x.answer vc 4 (hdrField h 4 12) []
    else s.modSport p fun x => x.answer vc 3 (hdrField h 4 12) ((s.sl (hdrField h 16 5)).store.readN (hdrField h 24 17 * 256) 256) := rfl

theorem State.aperture_closed (ha : Asks h op tag k line) (hop : op = 1 ∨ op = 2) (hline : line < 98304)
    (hopen : s.apertureOpen k = false) : s.aperture p vc h data = s.modSport p fun x => x.answer vc 5 tag [] := by
  rw [State.aperture_eq, State.apertureBad_eq ha hop hline, hopen, ha.tag]; rfl

theorem State.aperture_writes (ha : Asks h 1 tag k line) (hline : line < 98304) (hopen : s.apertureOpen k = true) :
    s.aperture p vc h data = (s.setSl k { s.sl k with
      store := (s.sl k).store.writeN (line * 256) ((data ++ List.replicate 256 0).take 256) }).modSport p fun x => x.answer vc 4 tag [] := by
  rw [State.aperture_eq, State.apertureBad_eq ha (.inl rfl) hline, hopen, ha.op, ha.tag, ha.slice, ha.line]; rfl

theorem State.aperture_reads (ha : Asks h 2 tag k line) (hline : line < 98304) (hopen : s.apertureOpen k = true) :
    s.aperture p vc h data = s.modSport p fun x => x.answer vc 3 tag ((s.sl k).store.readN (line * 256) 256) := by
  rw [State.aperture_eq, State.apertureBad_eq ha (.inr rfl) hline, hopen, ha.op, ha.tag, ha.slice, ha.line]; rfl

/-! ### The answer (R391, R393) -/

/-- A SPORT on which a response takes a credit of its channel, or waits for one. -/
def Sport.replied (x : Sport) (vc : Nat) (b : Beat) : Sport :=
  if x.credits vc = 0 then { x with wait := [b] }
  else if vc = 1 then { x with out1 := x.credits vc - 1, last := some b } else { x with out3 := x.credits vc - 1, last := some b }

theorem Sport.credits_wait (x : Sport) (l : List Beat) (vc : Nat) : ({ x with wait := l } : Sport).credits vc = x.credits vc := rfl

theorem Sport.answer_idle {x : Sport} (hwait : x.wait = []) (vc op tag : Nat) (data : List Byte) :
    x.answer vc op tag data = x.replied vc ⟨vc, 0, BitVec.ofNat 64 (op + tag * 16), data⟩ := by
  simp only [Sport.answer, hwait, List.nil_append, Sport.send, List.find?_cons, beq_self_eq_true, Sport.credits_wait,
    List.erase_cons_head, Sport.replied]
  refine ite_congr rfl (fun _ => rfl) fun _ => ?_
  by_cases hvc : vc = 1 <;> simp [Sport.setCredits, hvc]

theorem State.modSport_congr (s : State) (p : Nat) {f g : Sport → Sport} (h : f (s.sport p) = g (s.sport p)) :
    s.modSport p f = s.modSport p g := by
  rw [State.modSport, State.modSport, h]

/-! ### Credited beats (R391, R393) -/

/-- The inbound credits of a virtual channel that the host holds. -/
def Sport.inbound (x : Sport) (vc : Nat) : Nat := if vc = 1 then x.in1 else x.in3

section credited
variable {b : SpBeat} (hp : p < s.chip.model.sports) (hrun : s.start.done.length = 4) (hvc : b.vc = 1 ∨ b.vc = 3)
include hp hrun hvc

theorem State.credited_eq : s.credited p b =
    if (s.sport p).inbound b.vc.toNat = 0 then
      State.log { s with ports := { s.ports with credOvf := sat16 s.ports.credOvf 1 } }.draw.2 (0x0300 + p)
        (s.draw.1 % 256) (s.draw.1 / 256 % 65536) false []
    else s.aperture p b.vc.toNat b.hdr b.data := by
  refine if_neg ?_
  have hchan : b.vc.toNat = 1 ∨ b.vc.toNat = 3 := hvc.imp (congrArg BitVec.toNat) (congrArg BitVec.toNat)
  simp only [State.portsRun, hrun, beq_self_eq_true, Bool.not_true, Bool.false_eq_true, false_or, not_or, not_and_or, ge_iff_le, Nat.not_le, not_not]
  exact ⟨hp, hchan⟩

end credited

/-- Settles O26: a beat without a credit only counts and has its entry; the header of any other says what it asks. -/
theorem apertureAccesses : Obligations.ApertureAccesses := by
  unfold Obligations.ApertureAccesses
  intro s p b k line tag hl hp hrun hvc x y vc h open' c reply
  have hwrite : exec (.apertureWrite p b) s = act s (s.credited p.val b) := rfl
  have hread : exec (.apertureRead p b) s = act s (s.credited p.val b) := rfl
  refine ⟨rfl, fun hnone => ?dropped, fun hcredit hwait htag hline =>
    ⟨fun hopen hhdr => ?writes, fun hopen hhdr => ?reads, fun hclosed hhdr => ?refused⟩⟩
  case dropped =>
    have hlog := State.Logged.log { s with ports := { s.ports with credOvf := sat16 s.ports.credOvf 1 } }.draw.2 (0x0300 + p.val)
      (s.draw.1 % 256) (s.draw.1 / 256 % 65536) false [] false
    rw [hwrite, State.credited_eq hp hrun hvc, if_pos (show (s.sport p).inbound vc = 0 from hnone)]
    exact ⟨_, act_logged hl hlog rfl rfl, hlog.slices, hlog.ports⟩
  all_goals
    have hserved : s.credited p.val b = s.aperture p.val vc b.hdr b.data := (State.credited_eq hp hrun hvc).trans (if_neg hcredit)
    have hasks {op : Nat} (hop : op < 16) (hh : b.hdr = h op) : Asks b.hdr op tag k.val line := by
      rw [hh]; exact .of_word hop htag k.isLt hline
    have hanswer (op : Nat) (data : List Byte) : x.answer vc op tag data = reply op data := Sport.answer_idle hwait vc op tag data
  case writes =>
    rw [hwrite, hserved, State.aperture_writes (hasks (by decide) hhdr) hline hopen]
    exact act_eq hl (State.modSport_congr _ _ (hanswer 4 [])) rfl rfl
  case reads =>
    rw [hread, hserved, State.aperture_reads (hasks (by decide) hhdr) hline hopen]
    exact act_eq hl (State.modSport_congr _ _ (hanswer 3 _)) rfl rfl
  case refused =>
    have hclosed' : s.aperture p.val vc b.hdr b.data = s.modSport p.val fun x => x.answer vc 5 tag [] := by
      rcases hhdr with hhdr | hhdr
      · exact State.aperture_closed (hasks (by decide) hhdr) (.inl rfl) hline hclosed
      · exact State.aperture_closed (hasks (by decide) hhdr) (.inr rfl) hline hclosed
    rw [hwrite, hserved, hclosed']
    exact act_eq hl (State.modSport_congr _ _ (hanswer 5 [])) rfl rfl

end Sys2Proof.Machine
end

section
/-! SUPPORT. Credits of the SPORTs (R389, R391). -/

namespace Sys2Proof.Machine
variable {s : State} {p vc : Nat}

/-- A port that is down opens its inbound credits when it comes up, once the ports run. -/
theorem State.raiseSport_opens (hthere : p < s.chip.model.sports) (hdown : s.sportUp p = false) (hrun : s.portsRun = true) :
    s.raiseSport p = { s with ports := { s.ports with spUp := s.ports.spUp ||| (1#16 <<< p) } }.modSport p Sport.open :=
  (if_neg (by simpa [hdown] using hthere)).trans (if_pos hrun)

theorem State.raiseSport_ignored (h : s.chip.model.sports ≤ p ∨ s.sportUp p = true) : s.raiseSport p = s :=
  if_pos h.symm

theorem State.lowerSport_closes (hup : s.sportUp p = true) :
    s.lowerSport p = { s with ports := { s.ports with spUp := s.ports.spUp &&& ~~~(1#16 <<< p) } }.modSport p fun x =>
      { x with out1 := 0, out3 := 0, in1 := 0, in3 := 0 } :=
  if_neg (by simp [hup])

theorem State.lowerSport_ignored (h : s.sportUp p = false) : s.lowerSport p = s := if_pos (by simp [h])

theorem State.creditBack_ignored (h : s.sportUp p = false ∨ (vc ≠ 1 ∧ vc ≠ 3)) : s.creditBack p vc = s :=
  if_pos (by simpa using h)

theorem State.creditBack_eq (hup : s.sportUp p = true) (hvc : vc = 1 ∨ vc = 3) : s.creditBack p vc =
    if 255 ≤ (s.sport p).credits vc then { s with ports := { s.ports with credOvf := sat16 s.ports.credOvf 1 } }
    else s.modSport p fun x => (x.setCredits vc (x.credits vc + 1)).send vc :=
  if_neg (by simp only [hup, Bool.not_true, Bool.false_eq_true, false_or]; omega)

/-- Nothing is sent on a channel on which nothing waits. -/
theorem Sport.send_idle {x : Sport} (h : ∀ b ∈ x.wait, b.vc ≠ vc) : x.send vc = x := by
  have hnone : x.wait.find? (fun b => b.vc == vc) = none := List.find?_eq_none.2 fun b hb => by simpa using h b hb
  rw [Sport.send, hnone]

theorem Sport.setCredits_wait (x : Sport) (vc n : Nat) : (x.setCredits vc n).wait = x.wait := by
  unfold Sport.setCredits; split <;> rfl

theorem sportCredits_holds : sportCredits := by
  intro s p vc hl there up x c
  have hup : s.sportUp p.val = up := rfl
  refine ⟨fun hthere hdown hrun => ?opens, fun hno => ?raiseIgnored, fun h => ?closes, fun h => ?lowerIgnored, fun hno => ?returnIgnored,
    fun h hvc => ⟨fun hfull => ?overflows, fun hroom hwait => ?counts⟩, fun hthere => ?dropped, fun hno => ?absent⟩
  case opens =>
    exact act_eq hl (State.raiseSport_opens (of_decide_eq_true hthere) (hup.trans hdown) (by rw [State.portsRun, hrun]; rfl)) rfl rfl
  case raiseIgnored =>
    exact act_eq hl (State.raiseSport_ignored (hno.imp (fun h => Nat.not_lt.1 (of_decide_eq_false h)) hup.trans)) rfl rfl
  case closes => exact act_eq hl (State.lowerSport_closes (hup.trans h)) rfl rfl
  case lowerIgnored => exact act_eq hl (State.lowerSport_ignored (hup.trans h)) rfl rfl
  case returnIgnored => exact act_eq hl (State.creditBack_ignored (hno.imp_left hup.trans)) rfl rfl
  case overflows => exact act_eq hl ((State.creditBack_eq (hup.trans h) hvc).trans (if_pos hfull)) rfl rfl
  case counts =>
    refine act_eq hl (((State.creditBack_eq (hup.trans h) hvc).trans (if_neg (Nat.not_le.2 hroom))).trans (State.modSport_congr _ _ ?_)) rfl rfl
    exact Sport.send_idle (by rw [Sport.setCredits_wait]; exact hwait)
  case dropped => exact act_eq hl (if_pos (of_decide_eq_true hthere)) rfl rfl
  case absent => exact act_eq hl (if_neg (of_decide_eq_false hno)) rfl rfl

end Sys2Proof.Machine
end

section
/-! SUPPORT. Faults leave the ports of the block alone where no access waits for a tag (R26, R146, R397, R540). -/

namespace Sys2Proof.Machine

/-- A field that each step of a fold leaves alone is left alone by the fold. -/
theorem foldl_field {α β γ : Type} (g : β → γ) {f : β → α → β} (hf : ∀ t a, g (f t a) = g t) :
    ∀ (l : List α) (t : β), g (l.foldl f t) = g t
  | [], _ => rfl
  | a :: l, t => (foldl_field g hf l (f t a)).trans (hf t a)

variable {s : State} {k : Nat}

/-! ### Entries and rounds (R316 to R325, R377) -/

@[simp] theorem State.log_ports (src kind code : Nat) (fault : Bool) (data : List Byte) (trace : Bool) :
    (s.log src kind code fault data trace).ports = s.ports := (State.Logged.log ..).ports

@[simp] theorem State.modRport_ports (p : Nat) (f : ReelPort → ReelPort) : (s.modRport p f).ports = s.ports := by
  unfold State.modRport; split <;> rfl

@[simp] theorem State.queueForward_ports (b : Blk) : (s.queueForward b).ports = s.ports := by
  unfold State.queueForward
  split
  · rfl
  · dsimp only
    split
    · exact State.modRport_ports ..
    · rfl

@[simp] theorem State.setOutcome_ports (r k o inject : Nat) : (s.setOutcome r k o inject).ports = s.ports := by
  by_cases h : s.Awaits r k
  · obtain ⟨u, hu, heq⟩ := State.setOutcome_logged o inject h
    rw [heq]
    exact hu.ports
  · rw [State.setOutcome_stays o inject h]

@[simp] theorem State.wakeLandings_ports : s.wakeLandings.ports = s.ports :=
  State.wakeLandings_keeps (P := fun t => t.ports = s.ports) (fun _ _ _ h => h) (fun _ h => h)
    (fun _ b h => (State.queueForward_ports b).trans h) (fun _ _ _ _ h => (State.setOutcome_ports ..).trans h) rfl

@[simp] theorem State.forwardOnly_ports : (s.forwardOnly k).ports = s.ports := by
  refine State.wakeLandings_ports.trans (foldl_field State.ports (fun t r => ?_) _ s)
  dsimp only
  split
  · exact State.log_ports ..
  · rfl

@[simp] theorem State.cancelRolls_ports : (s.cancelRolls k).ports = s.ports := by
  refine foldl_field State.ports (fun t r => ?_) _ s
  dsimp only
  split <;> rfl

/-! ### What instructions have written (R104, R147) -/

@[simp] theorem State.putPart_ports (w : BitWrite) : (s.putPart k w).ports = s.ports := by
  obtain ⟨space, addr, mask, val⟩ := w
  cases space <;> rfl

@[simp] theorem State.putParts_ports (ws : List BitWrite) : (s.putParts k ws).ports = s.ports :=
  foldl_field State.ports (fun _ w => State.putPart_ports w) ws s

@[simp] theorem State.rollback_ports (n : Nat) (sure : Bool) (ws : List ElemWrite) : (s.rollback k n sure ws).ports = s.ports := by
  induction ws generalizing s with
  | nil => rfl
  | cons w ws ih =>
    unfold State.rollback
    split
    · exact ih
    · split
      · exact ih.trans (State.putParts_ports _)
      · split
        · exact ih.trans (State.putParts_ports _)
        · exact ih

@[simp] theorem State.scatterLands_ports (n : Nat) (ws : List ElemWrite) : (s.scatterLands k n ws).ports = s.ports := by
  induction ws generalizing s with
  | nil => rfl
  | cons w ws ih =>
    unfold State.scatterLands
    refine ih.trans ?_
    split
    · rfl
    · split
      · exact State.putParts_ports _
      · rfl

@[simp] theorem State.settle_ports (n : Nat) (e : Entry) (r : Running) : (s.settle k n e r).2.ports = s.ports := by
  unfold State.settle
  split
  · rfl
  · split <;> rfl

@[simp] theorem State.repoison_ports (undo : List ElemWrite) (n : Nat) (gs : List Nat) : (s.repoison n undo gs).2.ports = s.ports := by
  induction gs generalizing s undo with
  | nil => rfl
  | cons g gs ih =>
    unfold State.repoison
    split
    · exact ih _
    · split
      · exact ih _
      · exact ih _

@[simp] theorem State.keepUnits_ports (n : Nat) (e : Entry) (r : Running) : (s.keepUnits k n e r).2.ports = s.ports := by
  simp [State.keepUnits]

/-! ### Aborts and faults (R146 to R148, R468, R540) -/

@[simp] theorem State.kvStopped_ports (e : Entry) : (s.kvStopped k e).ports = s.ports := by
  unfold State.kvStopped
  split
  · split <;> rfl
  · rfl

theorem State.KvOnly.ports {f : State → State} (h : s.KvOnly f) : (f s).ports = s.ports := by
  obtain ⟨kv, hkv⟩ := h.self
  rw [hkv]

@[simp] theorem State.kvRelease_ports (key : Nat) : (s.kvRelease k key).ports = s.ports := by
  rw [State.kvRelease, (State.KvOnly.trayRoom _).ports]

@[simp] theorem State.letGo_ports (l : List Entry) : (s.letGo k l).ports = s.ports := by
  have hpins : (l.foldl (fun s e => (s.kvStopped k e).kvRelease k e.key) s).ports = s.ports :=
    foldl_field State.ports (fun _ _ => (State.kvRelease_ports _).trans (State.kvStopped_ports _)) l s
  rw [State.letGo, State.forwardOnly_ports, State.cancelRolls_ports]
  exact hpins

@[simp] theorem State.stopMarks_ports : (s.stopMarks k).2.ports = s.ports := by
  unfold State.stopMarks
  refine List.foldlRecOn (motive := fun x : Marks × State => x.2.ports = s.ports) _ _ rfl fun x h e _ => ?_
  cases e.run? with
  | none => exact h
  | some r =>
    dsimp only
    split <;> exact h

@[simp] theorem State.logAbort_ports (cause : Nat) (first : PcRef) (gone : List PcRef) : (s.logAbort k cause first gone).ports = s.ports := by
  unfold State.logAbort
  dsimp only
  split <;> simp

/-- A stopped instruction asks for no tag more; here none waits for one. -/
theorem State.stopEntry_ports (hwaits : s.ports.waits = []) (status code : Nat) (e : Entry) (n : Nat) :
    (s.stopEntry k status code e n).ports = s.ports := by
  unfold State.stopEntry
  split
  · rfl
  · split
    · rfl
    · have hkept := State.keepUnits_ports (s := s) (k := k) n e ‹_›
      refine (congrArg (fun x : Ports => { x with waits := x.waits.filter fun t => !(t.slice == k && t.key == e.key) }) hkept).trans ?_
      have hfilter : (s.ports.waits.filter fun t => !(t.slice == k && t.key == e.key)) = s.ports.waits := by rw [hwaits]; rfl
      rw [hfilter]

theorem State.abortWork_ports (hwaits : s.ports.waits = []) (status code : Nat) : (s.abortWork k status code).ports = s.ports := by
  obtain ⟨gone, habort⟩ := s.abortWork_eq k status code
  rw [habort, State.logAbort_ports, State.stopAll]
  refine List.foldlRecOn (motive := fun t : State => t.ports = s.ports) _ _ ?_ fun t h e _ => ?_
  · rw [State.stopMarks_ports, State.letGo_ports]; rfl
  · rw [State.stopEntry_ports (by rw [h]; exact hwaits), h]

theorem State.faultSlice_ports (hrun : (s.sl k).state = .running) (hwaits : s.ports.waits = []) (code cause : Nat) :
    (s.faultSlice k code cause).ports = s.ports := by
  have hdrained : (s.faultDrained k code cause).ports = s.ports := by
    simp [State.faultDrained, State.drainTo, State.toState]
  have habort : ((s.faultDrained k code cause).abortWork k 2 code).ports = s.ports := by
    rw [State.abortWork_ports (by rw [hdrained]; exact hwaits), hdrained]
  rw [State.faultSlice_running_eq hrun]
  split
  · rw [State.overFault]
    split <;> exact habort
  · exact habort

end Sys2Proof.Machine
end

section
/-! SUPPORT. Responses at the MPORTs (R26, R104, R382, R397, R541). -/

namespace Sys2Proof.Machine

/-! ### Tags (R26) -/

/-- Where an index below the bound is free, the lowest free one is found. -/
theorem lowestFree_of_free {l : List Nat} {n j : Nat} (hj : j ∉ l) (hn : j < n) : ∃ i < n, lowestFree l n = some i ∧ i ∉ l := by
  have hcard : l.toFinset.card < (Finset.range (l.length + 1)).card := by
    rw [Finset.card_range]; exact Nat.lt_succ_of_le l.toFinset_card_le
  obtain ⟨f, hf, hfl⟩ := Finset.exists_mem_notMem_of_card_lt_card hcard
  have hsome : ((List.range (l.length + 1)).find? fun i => !l.contains i).isSome = true :=
    List.find?_isSome.2 ⟨f, List.mem_range.2 (Finset.mem_range.1 hf), by simpa using hfl⟩
  obtain ⟨i, hi⟩ := Option.isSome_iff_exists.1 hsome
  obtain ⟨hfree, hrange, hlow⟩ := List.find?_range_eq_some.1 hi
  have hij : i ≤ j := by
    by_contra hlt
    exact hj (by simpa using hlow j (by omega))
  have hin : i < n := by omega
  refine ⟨i, hin, ?_, by simpa using hfree⟩
  rw [lowestFree, hi, Option.bind_some, if_pos hin]

variable {s : State}

/-- The tag indices of a quadrant that are taken. -/
def usedTags (tags : List MTag) (q : Nat) : List Nat := (tags.filter fun t => t.tag.toNat / 1024 == q).map fun t => t.tag.toNat % 1024

theorem mem_usedTags {tags : List MTag} {q i : Nat} : i ∈ usedTags tags q ↔ ∃ t ∈ tags, t.tag.toNat / 1024 = q ∧ t.tag.toNat % 1024 = i := by
  simp [usedTags, and_assoc]

/-- A slice finds a free tag of its quadrant where one of the shared ones is free. -/
theorem State.freeTag_of_free {k j : Nat} (hj : j ∉ usedTags s.ports.tags (k / 8)) (hlt : j < 768) :
    ∃ i < 1024, s.freeTag k = some i ∧ i ∉ usedTags s.ports.tags (k / 8) := by
  have hfree : s.freeTag k = (if k % 8 = 0 then (List.range' 768 256).find? fun i => !(usedTags s.ports.tags (k / 8)).contains i
    else none).or (lowestFree (usedTags s.ports.tags (k / 8)) 768) := rfl
  rw [hfree]
  cases hown : (if k % 8 = 0 then (List.range' 768 256).find? fun i => !(usedTags s.ports.tags (k / 8)).contains i else none) with
  | none =>
    obtain ⟨i, hi, hlow, hnot⟩ := lowestFree_of_free hj hlt
    exact ⟨i, by omega, hlow, hnot⟩
  | some i =>
    obtain ⟨-, hnot, hmem, -⟩ : k % 8 = 0 ∧ i ∉ usedTags s.ports.tags (k / 8) ∧ (768 ≤ i ∧ i < 1024) ∧ _ := by simpa using hown
    exact ⟨i, hmem.2, rfl, hnot⟩

theorem State.serveTags_nobody (h : s.ports.waits = []) : s.serveTags = s := by
  have hports : { s.ports with waits := [] } = s.ports := by rw [← h]
  rw [State.serveTags, h, List.foldl_nil, hports]

theorem State.serveTags_one {w : MTag} {i : Nat} (h : s.ports.waits = [w]) (hi : s.freeTag w.slice = some i) :
    s.serveTags = { s with ports := { s.ports with
      tags := s.ports.tags ++ [{ w with tag := BitVec.ofNat 12 (w.slice / 8 * 1024 + i) }], waits := [] } } := by
  have hi' : State.freeTag { s with ports := { s.ports with waits := [] } } w.slice = some i := hi
  rw [State.serveTags, h, List.foldl_cons, List.foldl_nil, hi']

/-- The tag of a response is free for others. -/
def State.dropTag (s : State) (n : W12) : State := { s with ports := { s.ports with tags := s.ports.tags.filter fun x => x.tag != n } }

theorem State.not_mem_usedTags_dropTag (s : State) (n : W12) : n.toNat % 1024 ∉ usedTags (s.dropTag n).ports.tags (n.toNat / 1024) := by
  rw [mem_usedTags]
  rintro ⟨t, ht, hq, hi⟩
  have hne : t.tag ≠ n := by simpa using (List.mem_filter.1 ht).2
  exact hne (BitVec.eq_of_toNat_eq (by omega))

/-- The tag that a response frees goes to the access that waits for one of that quadrant. -/
theorem State.serveTags_dropTag {n : W12} {w : MTag} (hw : s.ports.waits = [w]) (hq : w.slice / 8 = n.toNat / 1024)
    (hshared : n.toNat % 1024 < 768) : ∃ m : W12, (s.dropTag n).serveTags = { s with ports := { s.ports with
      tags := (s.dropTag n).ports.tags ++ [{ w with tag := m }], waits := [] } } ∧ m.toNat / 1024 = n.toNat / 1024 ∧
      ∀ x ∈ (s.dropTag n).ports.tags, x.tag ≠ m := by
  obtain ⟨i, hi, hfree, hnot⟩ := State.freeTag_of_free (s := s.dropTag n) (k := w.slice) (by rw [hq]; exact s.not_mem_usedTags_dropTag n) hshared
  have hn : n.toNat < 4096 := n.isLt
  have hm : (BitVec.ofNat 12 (w.slice / 8 * 1024 + i)).toNat = w.slice / 8 * 1024 + i := by rw [BitVec.toNat_ofNat]; omega
  refine ⟨_, State.serveTags_one hw hfree, by omega, fun x hx hxm => hnot (mem_usedTags.2 ⟨x, hx, ?_⟩)⟩
  rw [hxm]
  omega

theorem State.tagAnswer_stray {n : W12} (h : s.ports.tags.find? (fun t => t.tag == n) = none) (status : Nat) :
    s.tagAnswer n status = s.stray := by
  simp only [State.tagAnswer, h]

theorem State.tagAnswer_some {n : W12} {t : MTag} (h : s.ports.tags.find? (fun t => t.tag == n) = some t) (status : Nat) :
    s.tagAnswer n status = if status = 0 then (s.dropTag n).serveTags else (s.dropTag n).serveTags.countErr.extFault t status := by
  simp only [State.tagAnswer, h]
  rfl

/-! ### Faults by a response (R104, R397, R541) -/

section fault
variable {k : Nat} (hk : k < 32)
include hk

theorem State.Stores.putSome {t : State} (h : s.Stores k t) (ws : List BitWrite) : s.Stores k (t.putSome k ws) := by
  induction ws generalizing t with
  | nil => exact h
  | cons w ws ih =>
    unfold State.putSome
    split
    · exact ih (putPart hk (h.beside (.draw (.refl _))) w)
    · exact ih (h.beside (.draw (.refl _)))

omit hk in
@[simp] theorem State.putSome_ports (ws : List BitWrite) : (s.putSome k ws).ports = s.ports := by
  induction ws generalizing s with
  | nil => rfl
  | cons w ws ih =>
    unfold State.putSome
    split
    · exact ih.trans (State.putPart_ports w)
    · exact ih

end fault

/-- What a response in error leaves of a running instruction before it faults: its slice's stores, as R104, R147 and R397 allow. -/
theorem State.extFault_faults {t : MTag} {e : Entry} {r : Running} (hk : t.slice < 32) (hrun : s.running t.slice t.key = some (e, r))
    (hgoes : stoppedStatus r.status = false) (status : Nat) : ∃ u r', s.Stores t.slice u ∧ u.ports = s.ports ∧
      s.extFault t status = u.faultRunning t.slice e r' (respFault status) t.acc.operand t.acc.pa := by
  have hnot : ¬stoppedStatus r.status = true := by rw [hgoes]; decide
  unfold State.extFault
  simp only [hrun, if_neg hnot]
  split
  · exact ⟨s, r, .refl s _, rfl, rfl⟩
  · refine ⟨_, _, .keepUnits hk ?_ _ e _, (State.keepUnits_ports ..).trans ?_, rfl⟩
    · exact List.foldlRecOn (motive := s.Stores t.slice) _ _ (.refl s _) fun v hv w _ => hv.putSome hk w.parts
    · exact foldl_field State.ports (fun _ (w : ElemWrite) => State.putSome_ports w.parts) _ s

/-- The fault of a running instruction drains its slice; the ports stay where no access waits for a tag. -/
structure State.Faulted (s : State) (k code : Nat) (u : State) : Prop where
  ports : u.ports = s.ports
  state : (u.sl k).state = .draining
  drain : (u.sl k).drain = some ⟨5, .faulted, code⟩
  chip : u.chip = s.chip
  pending : u.pending = s.pending

theorem State.faultRunning_faulted {k : Nat} (hk : k < 32) (hstate : (s.sl k).state = .running) (hwaits : s.ports.waits = [])
    (e : Entry) (r : Running) (code operand arg : Nat) : s.Faulted k code (s.faultRunning k e r code operand arg) := by
  have hentry : ∃ v, s.Stops k v ∧ v.ports = s.ports ∧ s.faultRunning k e r code operand arg = v.faultSlice k code 5 :=
    ⟨_, (State.Stops.modEntry (keepsRunning_started fun _ => { r with status := 1, fault := code }) s k e.key).beside (.log (.refl _) ..),
      State.log_ports .., rfl⟩
  obtain ⟨v, hstops, hports, hfault⟩ := hentry
  obtain ⟨hsame, -⟩ := (hstops.sl_eq hk).keeps
  have hrun : (v.sl k).state = .running := hsame.trans hstate
  have hstopped := State.faultSlice_running hk hrun code 5
  obtain ⟨hdraining, hdrain, -⟩ := hstopped.slice.keeps
  rw [hfault]
  exact {
    ports := (State.faultSlice_ports hrun (by rw [hports]; exact hwaits) code 5).trans hports
    state := hdraining
    drain := hdrain
    chip := hstopped.chip.trans hstops.chip
    pending := hstopped.pending.trans hstops.pending }

/-- A response in error faults the instruction whose access it answers, and its slice drains. -/
theorem State.extFault_faulted {t : MTag} {e : Entry} {r : Running} (hk : t.slice < 32) (hrun : s.running t.slice t.key = some (e, r))
    (hgoes : stoppedStatus r.status = false) (hstate : (s.sl t.slice).state = .running) (hwaits : s.ports.waits = []) (status : Nat) :
    s.Faulted t.slice (respFault status) (s.extFault t status) := by
  obtain ⟨u, r', hstores, hports, hfault⟩ := State.extFault_faults hk hrun hgoes status
  obtain ⟨hsame, -⟩ := (hstores.sl_eq hk).keeps
  have hfaulted := State.faultRunning_faulted hk (hsame.trans hstate) (by rw [hports]; exact hwaits) e r' (respFault status)
    t.acc.operand t.acc.pa
  rw [hfault]
  exact { hfaulted with
    ports := hfaulted.ports.trans hports
    chip := hfaulted.chip.trans hstores.chip
    pending := hfaulted.pending.trans hstores.pending }

/-! ### Spill (R382) -/

/-- A write of one byte leaves every other byte alone, in any memory. -/
theorem Mem.read_write_ne {a x : Nat} (hx : x ≠ a) (v : Byte) : ∀ m : Mem, (m.write a v).read x = m.read x
  | [] => by
    unfold Mem.write
    split
    · rfl
    · exact if_neg hx
  | (k, b) :: m => by
    unfold Mem.write
    split
    · split
      · rfl
      · exact if_neg hx
    · split
      · subst a
        split
        · exact (if_neg hx).symm
        · exact (if_neg hx).trans (if_neg hx).symm
      · rw [Mem.read, Mem.read, Mem.read_write_ne hx v m]

/-- A write of several bytes leaves those outside its range alone, in any memory. -/
theorem Mem.read_writeN_ne {x : Nat} : ∀ (l : List Byte) (m : Mem) (a : Nat), (x < a ∨ a + l.length ≤ x) → (m.writeN a l).read x = m.read x
  | [], _, _, _ => rfl
  | b :: l, m, a, h => by
    rw [List.length_cons] at h
    rw [Mem.writeN, Mem.read_writeN_ne l _ _ (by omega), Mem.read_write_ne (by omega)]

/-- An address outside a ring of entries is outside each entry's slot. -/
theorem outside_slot {base size i a : Nat} (hi : i < size) (ha : a < base ∨ base + size * 32 ≤ a) :
    a < base + i * 32 ∨ base + i * 32 + 32 ≤ a := by omega

theorem State.freeBytes_spec (n : Nat) : ∀ s : State, (s.freeBytes n).1.length = n ∧ (s.freeBytes n).2 = { s with free := s.free + n } := by
  induction n with
  | zero => exact fun s => ⟨rfl, rfl⟩
  | succ n ih =>
    intro s
    obtain ⟨hlen, hstate⟩ := ih s.draw.2
    have hfree : s.draw.2.free + n = s.free + (n + 1) := Nat.add_right_comm s.free 1 n
    rw [hfree] at hstate
    exact ⟨congrArg (· + 1) hlen, hstate⟩

/-- A failed copy ends spill: one slot of the ring holds free bytes. -/
theorem State.spillAnswer_fails (hon : s.sheet.spillOn = true) {status : Nat} (hstatus : status ≠ 0) :
    ∃ (n : Nat) (bytes : List Byte) (free : Nat), bytes.length = 32 ∧ s.spillAnswer status = { s with
      ports := { s.ports with mpErr := sat16 s.ports.mpErr 1 }
      sheet := { s.sheet with spillOn := false, spillErr := true }
      ext := s.ext.writeN (s.sheet.base.toNat * 4096 + n % 2 ^ s.sheet.log2.toNat * 32) bytes
      free := free } := by
  obtain ⟨hlen, hfree⟩ := State.freeBytes_spec 32 s.draw.2
  refine ⟨s.sheet.wr.toNat + 2 ^ 32 - 1 - s.draw.1 % max 1 s.sheet.occ, (s.draw.2.freeBytes 32).1, s.draw.2.free + 32, hlen, ?_⟩
  unfold State.spillAnswer
  rw [if_neg (by simp [hon]), if_neg hstatus]
  dsimp only
  rw [hfree]
  rfl

/-! ### The statement -/

theorem mportResponses_holds : mportResponses := by
  intro s n kind status t hl hkind hstatus c freed
  have hkinds : ¬(kind = 3 ∨ status = 3) := not_or.2 ⟨hkind, hstatus⟩
  have hexec : exec c s = act s (s.tagAnswer n status.toNat) := congrArg (act s) (if_neg hkinds)
  have hspill : exec (.mportResponse ⟨.spill, kind, status⟩) s = act s (s.spillAnswer status.toNat) := congrArg (act s) (if_neg hkinds)
  have hanswered (h : status = 0) : status.toNat = 0 := congrArg BitVec.toNat h
  have hfailed (h : status ≠ 0) : status.toNat ≠ 0 := fun h' => h (BitVec.eq_of_toNat_eq h')
  refine ⟨fun hnone => ?stray, fun hsome => ⟨fun hok hwaits => ?frees, fun w hok hwaits hq hshared => ?serves,
    fun hbad hwaits e r hrun hgoes hstate hk => ?faults⟩, fun hon hbad => ?spill⟩
  case stray => rw [hexec, State.tagAnswer_stray hnone]; exact act_live s _ hl rfl rfl
  case frees =>
    rw [hexec, State.tagAnswer_some hsome, if_pos (hanswered hok), State.serveTags_nobody (s := s.dropTag n) hwaits]
    exact act_live s _ hl rfl rfl
  case serves =>
    obtain ⟨m, hserve, hquad, hnew⟩ := State.serveTags_dropTag hwaits hq hshared
    rw [hexec, State.tagAnswer_some hsome, if_pos (hanswered hok), hserve]
    exact ⟨m, act_live s _ hl rfl rfl, hquad, hnew⟩
  case faults =>
    have hfault := State.extFault_faulted (s := (s.dropTag n).countErr) hk hrun hgoes hstate hwaits status.toNat
    have hcode : respFault status.toNat = if status = 1 then 0x0302 else 0x0303 := by
      simp only [respFault, ← BitVec.toNat_inj]; rfl
    rw [hexec, State.tagAnswer_some hsome, if_neg (hfailed hbad), State.serveTags_nobody (s := s.dropTag n) hwaits]
    refine ⟨_, act_live s _ hl hfault.pending hfault.chip, (congrArg Ports.tags hfault.ports).trans rfl,
      (congrArg Ports.mpErr hfault.ports).trans rfl,
      hfault.state, ?_⟩
    rw [hfault.drain, ← hcode]
    rfl
  case spill =>
    obtain ⟨i, bytes, free, hlen, hfails⟩ := State.spillAnswer_fails hon (hfailed hbad)
    have hslot : i % 2 ^ s.sheet.log2.toNat < 2 ^ s.sheet.log2.toNat := Nat.mod_lt _ (Nat.two_pow_pos _)
    rw [hspill, hfails]
    refine ⟨_, act_live s _ hl rfl rfl, rfl, rfl, rfl, rfl, fun a ha => Mem.read_writeN_ne bytes s.ext _ ?_⟩
    rw [hlen]
    exact outside_slot hslot ha

/-- Settles O27: credits move as each command's lemma says; a response frees its tag, and one in error faults its instruction or ends spill. -/
theorem portsAnswer : Obligations.PortsAnswer := ⟨sportCredits_holds, mportResponses_holds⟩

end Sys2Proof.Machine
end

section
/-! SUPPORT. The mailbox rings: doorbells, pops, the start of requests, and their timeout (R415, R425 to R427, R430, R433, R434, R546,
R562). -/

namespace Sys2Proof.Machine
variable {s : State} {c : Nat}

theorem State.modChan_congr (s : State) (c : Nat) {f g : Chan → Chan} (h : f (s.chan c) = g (s.chan c)) : s.modChan c f = s.modChan c g := by
  rw [State.modChan, State.modChan, h]

theorem State.modChan_modChan (s : State) {c : Nat} (h : c < 16) (f g : Chan → Chan) :
    (s.modChan c f).modChan c g = s.modChan c fun x => g (f x) := by
  rw [State.modChan, State.chan_modChan _ _ _ h]
  simp [State.modChan]

/-- A completion is posted at once where its ring has room and nothing waits before it (R426). -/
theorem State.postCpl_posted (hroom : (s.chan c).cpls.length < 64) (hheld : (s.chan c).held = []) (m : List Byte) :
    s.postCpl c m = posted s c m := if_pos ⟨hroom, by rw [hheld]; rfl⟩

/-! ### Doorbells and pops (R415, R425 to R427) -/

theorem State.doorbell_notReady (h : s.start.phase ≠ .ready) : s.doorbell c = some s := if_pos h

theorem State.doorbell_ready (h : s.start.phase = .ready) : s.doorbell c = if 64 ≤ (s.chan c).reqs.length then none
    else some (s.modChan c fun x => { x with reqs := x.reqs ++ [x.staged], reqWr := x.reqWr + 1 }) := if_neg (not_not_intro h)

theorem State.popCpl_empty (h : (s.chan c).cpls = []) : s.popCpl c = s := if_pos (by rw [h]; rfl)

/-- A channel whose oldest completion has gone. -/
def Chan.popped (x : Chan) : Chan := { x with cpls := x.cpls.drop 1, cplRd := x.cplRd + 1 }

theorem State.popCpl_some (h : (s.chan c).cpls ≠ []) : s.popCpl c = (s.modChan c Chan.popped).drainHeld c 1 :=
  if_neg (by simpa using h)

section pops
variable (hc : c < 16) {x : List Byte} {rest : List (List Byte)} (hcpls : (s.chan c).cpls = x :: rest)
include hc hcpls

theorem State.popCpl_alone (hheld : (s.chan c).held = []) : s.popCpl c = s.modChan c Chan.popped := by
  have hnone : ((s.modChan c Chan.popped).chan c).held = [] := by rw [State.chan_modChan _ _ _ hc]; exact hheld
  rw [State.popCpl_some (by simp [hcpls])]
  simp only [State.drainHeld, hnone]

/-- The oldest message that waits takes the place of the one popped. -/
theorem State.popCpl_posts {m : List Byte} {more : List (List Byte)} (hheld : (s.chan c).held = m :: more) (hroom : rest.length < 64) :
    s.popCpl c = (s.modChan c fun x => { x with
      cpls := rest ++ [leBytes 8 s.now ++ m.drop 8], cplRd := x.cplRd + 1, cplWr := x.cplWr + 1, held := more }).irqSet 0 := by
  have hchan : (s.modChan c Chan.popped).chan c = (s.chan c).popped := State.chan_modChan _ _ _ hc
  have hnext : ((s.modChan c Chan.popped).chan c).held = m :: more := by rw [hchan]; exact hheld
  have hcpls' : ((s.modChan c Chan.popped).chan c).cpls = rest := by rw [hchan, Chan.popped, hcpls]; rfl
  have hdrain : s.popCpl c = ((s.modChan c Chan.popped).modChan c fun x => { x with held := more }).postNow c m := by
    rw [State.popCpl_some (by simp [hcpls])]
    simp only [State.drainHeld, hnext, hcpls', if_pos hroom]
  rw [hdrain, State.postNow, State.modChan_modChan _ hc, State.modChan_modChan _ hc]
  refine congrArg (State.irqSet · 0) (State.modChan_congr _ _ ?_)
  simp only [Chan.popped, hcpls, List.drop_succ_cons, List.drop_zero]
  rfl

end pops

theorem doorbellsAndPops_holds : doorbellsAndPops := by
  intro s src ch hl hv x bell pop
  have hbell : exec (.mbDoorbell src ch) s = act s (s.cpWrite src bell (s.doorbell ch.val)) := rfl
  have hpop : exec (.mbCplPop src ch) s = act s (s.cpWrite src pop (some (s.popCpl ch.val))) := rfl
  refine ⟨fun hphase => ?early, fun hphase hfull => ?full, fun hphase hroom => ?pushes, fun hempty => ?empty,
    fun c rest hcpls hheld => ?pops, fun c rest m more hcpls hroom hheld => ?posts⟩
  case early => rw [hbell, State.doorbell_notReady hphase]; exact act_cpWrite_some hl hv rfl rfl
  case full => rw [hbell, State.doorbell_ready hphase, if_pos hfull]; exact act_cpWrite_none hl hv
  case pushes => rw [hbell, State.doorbell_ready hphase, if_neg (Nat.not_le.2 hroom)]; exact act_cpWrite_some hl hv rfl rfl
  case empty => rw [hpop, State.popCpl_empty hempty]; exact act_cpWrite_some hl hv rfl rfl
  case pops =>
    have hrest : (s.chan ch.val).popped = { x with cpls := rest, cplRd := x.cplRd + 1 } := by rw [Chan.popped, hcpls]; rfl
    rw [hpop, State.popCpl_alone ch.isLt hcpls hheld, State.modChan_congr (g := fun _ => { x with cpls := rest, cplRd := x.cplRd + 1 }) _ _ hrest]
    exact act_cpWrite_some hl hv rfl rfl
  case posts => rw [hpop, State.popCpl_posts ch.isLt hcpls hheld hroom]; exact act_cpWrite_some hl hv rfl rfl

/-! ### The channel served next (R426) -/

theorem State.nextChannel_none (h : ∀ c : Channel, (s.chan c.val).canStart = false) : s.nextChannel = none := by
  simp only [State.nextChannel, List.find?_eq_none, List.mem_map]
  rintro c ⟨i, -, rfl⟩
  rw [h ⟨(s.fw.rrLast + 1 + i) % 16, Nat.mod_lt _ (by decide)⟩]
  decide

theorem Chan.canStart_of {x : Chan} {m : List Byte} {rest : List (List Byte)} (hreqs : x.reqs = m :: rest) (hrun : x.running = none)
    (hroom : x.cpls.length < 64) (hheld : x.held = []) : x.canStart = true := by
  simp [Chan.canStart, hreqs, hrun, hroom, hheld]

/-- The first channel after the one served last whose request can start is served next. -/
theorem State.nextChannel_some {ch : Channel} (hlast : s.fw.rrLast < 16) (hstart : (s.chan ch.val).canStart = true)
    (hfirst : ∀ c : Channel, (c.val + 15 - s.fw.rrLast) % 16 < (ch.val + 15 - s.fw.rrLast) % 16 → (s.chan c.val).canStart = false) :
    s.nextChannel = some ch.val := by
  have hch : ch.val < 16 := ch.isLt
  have hturn : (s.fw.rrLast + 1 + (ch.val + 15 - s.fw.rrLast) % 16) % 16 = ch.val := by omega
  have hfind : (List.range 16).find? (fun i => (s.chan ((s.fw.rrLast + 1 + i) % 16)).canStart) = some ((ch.val + 15 - s.fw.rrLast) % 16) := by
    refine List.find?_range_eq_some.2 ⟨by rw [hturn]; exact hstart, List.mem_range.2 (by omega), fun j hj => ?_⟩
    rw [hfirst ⟨(s.fw.rrLast + 1 + j) % 16, Nat.mod_lt _ (by decide)⟩ (by simp only; omega)]
    rfl
  rw [State.nextChannel, List.find?_map, Function.comp_def, hfind, Option.map_some, hturn]

/-! ### The start of a request (R426, R430, R433, R434, R562) -/

/-- A channel whose oldest request has been taken, with those behind it. -/
def Chan.taken (x : Chan) (rest : List (List Byte)) : Chan := { x with reqs := rest, reqRd := x.reqRd + 1 }

/-- Firmware takes the oldest request of a channel. -/
def State.takeRequest (s : State) (c : Nat) (rest : List (List Byte)) : State :=
  { s with fw := { s.fw with rrLast := c } }.modChan c fun _ => (s.chan c).taken rest

/-- What ends a request at its start, if anything does. -/
def State.startEnds (s : State) (c : Nat) (m : List Byte) : Option Ends := (s.headerBad c m).or (s.busyAtStart (s.newCmd c m))

section start
variable {ch : Channel} {m : List Byte} {rest : List (List Byte)} (hfw : s.fw.running = true) (hnext : s.nextChannel = some ch.val)
  (hreqs : (s.chan ch.val).reqs = m :: rest)
include hfw hnext hreqs

theorem State.requestStart_eq : s.requestStart =
    ((s.takeRequest ch.val rest).startEnds ch.val m).elim
      ((s.takeRequest ch.val rest).modChan ch.val fun x =>
        { x with running := some ((s.takeRequest ch.val rest).holds (s.newCmd ch.val m)) })
      fun e => (s.takeRequest ch.val rest).postCpl ch.val (cplMsg (fieldOf m 4 4) (fieldOf m 0 2) e.status 0 e.a e.b e.res) := by
  have htake : ({ s with fw := { s.fw with rrLast := ch.val } }.modChan ch.val fun x =>
      { x with reqs := x.reqs.drop 1, reqRd := x.reqRd + 1 }) = s.takeRequest ch.val rest := by
    refine State.modChan_congr _ _ ?_
    have hchan : State.chan { s with fw := { s.fw with rrLast := ch.val } } ch.val = s.chan ch.val := rfl
    rw [hchan, hreqs]
    rfl
  have hhead : (s.chan ch.val).reqs.headD [] = m := by rw [hreqs]; rfl
  unfold State.requestStart
  rw [if_neg (by simp [hfw]), hnext]
  dsimp only
  rw [htake, hhead]
  have hends : ((s.takeRequest ch.val rest).headerBad ch.val m).or
      ((s.takeRequest ch.val rest).busyAtStart ((s.takeRequest ch.val rest).newCmd ch.val m)) =
      (s.takeRequest ch.val rest).startEnds ch.val m := rfl
  rw [hends]
  cases (s.takeRequest ch.val rest).startEnds ch.val m <;> rfl

/-- A request that nothing ends at its start becomes the command that its channel runs. -/
theorem State.requestStart_runs (h : (s.takeRequest ch.val rest).startEnds ch.val m = none) {w : Cmd}
    (hw : (s.takeRequest ch.val rest).holds (s.newCmd ch.val m) = w) :
    s.requestStart = { s with fw := { s.fw with rrLast := ch.val } }.modChan ch.val fun _ =>
      { (s.chan ch.val).taken rest with running := some w } := by
  rw [State.requestStart_eq hfw hnext hreqs, h, hw, Option.elim_none, State.takeRequest, State.modChan_modChan _ ch.isLt]

/-- Another one completes at once. -/
theorem State.requestStart_ends (hroom : (s.chan ch.val).cpls.length < 64) (hheld : (s.chan ch.val).held = []) {e : Ends}
    (h : (s.takeRequest ch.val rest).startEnds ch.val m = some e) : s.requestStart =
      posted (s.takeRequest ch.val rest) ch.val (cplMsg (fieldOf m 4 4) (fieldOf m 0 2) e.status 0 e.a e.b e.res) := by
  have hchan : (s.takeRequest ch.val rest).chan ch.val = (s.chan ch.val).taken rest := State.chan_modChan _ _ _ ch.isLt
  rw [State.requestStart_eq hfw hnext hreqs, h]
  exact State.postCpl_posted (by rw [hchan]; exact hroom) (by rw [hchan]; exact hheld) _

end start

/-! ### What a command holds (R434, R562) -/

section holds
variable {m : Cmd}

theorem State.busyAtStart_of_bad (h : ((s.needOf m.code).fields m).isSome = true) : s.busyAtStart m = none :=
  if_neg (by simpa [Option.isSome_iff_ne_none] using h)

theorem State.holds_of_bad (h : ((s.needOf m.code).fields m).isSome = true) : s.holds m = m :=
  if_neg (by simpa [Option.isSome_iff_ne_none] using h)

theorem State.busyAtStart_of_good (h : (s.needOf m.code).fields m = none) : s.busyAtStart m = s.busy (s.needOf m.code) m :=
  if_pos (by rw [h]; rfl)

theorem State.holds_of_good (h : (s.needOf m.code).fields m = none) : s.holds m = { m with objs := (s.needOf m.code).objs m } :=
  if_pos (by rw [h]; rfl)

theorem State.heldByOther_of_mem {x : Cmd} {o : Obj} (hx : x ∈ s.cmds) (hne : x ≠ m) (ho : o ∈ x.objs) : s.heldByOther m o = true :=
  List.any_eq_true.2 ⟨x, hx, by simp [hne, ho]⟩

theorem State.busyObj_none {os : List Obj} (h : ∀ o ∈ os, ∀ x ∈ s.cmds, o ∉ x.objs) : s.busyObj m os = none :=
  List.find?_eq_none.2 fun o ho hheld => by
    obtain ⟨x, hx, hin⟩ := List.any_eq_true.1 hheld
    exact h o ho x hx (by simpa using (Bool.and_eq_true_iff.1 hin).2)

/-- A command that needs first what another one holds ends BUSY. -/
theorem State.busy_first {n : CmdNeed} {o : Obj} {more : List Obj} (hobjs : n.objs m = o :: more) (h : s.heldByOther m o = true) :
    s.busy n m = some (.no 4 o.num 0) := by
  rw [State.busy, State.busyObj, hobjs, List.find?_cons_of_pos h]
  rfl

end holds

theorem requestsStart_holds : requestsStart := by
  intro s ch m rest hl x y z ms
  have hexec : exec .mailboxRequestStart s = act s s.requestStart := rfl
  refine ⟨fun hfw => ?paused, fun hnone => ?idle, fun hfw hlast hreqs hrun hroom hheld hfirst => ?serves⟩
  case paused => exact act_eq hl (if_pos (by rw [hfw]; rfl)) rfl rfl
  case idle =>
    refine act_eq hl ?_ rfl rfl
    unfold State.requestStart
    rw [State.nextChannel_none hnone]
    split <;> rfl
  case serves =>
    intro popped cmd need
    have hnext := State.nextChannel_some hlast (Chan.canStart_of hreqs hrun hroom hheld) hfirst
    have hends : popped.startEnds ch.val m = (s.headerBad ch.val m).or (popped.busyAtStart cmd) := rfl
    refine ⟨fun hhead hbad => ?badFields, fun hhead hgood hlimit hfree => ?starts, fun o more w hhead hgood hobjs hw hne ho => ?busy,
      fun e hhead => ?header⟩
    case badFields =>
      rw [hhead, Option.none_or, State.busyAtStart_of_bad hbad] at hends
      have hholds : popped.holds cmd = cmd := State.holds_of_bad hbad
      exact act_eq hl (State.requestStart_runs hfw hnext hreqs hends hholds) rfl rfl
    case starts =>
      have hnotBusy : popped.busy need cmd = none := by rw [State.busy, State.busyObj_none hfree, hlimit]; rfl
      rw [hhead, Option.none_or, State.busyAtStart_of_good hgood] at hends
      have hholds : popped.holds cmd = { cmd with objs := need.objs cmd } := State.holds_of_good hgood
      exact act_eq hl (State.requestStart_runs hfw hnext hreqs (hends.trans hnotBusy) hholds) rfl rfl
    case busy =>
      rw [hhead, Option.none_or, State.busyAtStart_of_good hgood] at hends
      have hbusy := State.busy_first hobjs (State.heldByOther_of_mem hw hne ho)
      have hposts := State.requestStart_ends hfw hnext hreqs hroom hheld (hends.trans hbusy)
      exact act_eq hl hposts rfl rfl
    case header =>
      rw [hhead, Option.some_or] at hends
      exact act_eq hl (State.requestStart_ends hfw hnext hreqs hroom hheld hends) rfl rfl

/-! ### Timeouts (R433, R546) -/

theorem State.cmdTimeout_none (h : (s.chan c).running = none) : s.cmdTimeout c = s := by
  simp only [State.cmdTimeout, h]

theorem State.cmdTimeout_early {m : Cmd} (h : (s.chan c).running = some m) (hearly : s.now < m.deadline) : s.cmdTimeout c = s := by
  simp only [State.cmdTimeout, h]
  exact if_pos (.inr hearly)

/-- The entry of a timeout; a command that goes on is one of those that do. -/
def State.timeoutNoted (s : State) (c : Nat) (m : Cmd) : State :=
  let z := s.log (0x0200 + c) 10 2 false (objData c m.code (m.f 4 4) 0)
  if continuing m.code m.msg then { z with fw := { z.fw with conts := z.fw.conts ++ [{ m with late := true }] } } else z

theorem State.timeoutNoted_keeps (s : State) (c : Nat) (m : Cmd) : (s.timeoutNoted c m).mbox = s.mbox ∧
    (s.timeoutNoted c m).chip = s.chip ∧ (s.timeoutNoted c m).pending = s.pending := by
  have hlog := State.Logged.log s (0x0200 + c) 10 2 false (objData c m.code (m.f 4 4) 0) false
  have hmbox := (State.Beside.of_logged hlog).mbox
  unfold State.timeoutNoted
  dsimp only
  split
  · exact ⟨hmbox, hlog.chip, hlog.pending⟩
  · exact ⟨hmbox, hlog.chip, hlog.pending⟩

theorem State.cmdTimeout_ends {m : Cmd} (hc : c < 16) (h : (s.chan c).running = some m) (hchan : m.chan = c) (hlate : m.late = false)
    (hfw : s.fw.running = true) (hdue : m.deadline ≤ s.now) (hroom : (s.chan c).cpls.length < 64) (hheld : (s.chan c).held = []) :
    s.cmdTimeout c = posted ((s.timeoutNoted c m).modChan c fun _ => { s.chan c with running := none }) c
      (cplMsg (m.f 4 4) m.code 10 0 0 0 []) := by
  obtain ⟨hmbox, -⟩ := s.timeoutNoted_keeps c m
  have hsame : (s.timeoutNoted c m).chan c = s.chan c := chan_congr hmbox c
  have hends : s.cmdTimeout c = ((s.timeoutNoted c m).modChan c fun x => { x with running := none }).postCpl c
      (cplMsg (m.f 4 4) m.code 10 0 0 0 []) := by
    have hgoes : ¬((!s.fw.running) = true ∨ s.now < m.deadline) := by rw [hfw]; simpa using hdue
    simp only [State.cmdTimeout, h, if_neg hgoes, State.timeoutNoted]
    split
    · rfl
    · simp only [State.endCmd, hlate, hchan, Bool.false_eq_true, if_false]
  rw [hends, State.modChan_congr (g := fun _ => { s.chan c with running := none }) _ _ (by rw [hsame])]
  refine State.postCpl_posted ?_ ?_ _
  · rw [State.chan_modChan _ _ _ hc]; exact hroom
  · rw [State.chan_modChan _ _ _ hc]; exact hheld

theorem commandsTimeOut_holds : commandsTimeOut := by
  intro s ch m hl x
  refine ⟨fun hnone => act_eq hl (State.cmdTimeout_none hnone) rfl rfl, fun hrun hearly => act_eq hl (State.cmdTimeout_early hrun hearly) rfl rfl,
    fun hrun hchan hlate hfw hdue hroom hheld => ?_⟩
  obtain ⟨-, hchip, hpending⟩ := s.timeoutNoted_keeps ch.val m
  exact act_eq hl (State.cmdTimeout_ends ch.isLt hrun hchan hlate hfw hdue hroom hheld) hpending hchip

/-- Settles O32: the rings by the lemma of each access; a request that starts and one that times out end as their checks say. -/
theorem mailboxService : Obligations.MailboxService := ⟨doorbellsAndPops_holds, requestsStart_holds, commandsTimeOut_holds⟩

end Sys2Proof.Machine
end

section
/-! SUPPORT. The boot of firmware from ROM, and the watchdog (R414, R415, R487, R492, R529). -/

namespace Sys2Proof.Machine

/-! ### What firmware's start leaves alone -/

/-- `t` is `s` after effects that leave alone the firmware that runs, the phase of start-up, the slices and the emulsion. -/
structure State.SameBoot (s t : State) : Prop where
  chip : t.chip = s.chip
  pending : t.pending = s.pending
  slices : t.slices = s.slices
  emul : t.emul = s.emul
  ectl : t.ectl = s.ectl
  start : t.start = s.start
  running : t.fw.running = s.fw.running
  slot : t.fw.slot = s.fw.slot

namespace State.SameBoot
variable {s t u : State}

theorem refl (s : State) : s.SameBoot s := ⟨rfl, rfl, rfl, rfl, rfl, rfl, rfl, rfl⟩

theorem trans (hst : s.SameBoot t) (htu : t.SameBoot u) : s.SameBoot u where
  chip := htu.chip.trans hst.chip
  pending := htu.pending.trans hst.pending
  slices := htu.slices.trans hst.slices
  emul := htu.emul.trans hst.emul
  ectl := htu.ectl.trans hst.ectl
  start := htu.start.trans hst.start
  running := htu.running.trans hst.running
  slot := htu.slot.trans hst.slot

theorem ite {c : Prop} [Decidable c] (ht : s.SameBoot t) (hu : s.SameBoot u) : s.SameBoot (if c then t else u) := by
  split
  · exact ht
  · exact hu

theorem foldl {α : Type} {f : State → α → State} (hf : ∀ t a, State.SameBoot t (f t a)) (l : List α) (h : s.SameBoot t) :
    s.SameBoot (l.foldl f t) := List.foldlRecOn (motive := s.SameBoot) l f h fun u hu a _ => hu.trans (hf u a)

theorem of_logged (h : s.Logged t) : s.SameBoot t := by
  obtain ⟨sheet, ext, bits, rfl⟩ := h
  exact ⟨rfl, rfl, rfl, rfl, rfl, rfl, rfl, rfl⟩

theorem log (h : s.SameBoot t) (src kind code : Nat) (fault : Bool) (data : List Byte) : s.SameBoot (t.log src kind code fault data) :=
  h.trans (of_logged (.log ..))

theorem irqSet (h : s.SameBoot t) (i : Nat) : s.SameBoot (t.irqSet i) := h.trans (of_logged (.irqSet ..))

/-! ### Settings (R461, R489, R514) -/

/-- Each branch sets the setting, and what follows from it in the tick or the power manager. -/
theorem applySetting (t : State) (id : Nat) (v : W64) : t.SameBoot (t.applySetting id v) := by
  unfold State.applySetting
  dsimp only
  repeat' split
  all_goals exact ⟨rfl, rfl, rfl, rfl, rfl, rfl, rfl, rfl⟩

theorem applyStored (t : State) (id : Nat) (v : W64) : t.SameBoot (t.applyStored id v) := by
  unfold State.applyStored
  dsimp only
  split
  · exact applySetting t id v
  · exact (applySetting t id _).log ..

theorem applyAll (t : State) (pick : Nat → Bool) : t.SameBoot (t.applyAll pick) :=
  foldl (fun t id => ite (refl t) (by split; exacts [applyStored t id _, refl t])) _ (refl t)

theorem putSetting (t : State) (id : Nat) (v : W64) : t.SameBoot (t.putSetting id v) := ⟨rfl, rfl, rfl, rfl, rfl, rfl, rfl, rfl⟩

theorem applyDefaults (t : State) (pick : Nat → Bool) : t.SameBoot (t.applyDefaults pick) :=
  foldl (fun t _ => ite (putSetting t _ _) (refl t)) _ (refl t)

theorem applyTherm (t : State) : t.SameBoot t.applyTherm := ⟨rfl, rfl, rfl, rfl, rfl, rfl, rfl, rfl⟩

theorem defaultTherm (t : State) : t.SameBoot t.defaultTherm := ⟨rfl, rfl, rfl, rfl, rfl, rfl, rfl, rfl⟩

/-! ### Completions and the boot record (R426, R436, R485) -/

theorem modChan (t : State) (c : Nat) (f : Chan → Chan) : t.SameBoot (t.modChan c f) := ⟨rfl, rfl, rfl, rfl, rfl, rfl, rfl, rfl⟩

theorem postCpl (t : State) (c : Nat) (m : List Byte) : t.SameBoot (t.postCpl c m) :=
  ite ((modChan t c _).irqSet 0) (modChan t c _)

theorem endCmd (t : State) (m : Cmd) (status a b : Nat) (res : List Byte) : t.SameBoot (t.endCmd m status a b res) := by
  have hleaves : t.SameBoot (if m.late then { t with fw := { t.fw with conts := t.fw.conts.erase m } }
      else t.modChan m.chan fun x => { x with running := none }) := ite ⟨rfl, rfl, rfl, rfl, rfl, rfl, rfl, rfl⟩ (modChan t _ _)
  exact hleaves.trans (postCpl _ _ _)

theorem abortCommands (t : State) : t.SameBoot t.abortCommands :=
  foldl (fun t _ => ((refl t).log ..).trans (endCmd ..)) _ (refl t)

theorem payOwed (t : State) (rolledBack : Bool) : t.SameBoot (t.payOwed rolledBack) := by
  have hpaid : t.SameBoot { t with fw := { t.fw with owed := none } } := ⟨rfl, rfl, rfl, rfl, rfl, rfl, rfl, rfl⟩
  unfold State.payOwed
  split
  · exact refl t
  · exact hpaid.trans (postCpl _ _ _)

theorem putBoot (t : State) (b : BootRecord) : t.SameBoot (t.putBoot b) := ⟨rfl, rfl, rfl, rfl, rfl, rfl, rfl, rfl⟩

end State.SameBoot

/-! ### The ROM's choice (R529) -/

section romVerify
variable {s t : State} {pref : Nat}

/-- The block once ROM has, or has not, fallen back to the other slot. -/
def State.withFallback (s : State) (b : Bool) : State := { s with start := { s.start with slotFallback := b } }

theorem State.Logged.withFallback (h : s.Logged t) (b : Bool) : (s.withFallback b).Logged (t.withFallback b) := by
  obtain ⟨sheet, ext, bits, rfl⟩ := h
  exact ⟨sheet, ext, bits, rfl⟩

theorem State.Logged.slotCheck (h : s.Logged t) (n : Nat) : t.slotCheck n = s.slotCheck n := by
  obtain ⟨_, _, _, rfl⟩ := h; rfl

/-- The entries of a preferred slot that fails (R539, R546). -/
def State.prefFails (s : State) (pref e : Nat) : State := (s.logAuth (s.fw.slotOf pref).image e).logSec 2 pref 0

theorem State.Logged.prefFails (s : State) (pref e : Nat) : s.Logged (s.prefFails pref e) := (log ..).trans (log ..)

theorem State.romVerify_pref (h : s.slotCheck pref = none) : s.romVerify pref = (some pref, s.withFallback false) := by
  simp only [State.romVerify, h]; rfl

theorem State.romVerify_other (h : s.slotCheck pref ≠ none) : ∃ t, (s.withFallback true).Logged t ∧
    (s.slotCheck (3 - pref) = none → s.romVerify pref = (some (3 - pref), t)) ∧
    (s.slotCheck (3 - pref) ≠ none → ∃ u, (s.withFallback true).Logged u ∧ s.romVerify pref = (none, u)) := by
  obtain ⟨e, he⟩ := Option.ne_none_iff_exists'.1 h
  have hlog := (State.Logged.prefFails s pref e).withFallback true
  have hcheck : ((s.prefFails pref e).withFallback true).slotCheck (3 - pref) = s.slotCheck (3 - pref) := hlog.slotCheck _
  refine ⟨_, hlog, fun hnone => ?_, fun hsome => ?_⟩
  · have hother := hcheck.trans hnone
    simp only [State.romVerify, he]
    split
    · rfl
    · next he' => exact absurd (he'.symm.trans hother) nofun
  · simp only [State.romVerify, he]
    split
    · next hnone => exact absurd (hcheck.symm.trans hnone) hsome
    · exact ⟨_, hlog.trans (.log ..), rfl⟩

theorem three_sub_ne (n : Nat) : 3 - n ≠ n := by omega

/-- What follows of each outcome of the ROM's verification follows of what the slots' images are. -/
theorem State.romVerify_choice {Boots : Nat → Prop} {Fails : Prop}
    (hboots : ∀ slot u, (s.withFallback (decide (slot ≠ pref))).SameBoot u → s.romVerify pref = (some slot, u) → Boots slot)
    (hfails : ∀ u, (s.withFallback true).SameBoot u → s.romVerify pref = (none, u) → Fails) :
    (s.slotCheck pref = none → Boots pref) ∧ (s.slotCheck pref ≠ none → s.slotCheck (3 - pref) = none → Boots (3 - pref)) ∧
      (s.slotCheck pref ≠ none → s.slotCheck (3 - pref) ≠ none → Fails) := by
  refine ⟨fun h => ?_, fun h hother => ?_, fun h hother => ?_⟩
  · refine hboots pref _ ?_ (State.romVerify_pref h)
    rw [decide_eq_false (not_not_intro rfl)]
    exact .refl _
  · obtain ⟨u, hlog, hrom, -⟩ := State.romVerify_other h
    refine hboots _ u ?_ (hrom hother)
    rw [decide_eq_true (three_sub_ne pref)]
    exact .of_logged hlog
  · obtain ⟨-, -, -, hnone⟩ := State.romVerify_other h
    obtain ⟨u, hlog, hrom⟩ := hnone hother
    exact hfails u (.of_logged hlog) hrom

end romVerify

/-! ### Firmware begins to run (R414, R415, R487) -/

/-- The firmware of a slot runs, on a block that has, or has not, fallen back to it. -/
def State.booted (s : State) (slot : Nat) (fallback : Bool) : State :=
  { s with
    fw := { s.fw with running := true, slot := slot }
    start := { s.start with slotFallback := fallback, fwSlot := BitVec.ofNat 2 slot } }

section runs
variable {s u : State} {slot : Nat} {fallback : Bool}

/-- Whatever its state and its watchdog, the firmware of the slot runs. -/
theorem State.SameBoot.runSlot (h : (s.withFallback fallback).SameBoot u) : (s.booted slot fallback).SameBoot (u.runSlot slot) := by
  have hstarts (st : FwState) : (s.booted slot fallback).SameBoot { u with
      fw := { u.fw with running := true, state := st, slot := slot }
      start := { u.start with fwSlot := BitVec.ofNat 2 slot } } :=
    ⟨h.chip, h.pending, h.slices, h.emul, h.ectl, congrArg (fun x : StartUp => { x with fwSlot := BitVec.ofNat 2 slot }) h.start, rfl, rfl⟩
  have hdog (t : State) (until_ : Option Nat) : t.SameBoot { t with fw := { t.fw with dogUntil := until_ } } :=
    ⟨rfl, rfl, rfl, rfl, rfl, rfl, rfl, rfl⟩
  have hwatched (t : State) (st : FwState) (n : Nat) : t.SameBoot (if st = .committed then { t with fw := { t.fw with dogUntil := none } }
      else if t.fw.dogUntil.isSome then t else { t with fw := { t.fw with dogUntil := some n } }) :=
    ite (hdog t _) (ite (refl t) (hdog t _))
  unfold State.runSlot
  dsimp only
  have hrecorded (st : FwState) := ite (c := st = u.fw.boot.state) (hstarts st) ((hstarts st).trans (putBoot _ { u.fw.boot with state := st }))
  exact ite ((hrecorded _).trans (hwatched _ _ _)) (((hrecorded _).trans (hwatched _ _ _)).log ..)

/-- Once firmware runs, the block is READY where the emulsion is initialised (R414, R415). -/
theorem State.reachReady_phase (hphase : s.start.phase = .verify) (hrun : s.fw.running = true) : ∃ ns, State.SameBoot
    { s with start := { s.start with phase := if s.ectl.initDone then .ready else .verify, readyNs := ns } } s.reachReady := by
  cases hinit : s.ectl.initDone with
  | false =>
    refine ⟨s.start.readyNs, ?_⟩
    have hwaits : s.reachReady = s := if_pos (by simp [hinit])
    rw [hwaits]
    exact ⟨rfl, rfl, rfl, rfl, rfl, by simp [← hphase], rfl, rfl⟩
  | true =>
    refine ⟨s.now, ?_⟩
    have hgoes : ¬(s.start.phase ≠ .verify ∨ (!s.fw.running) = true ∨ (!s.ectl.initDone) = true) := by simp [hphase, hrun, hinit]
    unfold State.reachReady
    rw [if_neg hgoes]
    refine .log ?_ ..
    exact ⟨rfl, rfl, rfl, rfl, rfl, rfl, rfl, rfl⟩

theorem exec_romBootDone_boots (hl : s.live = true) (hphase : s.start.phase = .boot)
    (hu : (s.withFallback fallback).SameBoot u) (h : s.romVerify s.fw.boot.preferred = (some slot, u)) :
    ∃ t, exec .romBootDone s = .next t ∧ t.fw.running = true ∧ t.fw.slot = slot ∧ t.start.slotFallback = fallback ∧
      t.slices = s.slices ∧ t.emul = s.emul ∧ t.start.phase = (if s.ectl.initDone then .ready else .verify) := by
  have hruns : ∃ v, (u.runSlot slot).SameBoot v ∧ s.romBoot = { v with start := { v.start with phase := .verify } }.reachReady := by
    unfold State.romBoot
    rw [if_neg (not_not_intro hphase), h]
    refine ⟨_, ?_, rfl⟩
    have hstored (t : State) : t.SameBoot (if t.fw.state = .limited then t.defaultTherm else (t.applyAll fun _ => true).applyTherm) :=
      .ite (.defaultTherm t) ((State.SameBoot.applyAll t _).trans (.applyTherm _))
    have hset := (State.SameBoot.applyDefaults (u.runSlot slot) fun _ => true).trans (hstored _)
    exact .ite (hset.log ..) hset
  obtain ⟨v, hv, hrom⟩ := hruns
  have hbooted := hu.runSlot.trans hv
  obtain ⟨ns, hready⟩ := State.reachReady_phase (s := { v with start := { v.start with phase := .verify } }) rfl hbooted.running
  refine ⟨_, (congrArg (act s) hrom).trans (act_live s _ hl (hready.pending.trans hbooted.pending) (hready.chip.trans hbooted.chip)),
    hready.running.trans hbooted.running, hready.slot.trans hbooted.slot, ?_, hready.slices.trans hbooted.slices,
    hready.emul.trans hbooted.emul, ?_⟩
  · rw [hready.start]; exact congrArg StartUp.slotFallback hbooted.start
  · rw [hready.start]; exact congrArg (fun e : EmulCtl => if e.initDone then Start.ready else .verify) hbooted.ectl

theorem exec_fwBoot_boots (hl : s.live = true) (hstopped : s.fw.running = false) (hphase : s.start.phase = .ready)
    (hu : (s.withFallback fallback).SameBoot u) (h : s.romVerify s.fw.boot.preferred = (some slot, u)) :
    ∃ t, exec .fwBoot s = .next t ∧ t.fw.running = true ∧ t.fw.slot = slot ∧ t.start.slotFallback = fallback ∧
      t.slices = s.slices ∧ t.emul = s.emul ∧ t.irq.status.getLsbD 8 = true ∧ t.start.phase = .ready := by
  have hruns : ∃ v, (s.booted slot fallback).SameBoot v ∧ s.fwBoot = v.irqSet 8 := by
    unfold State.fwBoot
    rw [if_neg (by simp [hstopped, hphase])]
    dsimp only
    rw [h]
    refine ⟨_, ?_, rfl⟩
    have hslot := State.SameBoot.ite (c := (slot != s.fw.boot.preferred) = true) (hu.trans (.putBoot u
      { u.fw.boot with preferred := slot, previous := s.fw.boot.preferred, state := .trial })) hu
    have hstored (t : State) : t.SameBoot (if t.fw.state = .limited then t.defaultTherm else t.applyAll firmwareHeld) :=
      .ite (.defaultTherm t) (.applyAll t _)
    have hset := ((hslot.runSlot (slot := slot)).trans (.applyDefaults _ firmwareHeld)).trans (hstored _)
    have hpaid (back : Bool) := (hset.trans (.abortCommands _)).trans (.payOwed _ back)
    have hkind (t : State) : t.SameBoot { t with fw := { t.fw with owedKind := 0 } } := ⟨rfl, rfl, rfl, rfl, rfl, rfl, rfl, rfl⟩
    refine .ite (.log (.trans ?_ (hkind _)) ..) (.trans ?_ (hkind _))
    · exact hpaid _
    · exact hpaid _
  obtain ⟨v, hv, hboot⟩ := hruns
  have hset := hv.irqSet 8
  refine ⟨_, (congrArg (act s) hboot).trans (act_live s _ hl hset.pending hset.chip), hset.running, hset.slot, ?_, hset.slices, hset.emul,
    State.irqSet_status v (by decide), ?_⟩
  · rw [hset.start]; rfl
  · rw [hset.start]; exact hphase

theorem State.romBoot_stops (hphase : s.start.phase = .boot) (h : s.romVerify s.fw.boot.preferred = (none, u)) :
    s.romBoot = u.stopBoot := by
  unfold State.romBoot
  rw [if_neg (not_not_intro hphase), h]

theorem State.fwBoot_stops (hstopped : s.fw.running = false) (hphase : s.start.phase = .ready)
    (h : s.romVerify s.fw.boot.preferred = (none, u)) : s.fwBoot = u.stopBoot := by
  unfold State.fwBoot
  rw [if_neg (by simp [hstopped, hphase])]
  dsimp only
  rw [h]

/-- A block with no slot that verifies stops its start-up (R415, R529). -/
theorem act_stopBoot (hl : s.live = true) (hu : (s.withFallback fallback).SameBoot u) : ∃ t, act s u.stopBoot = .next t ∧
    t.fw.running = false ∧ t.start.phase = .stoppedBoot ∧ t.slices = s.slices :=
  ⟨_, act_live s _ hl hu.pending hu.chip, rfl, rfl, hu.slices⟩

end runs

/-! ### The watchdog (R492) -/

section dog
variable {s : State} {n : Nat}

theorem State.dogBites_none (h : s.fw.dogUntil = none) : s.dogBites = s := by
  simp only [State.dogBites, h]

theorem State.dogBites_early (h : s.fw.dogUntil = some n) (hearly : s.now < n) : s.dogBites = s := by
  simp only [State.dogBites, h, if_pos hearly]

/-- A boot record whose slots have changed their parts. -/
def BootRecord.returned (b : BootRecord) : BootRecord := { b with preferred := b.previous, previous := b.preferred, state := .committed }

theorem State.putBoot_cmds (b : BootRecord) : (s.putBoot b).cmds = s.cmds := rfl

/-- With no migration under way, the reset of Tamosh stops firmware and asks SPDM for a new start (R418, R488, R533). -/
theorem State.tamoshReset_alone (h : s.cmds = []) (owed : Option Cmd) (kind : Nat) : s.tamoshReset owed kind =
    { s with fw := { s.fw with running := false, owed := owed, owedKind := kind }, sec := { s.sec with resync := true } } := by
  rw [State.tamoshReset, h, List.filter_nil, List.foldl_nil]

theorem State.dogBites_returns (h : s.fw.dogUntil = some n) (hdue : n ≤ s.now) (hcmds : s.cmds = []) : ∃ ss, s.dogBites = { s with
    fw := { s.fw with boot := s.fw.boot.returned, running := false, owedKind := 1, dogUntil := none }
    ss := ss
    sec := { s.sec with resync := true } } := by
  have hreset := State.tamoshReset_alone ((s.putBoot_cmds s.fw.boot.returned).trans hcmds) (s.putBoot s.fw.boot.returned).fw.owed 1
  refine ⟨(s.putBoot s.fw.boot.returned).ss, ?_⟩
  simp only [State.dogBites, h, if_neg (Nat.not_lt.2 hdue)]
  exact congrArg (fun t : State => { t with fw := { t.fw with dogUntil := none } }) hreset

end dog

/-- Settles O46: firmware boots as the ROM's choice of a slot says, by the lemma of each command; the watchdog changes the boot record. -/
theorem firmwareBoots : Obligations.FirmwareBoots := by
  unfold Obligations.FirmwareBoots
  intro s hl want boots fails runs
  refine ⟨fun hphase => ?notBooting, fun hphase => ?romBoots, fun hno => ?runsOrWaits, fun hstopped hphase => ?fwBoots, fun hnone => ?noDog,
    fun n hdog hearly => ?early, fun n hdog hdue hcmds => ?bites⟩
  case notBooting => exact act_eq hl (if_pos hphase) rfl rfl
  case romBoots =>
    refine State.romVerify_choice (fun slot u hu h => ?_) fun u hu h => ?_
    · obtain ⟨t, hexec, hrun, hslot, hfall, hslices, hemul, hready⟩ := exec_romBootDone_boots hl hphase hu h
      exact ⟨t, hexec, hrun, hslot, hfall, hslices, hemul, fun _ => hready, nofun⟩
    · obtain ⟨t, hact, hends⟩ := act_stopBoot hl hu
      exact ⟨t, (congrArg (act s) (State.romBoot_stops hphase h)).trans hact, hends⟩
  case runsOrWaits => exact act_eq hl (if_pos hno) rfl rfl
  case fwBoots =>
    refine State.romVerify_choice (fun slot u hu h => ?_) fun u hu h => ?_
    · obtain ⟨t, hexec, hrun, hslot, hfall, hslices, hemul, hirq, hready⟩ := exec_fwBoot_boots hl hstopped hphase hu h
      exact ⟨t, hexec, hrun, hslot, hfall, hslices, hemul, nofun, fun _ => ⟨hirq, hready⟩⟩
    · obtain ⟨t, hact, hends⟩ := act_stopBoot hl hu
      exact ⟨t, (congrArg (act s) (State.fwBoot_stops hstopped hphase h)).trans hact, hends⟩
  case noDog => exact act_eq hl (State.dogBites_none hnone) rfl rfl
  case early => exact act_eq hl (State.dogBites_early hdog hearly) rfl rfl
  case bites =>
    obtain ⟨ss, hbites⟩ := State.dogBites_returns hdog hdue hcmds
    exact ⟨_, act_eq hl hbites rfl rfl, rfl, rfl, rfl, rfl, rfl⟩

end Sys2Proof.Machine
end

section
/-! SUPPORT. Every command answers a next state (R540). -/

namespace Sys2Proof.Machine

/-! ### Commands that are answered on a block in reset or under test too leave the queue alone -/

@[simp] theorem State.release_pending (s : State) : s.release.pending = s.pending := by
  unfold State.release; split <;> rfl

@[simp] theorem State.instrument_pending (s : State) (i : Nat) : (s.instrument i).pending = s.pending := by
  unfold State.instrument; split <;> rfl

/-- The outcome is a next state, with the queue and what manufacture fixed as they were. -/
def Answers (s : State) (o : Host.Outcome State Fault Refusal) : Prop := ∃ t, o = .next t ∧ t.pending = s.pending ∧ t.chip = s.chip

theorem act_answers (s t : State) : Answers s (act s t) := ⟨_, rfl, s.commit_pending t, s.commit_chip t⟩

/-- Settles O2: all but the reset, the test access and the supply pins answer by `act`, which keeps the queue and the chip. -/
theorem everyCommandAnswers : Obligations.EveryCommandAnswers := by
  unfold Obligations.EveryCommandAnswers
  intro c s
  have hpin (t : State) (p : Pins) : Answers s (if s.live then act s t else .next { s with pins := p }) := by
    split
    · exact act_answers s t
    · exact ⟨_, rfl, rfl, rfl⟩
  cases c with
  | resetAssert => exact ⟨_, rfl, rfl, s.afterReset_chip⟩
  | resetRelease => exact ⟨_, rfl, s.release_pending, s.release_chip⟩
  | testInstructionLoad wir => exact ⟨_, rfl, rfl, s.loadWir_chip _⟩
  | ijtagInstrumentAccess inst => exact ⟨_, rfl, s.instrument_pending _, s.instrument_chip _⟩
  | wrstnAssert => exact ⟨_, rfl, rfl, rfl⟩
  | supplyWarn => exact hpin _ _
  | supplyWarnDeasserted => exact hpin _ _
  | _ => exact act_answers s _

end Sys2Proof.Machine
end

section
/-! SUPPORT. The registered owner of the block, domain entries and the debug unlock (R534 to R538). -/

namespace Sys2Proof.Machine
variable {s : State} {src : W12}

/-! ### The owner (R535) -/

theorem State.ownerRefuses_eq_true_iff (s : State) (src : W12) :
    s.ownerRefuses src = true ↔ s.sec.ownerValid = true ∧ src ≠ s.sec.owner := by
  rw [State.ownerRefuses, Bool.and_eq_true, bne_iff_ne, ne_comm]

section
variable (hl : s.live = true) (hv : s.node.valid = true)
include hl hv

theorem exec_secCfgOwner_first (hfree : s.sec.ownerValid = false) (data : W64) : exec (.secCfgOwner src data) s =
    .next (answered { s with sec := { s.sec with owner := data.setWidth 12, ownerValid := true } } src 0xD008 true) := by
  have hset : s.writeOwner (data.setWidth 12) = some { s with sec := { s.sec with owner := data.setWidth 12, ownerValid := true } } :=
    if_neg (by simp [hfree])
  have hexec : exec (.secCfgOwner src data) s = act s (s.cpWrite src 0xD008 (s.writeOwner (data.setWidth 12))) := rfl
  rw [hexec, hset]
  exact act_cpWrite_some hl hv rfl rfl

theorem exec_secCfgOwner_again (hset : s.sec.ownerValid = true) (data : W64) :
    exec (.secCfgOwner src data) s = .next (answered s src 0xD008 false) := by
  have hexec : exec (.secCfgOwner src data) s = act s (s.cpWrite src 0xD008 (s.writeOwner (data.setWidth 12))) := rfl
  rw [hexec, State.writeOwner, if_pos hset]
  exact act_cpWrite_none hl hv

theorem exec_domCommit_refused (h : s.commitRefused src = true) : exec (.domCommit src) s = .next (answered s src 0xD030 false) := by
  have hexec : exec (.domCommit src) s = act s (s.cpWrite src 0xD030 (s.commitDomain src)) := rfl
  rw [hexec, State.commitDomain, if_pos h]
  exact act_cpWrite_none hl hv

theorem exec_secUnlockGo_excluded (h : s.ownerRefuses src = true) (scope : Byte) :
    exec (.secUnlockGo src scope) s = .next (answered s src 0xD0C0 false) := by
  have hexec : exec (.secUnlockGo src scope) s = act s (s.cpWrite src 0xD0C0 (s.unlockGo src scope)) := rfl
  rw [hexec, State.unlockGo, if_pos h]
  exact act_cpWrite_none hl hv

end

theorem State.writeReg_unlockData_excluded (s : State) (src : W12) (d : W64) (i : Fin 12) (h : s.ownerRefuses src = true) :
    s.writeReg src (0xD060 + i.val * 8) d = none := by
  have hp : (0xD060 + i.val * 8) / 4096 = 13 := by omega
  have ho : (0xD060 + i.val * 8) % 4096 = 0x60 + i.val * 8 := by omega
  have hin : 0x60 ≤ 0x60 + i.val * 8 ∧ 0x60 + i.val * 8 < 0xC0 := by omega
  simp only [State.writeReg, hp, ho, State.writeSec, if_pos hin, if_pos h]

theorem State.commitRefused_of_excluded (h : s.ownerRefuses src = true) : s.commitRefused src = true := by
  simp [State.commitRefused, h]

theorem exec_registerWrite_refused {a : RegAcc} {d : W64} (hl : s.live = true) (hv : s.node.valid = true) (hb : accBad a = false)
    (h : s.writeReg a.src a.offset.toNat d = none) : exec (.registerWrite a d) s = .next (answered s a.src a.offset.toNat false) :=
  act_eq hl (by simp [State.cpWrite, hv, hb, h]; rfl) rfl rfl

/-- Settles O30: the owner is registered once, and each of the registers refuses a node that it excludes. -/
theorem ownerAlone : Obligations.OwnerAlone := by
  unfold Obligations.OwnerAlone
  intro s src data scope hl hv
  refine ⟨fun hfree => exec_secCfgOwner_first hl hv hfree data, fun hset => ⟨exec_secCfgOwner_again hl hv hset data, fun hne => ?_⟩⟩
  have hexcl : s.ownerRefuses src = true := (s.ownerRefuses_eq_true_iff src).2 ⟨hset, hne⟩
  refine ⟨exec_domCommit_refused hl hv (State.commitRefused_of_excluded hexcl), exec_secUnlockGo_excluded hl hv hexcl scope,
    fun i a hsrc hsize hoff => ?_⟩
  have hbad : accBad a = false := by
    have haligned : (0xD060 + i.val * 8) % 8 = 0 := by omega
    simp only [accBad, hsize, hoff, haligned, ne_eq, not_true, decide_false, bne_self_eq_false, Bool.or_self]
  have hnone : s.writeReg a.src a.offset.toNat data = none := by
    rw [hsrc, hoff]
    exact s.writeReg_unlockData_excluded src data i hexcl
  rw [← hsrc]
  exact exec_registerWrite_refused hl hv hbad hnone

end Sys2Proof.Machine
end

section
/-! SUPPORT. Domain entries, staged and committed, and the debug unlock (R223, R534, R537, R538). -/

namespace Sys2Proof.Machine
variable {s : State} {src : W12}

/-! ### Domain entries (R534, R538) -/

/-- A filter that keeps what is looked for. -/
theorem find?_filter_of_imp {α : Type} {p q : α → Bool} (h : ∀ x, p x = true → q x = true) (l : List α) :
    (l.filter q).find? p = l.find? p := by
  rw [List.find?_filter]
  refine congrArg (List.find? · l) (funext fun x => ?_)
  cases hp : p x with
  | false => simp
  | true => simp [h x hp]

/-- A commit puts the staged entry in the place of the one of its domain. -/
def State.withDomain (s : State) (d : Domain) : State :=
  { s with xl := { s.xl with
      hub := { s.xl.hub with domains := d :: s.xl.hub.domains.filter fun x => x.id != d.id }
      domIssued := s.xl.domIssued + 1
      commit := some d.id } }

theorem State.commitDomain_accepted (h : s.commitRefused src = false) :
    ∃ t, s.commitDomain src = some t ∧ (s.withDomain s.staged).Logged t := by
  rw [State.commitDomain, if_neg (by rw [h]; exact Bool.false_ne_true)]
  exact ⟨_, rfl, State.Logged.log ..⟩

theorem State.Logged.sec {s t : State} (h : s.Logged t) : t.sec = s.sec := by obtain ⟨_, _, _, rfl⟩ := h; rfl

theorem State.withDomain_find_same (s : State) (d : Domain) :
    (s.withDomain d).xl.hub.domains.find? (fun x => x.id == d.id) = some d :=
  List.find?_cons_of_pos (by simp)

theorem State.withDomain_find_ne (s : State) {d : Domain} {n : Nat} (h : n ≠ d.id) :
    (s.withDomain d).xl.hub.domains.find? (fun x => x.id == n) = s.xl.hub.domains.find? fun x => x.id == n := by
  have hkeep : ∀ x : Domain, (x.id == n) = true → (x.id != d.id) = true := by
    intro x hx
    rw [beq_iff_eq] at hx
    simpa [hx] using h
  have hfirst : ¬(d.id == n) = true := by simpa using h.symm
  have hdomains : (s.withDomain d).xl.hub.domains = d :: s.xl.hub.domains.filter fun x => x.id != d.id := rfl
  rw [hdomains, List.find?_cons_of_neg (p := fun x : Domain => x.id == n) hfirst, find?_filter_of_imp hkeep]

theorem State.commitDone_none (h : s.xl.commit = none) : s.commitDone = s := by
  simp only [State.commitDone, h]

theorem State.commitDone_some {n : Nat} (h : s.xl.commit = some n) : s.commitDone = if s.inFlight (.whole n) then s
    else { s with xl := { s.xl with commit := none, domDone := s.xl.domDone + 1 } }.invalidate (.whole n) := by
  simp only [State.commitDone, h]

/-- The invalidation of a whole domain covers its entries and no others. -/
theorem Inval.whole_meets (n dom lo len : Nat) : (Inval.whole n).meets dom lo len = (n == dom) := rfl

theorem domainEntries_holds : domainEntries := by
  intro s src data hl hv id d new old moves ok
  have hcommit : exec (.domCommit src) s = act s (s.cpWrite src 0xD030 (s.commitDomain src)) := rfl
  have hrefused : s.commitRefused src = !ok := by
    have hbool (a c d : Bool) (b : Option Nat) : (a || b.isSome || c || d) = !(!a && b.isNone && !c && !d) := by
      simp only [Bool.not_and, Bool.not_not, Option.not_isNone]
    exact hbool _ _ _ _
  refine ⟨act_cpWrite_some hl hv rfl rfl, fun hno => ?refused, fun hok => ?commits, fun hnone => ?idle, fun n hsome hfly => ?waits,
    fun n hsome hfly => ?ends⟩
  case refused => exact exec_domCommit_refused hl hv (by rw [hrefused, hno]; rfl)
  case commits =>
    obtain ⟨t, ht, hlog⟩ := State.commitDomain_accepted (src := src) (by rw [hrefused, hok]; rfl)
    rw [hcommit, ht]
    refine ⟨_, act_cpWrite_some hl hv hlog.pending hlog.chip, ?_⟩
    have hxl : (answered t src 0xD030 true).xl = (s.withDomain new).xl := hlog.xl
    rw [hxl]
    exact ⟨s.withDomain_find_same new, fun n hn => s.withDomain_find_ne hn, rfl, rfl, rfl⟩
  case idle => exact act_eq hl (State.commitDone_none hnone) rfl rfl
  case waits => exact act_eq hl ((State.commitDone_some hsome).trans (if_pos hfly)) rfl rfl
  case ends =>
    let t : State := { s with xl := { s.xl with commit := none, domDone := s.xl.domDone + 1 } }
    have hdone : s.commitDone = t.invalidate (.whole n) :=
      (State.commitDone_some hsome).trans (if_neg (by rw [hfly]; exact Bool.false_ne_true))
    refine ⟨t.invalidate (.whole n), act_eq hl hdone rfl rfl, rfl, rfl, fun e he => ?_, fun e he hne => ?_⟩
    · rw [t.invalidate_tlb, Inval.mem_kept_iff, Inval.whole_meets, beq_eq_false_iff_ne] at he
      exact ⟨he.1, he.2.symm⟩
    · rw [t.invalidate_tlb, Inval.mem_kept_iff, Inval.whole_meets, beq_eq_false_iff_ne]
      exact ⟨he, hne.symm⟩

/-! ### The debug unlock (R537) -/

/-- The block unlocked in a scope, before its entry. -/
def State.unlockedAs (s : State) (scope : Byte) : State :=
  { s with sec := { s.sec with unlocked := true, scope := scope, nonce := s.sec.nonce + 1 } }

/-- The block after a token that fails, before its entry. -/
def State.unlockFailed (s : State) : State :=
  { s with sec := { s.sec with fails := s.sec.fails + 1, lockedOut := decide (8 ≤ s.sec.fails + 1), nonce := s.sec.nonce + 1 } }

theorem State.unlockGo_allowed (h : s.ownerRefuses src = false) (scope : Byte) : s.unlockGo src scope =
    if s.sec.lockedOut then some s
    else if s.tokenValid scope then some ((s.unlockedAs scope).logSec 5 0 0)
    else some (s.unlockFailed.logSec 6 0 0) := by
  rw [State.unlockGo, if_neg (by rw [h]; exact Bool.false_ne_true)]
  rfl

theorem ownerAndUnlock_holds : ownerAndUnlock := by
  intro s src data scope hl hv excluded
  have hgo : exec (.secUnlockGo src scope) s = act s (s.cpWrite src 0xD0C0 (s.unlockGo src scope)) := rfl
  refine ⟨fun hfree => exec_secCfgOwner_first hl hv hfree data, fun hset => exec_secCfgOwner_again hl hv hset data,
    fun hexcl => exec_secUnlockGo_excluded hl hv hexcl scope, fun hallow hlocked => ?lockedOut, fun hallow hopen => ?checked⟩
  case lockedOut =>
    rw [hgo, State.unlockGo_allowed hallow, if_pos hlocked]
    exact act_cpWrite_some hl hv rfl rfl
  case checked =>
    rw [hgo, State.unlockGo_allowed hallow, if_neg (by rw [hopen]; exact Bool.false_ne_true)]
    cases htok : s.tokenValid scope with
    | true =>
      have hlog : (s.unlockedAs scope).Logged ((s.unlockedAs scope).logSec 5 0 0) := .log ..
      have hsec : (answered ((s.unlockedAs scope).logSec 5 0 0) src 0xD0C0 true).sec = (s.unlockedAs scope).sec := hlog.sec
      refine ⟨_, act_cpWrite_some hl hv hlog.pending hlog.chip, ?_⟩
      rw [hsec]
      exact ⟨rfl, fun _ => ⟨rfl, rfl, rfl⟩, nofun⟩
    | false =>
      have hlog : s.unlockFailed.Logged (s.unlockFailed.logSec 6 0 0) := .log ..
      have hsec : (answered (s.unlockFailed.logSec 6 0 0) src 0xD0C0 true).sec = s.unlockFailed.sec := hlog.sec
      refine ⟨_, act_cpWrite_some hl hv hlog.pending hlog.chip, ?_⟩
      rw [hsec]
      exact ⟨rfl, nofun, fun _ => ⟨rfl, rfl, rfl⟩⟩

/-- Settles O24: each register's command is refused, or makes one change of the hub's domains or of the security unit. -/
theorem domainRegisters : Obligations.DomainRegisters := ⟨domainEntries_holds, ownerAndUnlock_holds⟩

end Sys2Proof.Machine
end

section
/-! SUPPORT. The end of a drain (R468, R474). -/

namespace Sys2Proof.Machine
variable {s : State} {k : Nat} {d : Drain}

/-! ### A slice changes its state (R468) -/

theorem State.mod_toState_logged (s : State) (hk : k < 32) (f : Slice → Slice) (st : SliceState) :
    (s.setSl k { f (s.sl k) with state := st }).Logged ((s.mod k f).toState k st) := by
  have hlog : ((s.mod k f).setSl k { (s.mod k f).sl k with state := st }).Logged ((s.mod k f).toState k st) := .log ..
  rwa [State.sl_mod _ _ _ hk, State.mod, State.setSl_setSl] at hlog

theorem State.Logged.sl {s t : State} (h : s.Logged t) (j : Nat) : t.sl j = s.sl j := (State.Beside.of_logged h).sl j

/-! ### The end of a drain -/

/-- A slice that takes what its drain set, its state apart. -/
def Slice.leavingDrain (x : Slice) (d : Drain) : Slice :=
  let y := if x.startInc then x.clearSlots else x
  { y with
    drain := none, fault := if d.target = .faulted then d.fault else y.fault, overexp := false
    armed := y.armed && d.cause != 4
    cut := if y.seq.cutStop then { y.cut with reached := true, enable := false } else if y.startInc then y.endCut else y.cut }

/-- What the end of the drain leaves of the slice. -/
theorem Slice.leavingDrain_keeps (x : Slice) (d : Drain) : (x.leavingDrain d).drain = none ∧
    (x.leavingDrain d).fault = (if d.target = .faulted then d.fault else x.fault) ∧
    (x.leavingDrain d).armed = (x.armed && d.cause != 4) ∧ (x.leavingDrain d).store = x.store ∧ (x.leavingDrain d).seq = x.seq ∧
    (x.leavingDrain d).brk0 = x.brk0 ∧ (x.leavingDrain d).brk1 = x.brk1 ∧ (x.leavingDrain d).mtr = x.mtr := by
  unfold Slice.leavingDrain
  cases x.startInc <;> exact ⟨rfl, rfl, rfl, rfl, rfl, rfl, rfl, rfl⟩

theorem State.drainDone_waits (h : (s.sl k).state ≠ .draining ∨ (s.sl k).flight ≠ [] ∨ (s.sl k).seq.wait ≠ none) :
    s.drainDone k = s := by
  unfold State.drainDone
  dsimp only
  split
  case h_1 hstate _ =>
    rcases h with hne | hbusy
    · exact absurd hstate hne
    · exact if_pos (by simpa [Option.isSome_iff_ne_none] using hbusy)
  case h_2 => rfl

/-- With no command in progress, nothing follows the change of state. -/
theorem State.drainDone_ends (hk : k < 32) (hstate : (s.sl k).state = .draining) (hdrain : (s.sl k).drain = some d)
    (hflight : (s.sl k).flight = []) (hwait : (s.sl k).seq.wait = none) (hcmds : s.cmds = []) :
    s.drainDone k = (s.mod k (·.leavingDrain d)).toState k d.target := by
  have hidle : ((s.mod k (·.leavingDrain d)).toState k d.target).cmds = [] := (s.mod_toState_logged hk _ _).cmds.trans hcmds
  have hends : ((s.mod k (·.leavingDrain d)).toState k d.target).endStops = (s.mod k (·.leavingDrain d)).toState k d.target := by
    simp only [State.endStops, State.endWhen_idle hidle]
  have hfree : ¬((!(s.sl k).flight.isEmpty) = true ∨ (s.sl k).seq.wait.isSome = true) := by simp [hflight, hwait]
  have hmodel : s.drainDone k = ((s.mod k (·.leavingDrain d)).toState k d.target).endStops.migrations.foldl
      (fun s p => if p.2.src = k ∧ p.2.phase = 2 then s.retireEpoch p.1 p.2 else s)
      ((s.mod k (·.leavingDrain d)).toState k d.target).endStops := by
    unfold State.drainDone
    simp only [hstate, hdrain, if_neg hfree]
    rfl
  rw [hmodel, hends, State.migrations_idle hidle, List.foldl_nil]

/-- Settles O21: a drain ends by one change of its slice, and of its state. -/
theorem drainsEnd : Obligations.DrainsEnd := by
  unfold Obligations.DrainsEnd
  intro s k d hl x
  refine ⟨fun h => act_eq hl (State.drainDone_waits h) rfl rfl, fun hstate hdrain hflight hwait hcmds => ?_⟩
  have hlog := s.mod_toState_logged k.isLt (·.leavingDrain d) d.target
  refine ⟨_, act_eq hl (State.drainDone_ends k.isLt hstate hdrain hflight hwait hcmds) hlog.pending hlog.chip, ?_⟩
  have hsl := (hlog.sl k.val).trans (State.sl_setSl _ _ _ k.isLt)
  obtain ⟨hdrain', hfault, harmed, hstore, hseq, hbrk0, hbrk1, hmtr⟩ := Slice.leavingDrain_keeps (s.sl k.val) d
  dsimp only
  rw [hsl]
  exact ⟨rfl, hdrain', hfault, harmed, hstore, hseq, hbrk0, hbrk1, hmtr,
    fun j hj => (hlog.sl j).trans (State.sl_setSl_ne s k.val j _ hj.symm)⟩

end Sys2Proof.Machine
end

section
/-! SUPPORT. What every mailbox command checks first (R430, R432, R488, R562). -/

namespace Sys2Proof.Machine
variable {s : State} {ch : Channel} {m : Cmd} {code : Nat}

/-- Nothing is found to serve while firmware does not run, or on a channel that runs nothing (R433, R488). -/
theorem State.cmdOf_none (h : s.fw.running = false ∨ ((s.chan ch.val).running = none ∧ s.fw.conts = [])) (code : Nat) :
    s.cmdOf ch code = none := by
  rcases h with hstopped | ⟨hnone, hconts⟩
  · simp [State.cmdOf, hstopped]
  · simp [State.cmdOf, hnone, hconts]

/-- The lowest byte that no field covers and that is not 0 (R430). -/
theorem firstBad_eq_some {fields : List (Nat × Nat)} {i : Nat} (hlo : 16 ≤ i) (hhi : i < 64) (hcov : covered fields i = false)
    (hset : (m.msg[i]?).getD 0 ≠ 0)
    (hbefore : ((List.range' 16 (i - 16)).all fun j => covered fields j || (m.msg[j]?).getD 0 == 0) = true) :
    firstBad m.msg fields = some i := by
  have hsplit : List.range' 16 48 = List.range' 16 (i - 16) ++ i :: List.range' (i + 1) (63 - i) := by
    have hlen : 48 = (i - 16) + (63 - i + 1) := by omega
    have hat : 16 + (i - 16) = i := by omega
    rw [hlen, ← List.range'_append_1, hat, List.range'_succ]
  have hfirst : firstBad m.msg fields = (List.range' 16 48).find? fun i => !covered fields i && (m.msg[i]?).getD 0 != 0 := rfl
  rw [hfirst]
  refine List.find?_eq_some_iff_append.mpr ⟨?_, _, _, hsplit, fun j hj => ?_⟩
  · rw [hcov, Bool.not_false, Bool.true_and]
    exact bne_iff_ne.mpr hset
  · have hj' := List.all_eq_true.mp hbefore j hj
    rw [bne, ← Bool.not_or, hj']
    rfl

/-- An undefined byte ends a command before any other check (R562). -/
theorem State.refused_undefined {n : CmdNeed} {i : Nat} (h : firstBad m.msg n.defs = some i) : s.refused n m = some (.bad i) := by
  simp only [State.refused, CmdNeed.fields, h, Option.map_some, Option.some_or]

/-- The row of a mailbox command: where its channel has none to serve it does nothing, and an undefined byte ends it. -/
structure State.ChecksFirst (s : State) (ch : Channel) (c : MailRow) : Prop where
  idle : s.cmdOf ch c.2.1 = none → exec c.1 s = .next s
  undefined : ∀ m i, Serves s ch m c.2.1 → noRetiring s = true → firstBad m.msg c.2.2 = some i →
    exec c.1 s = .next (ended s ch m 2 i 0 [])

namespace State.ChecksFirst
variable {c : Instr} {defs : List (Nat × Nat)} {n : CmdNeed}

theorem commandGo_none {f : Cmd → (Ends × State) ⊕ (Cmd × State)} (hnone : s.cmdOf ch code = none) : s.commandGo ch code n f = s := by
  simp only [State.commandGo, hnone]

theorem commandGo_undefined {f : Cmd → (Ends × State) ⊕ (Cmd × State)} {i : Nat} (h : Serves s ch m code)
    (hbad : firstBad m.msg n.defs = some i) : s.commandGo ch code n f = s.finish m (.bad i) := by
  simp only [State.commandGo, h.cmdOf, State.refused_undefined hbad]

variable (hl : s.live = true)
include hl

/-- What ends at its checks ends with nothing else done. -/
theorem ends {t : State} {i : Nat} (h : Serves s ch m code) (ht : t = s.finish m (.bad i)) :
    act s t = .next (ended s ch m 2 i 0 []) :=
  act_eq hl (ht.trans (h.finish rfl _)) rfl rfl

theorem of_command {f : Cmd → Ends × State} (hexec : exec c s = act s (s.command ch code n f)) (hdefs : n.defs = defs) :
    s.ChecksFirst ch (c, code, defs) where
  idle hnone := hexec.trans (act_eq hl (by simp only [State.command, hnone]) rfl rfl)
  undefined _ _ h _ hbad := hexec.trans (ends hl h (by
    simp only [State.command, h.cmdOf, State.refused_undefined (n := n) (hdefs ▸ hbad)]))

theorem of_commandGo {f : Cmd → (Ends × State) ⊕ (Cmd × State)} (hexec : exec c s = act s (s.commandGo ch code n f))
    (hdefs : n.defs = defs) : s.ChecksFirst ch (c, code, defs) where
  idle hnone := hexec.trans (act_eq hl (commandGo_none hnone) rfl rfl)
  undefined _ _ h _ hbad := hexec.trans (ends hl h (commandGo_undefined h (hdefs ▸ hbad)))

theorem of_rebootCmd {slot : Cmd → Nat} {record : Cmd → BootRecord} {retries : Nat}
    (hexec : exec c s = act s (s.rebootCmd ch code n slot record retries)) (hdefs : n.defs = defs) :
    s.ChecksFirst ch (c, code, defs) where
  idle hnone := hexec.trans (act_eq hl (by simp only [State.rebootCmd, hnone]) rfl rfl)
  undefined _ _ h _ hbad := hexec.trans (ends hl h (by
    simp only [State.rebootCmd, h.cmdOf, State.refused_undefined (n := n) (hdefs ▸ hbad), Option.some_or]))

/-- REPAIR looks at the columns that are being retired once it is done (R343). -/
theorem repair (retries : BitVec 4) : s.ChecksFirst ch (.repair ch retries, 0x1E, [(16, 1), (17, 1), (18, 1), (19, 1)]) where
  idle hnone := act_eq hl (if_pos (by rw [hnone]; rfl)) rfl rfl
  undefined m i h hret hbad := by
    have hsome : ¬(s.cmdOf ch 0x1E).isNone = true := by rw [h.cmdOf]; exact Bool.false_ne_true
    refine act_eq hl ((if_neg hsome).trans ?_) rfl rfl
    have hend : s.commandGo ch 0x1E s.repairNeed (fun m => s.repair m retries.toNat) = ended s ch m 2 i 0 [] :=
      (commandGo_undefined h hbad).trans (h.finish rfl _)
    rw [hend]
    exact State.retireGo_idle ((noRetiring_congr rfl).trans hret)

theorem rows1 (r : BitVec 4) : ∀ c ∈ mailRows1 ch r, s.ChecksFirst ch c := by
  simp only [mailRows1, List.forall_mem_cons, List.not_mem_nil, false_implies, implies_true, and_true]
  exact ⟨of_command hl rfl rfl, of_command hl rfl rfl, of_command hl rfl rfl, of_command hl rfl rfl, of_command hl rfl rfl,
    of_commandGo hl rfl rfl, of_commandGo hl rfl rfl, of_commandGo hl rfl rfl, of_commandGo hl rfl rfl, of_commandGo hl rfl rfl,
    of_command hl rfl rfl⟩

theorem rows2 (r : BitVec 4) : ∀ c ∈ mailRows2 ch r, s.ChecksFirst ch c := by
  simp only [mailRows2, List.forall_mem_cons, List.not_mem_nil, false_implies, implies_true, and_true]
  exact ⟨of_command hl rfl rfl, of_command hl rfl rfl, of_command hl rfl rfl, of_commandGo hl rfl rfl, of_command hl rfl rfl,
    of_command hl rfl rfl, of_command hl rfl rfl, of_command hl rfl rfl, of_command hl rfl rfl, of_command hl rfl rfl,
    of_command hl rfl rfl⟩

theorem rows3 (r : BitVec 4) : ∀ c ∈ mailRows3 ch r, s.ChecksFirst ch c := by
  simp only [mailRows3, List.forall_mem_cons, List.not_mem_nil, false_implies, implies_true, and_true]
  exact ⟨of_command hl rfl rfl, of_rebootCmd hl rfl rfl, of_command hl rfl rfl, of_rebootCmd hl rfl rfl, of_command hl rfl rfl,
    of_command hl rfl rfl, of_command hl rfl rfl, repair hl r, of_command hl rfl rfl⟩

theorem rows (r : BitVec 4) {c : MailRow} (hc : c ∈ mailCommands ch r) : s.ChecksFirst ch c := by
  simp only [mailCommands, List.mem_append] at hc
  obtain (h1 | h2) | h3 := hc
  · exact rows1 hl r c h1
  · exact rows2 hl r c h2
  · exact rows3 hl r c h3

end State.ChecksFirst

/-- Settles O48: every row of a mailbox command serves and checks by one of the same few functions. -/
theorem mailboxChecks : Obligations.MailboxChecks := by
  unfold Obligations.MailboxChecks
  intro s ch r m i c hl hc
  have hrow := State.ChecksFirst.rows hl r hc
  refine ⟨fun hidle => hrow.idle (State.cmdOf_none hidle _), fun hserves hret hlo hhi hcov hset hbefore => ?_⟩
  exact hrow.undefined m i (Serves.of_serving hserves) hret (firstBad_eq_some hlo hhi hcov hset hbefore)

end Sys2Proof.Machine
end

section
/-! SUPPORT. Writes of the settings store (R493 to R495): what they leave alone. -/

namespace Sys2Proof.Machine

/-- `t` is `s` after writes of sectors: the record of the store's controller, and entries. -/
def State.SectorsWritten (s t : State) : Prop := ∃ ss, State.Logged { s with ss := ss } t

namespace State.SectorsWritten
variable {s t u : State}

theorem of_logged (h : s.Logged t) : s.SectorsWritten t := ⟨s.ss, h⟩

theorem refl (s : State) : s.SectorsWritten s := of_logged (.refl s)

theorem trans (hst : s.SectorsWritten t) (htu : t.SectorsWritten u) : s.SectorsWritten u := by
  obtain ⟨_, _, _, b, rfl⟩ := hst
  obtain ⟨ss, sheet, ext, b', rfl⟩ := htu
  exact ⟨ss, sheet, ext, b ||| b', by simp [BitVec.or_assoc]⟩

theorem foldl {α : Type} {f : State → α → State} (hf : ∀ (t : State) x, t.SectorsWritten (f t x)) (l : List α) (s : State) :
    s.SectorsWritten (l.foldl f s) := by
  induction l generalizing s with
  | nil => exact refl s
  | cons x l ih => exact (hf s x).trans (ih _)

theorem retireSector (s : State) (sector : Nat) : s.SectorsWritten (s.retireSector sector) := by
  unfold State.retireSector
  split
  · exact refl s
  · split
    · exact ⟨_, .refl _⟩
    · exact ⟨_, (Logged.log ..).trans (Logged.irqSet ..)⟩

/-- A write that needs retries may retire its sector (R494). -/
theorem sectorWrite (s : State) (sector retries : Nat) : s.SectorsWritten (s.sectorWrite sector retries) := by
  have hwrite (ss : Store) : s.SectorsWritten { s with ss := ss } := ⟨ss, .refl _⟩
  unfold State.sectorWrite
  dsimp only
  split
  · exact (hwrite _).trans (retireSector _ _)
  · exact hwrite _

theorem slices (h : s.SectorsWritten t) : t.slices = s.slices := by obtain ⟨_, _, _, _, rfl⟩ := h; rfl
theorem kv (h : s.SectorsWritten t) : t.kv = s.kv := by obtain ⟨_, _, _, _, rfl⟩ := h; rfl
theorem fw (h : s.SectorsWritten t) : t.fw = s.fw := by obtain ⟨_, _, _, _, rfl⟩ := h; rfl
theorem mbox (h : s.SectorsWritten t) : t.mbox = s.mbox := by obtain ⟨_, _, _, _, rfl⟩ := h; rfl
theorem power (h : s.SectorsWritten t) : t.power = s.power := by obtain ⟨_, _, _, _, rfl⟩ := h; rfl
theorem settings (h : s.SectorsWritten t) : t.settings = s.settings := by obtain ⟨_, _, _, _, rfl⟩ := h; rfl
theorem stored (h : s.SectorsWritten t) : t.stored = s.stored := by obtain ⟨_, _, _, _, rfl⟩ := h; rfl
theorem sec (h : s.SectorsWritten t) : t.sec = s.sec := by obtain ⟨_, _, _, _, rfl⟩ := h; rfl
theorem tb (h : s.SectorsWritten t) : t.tb = s.tb := by obtain ⟨_, _, _, _, rfl⟩ := h; rfl
theorem reel (h : s.SectorsWritten t) : t.reel = s.reel := by obtain ⟨_, _, _, _, rfl⟩ := h; rfl
theorem emul (h : s.SectorsWritten t) : t.emul = s.emul := by obtain ⟨_, _, _, _, rfl⟩ := h; rfl
theorem pending (h : s.SectorsWritten t) : t.pending = s.pending := by obtain ⟨_, _, _, _, rfl⟩ := h; rfl
theorem chip (h : s.SectorsWritten t) : t.chip = s.chip := by obtain ⟨_, _, _, _, rfl⟩ := h; rfl

theorem sl (h : s.SectorsWritten t) (k : Nat) : t.sl k = s.sl k := by rw [State.sl, State.sl, h.slices]

end State.SectorsWritten

end Sys2Proof.Machine
end

section
/-! SUPPORT. The entry check of a slice, admitted wake-ups, and passes of the configuration scrubber (R469, R497, R498, R518). -/

namespace Sys2Proof.Machine
variable {s t : State} {k : Nat} {x : Slice}

/-- A fault that finds room in the contact sheet raises the fault line (R377, R406). -/
theorem State.log_fault_raises (h : s.sheet.occ < s.sheet.capacity) (src kind code : Nat) (data : List Byte) :
    (s.log src kind code true data).irq.status.getLsbD 1 = true := by
  have hroom : ¬(s.sheet.capacity ≤ s.sheet.occ ∨ s.sheet.capacity ≤ s.sheet.occ + 1024 ∧ (!true) = true) := by simp [h]
  unfold State.log
  dsimp only
  rw [if_neg hroom, if_pos rfl]
  split
  · exact (Logged.irqSet _ 7).irq_mono (State.irqSet_status _ (by decide))
  · exact State.irqSet_status _ (by decide)

theorem State.SliceTo.toState (h : s.SliceTo k x t) (hk : k < 32) (st : SliceState) :
    s.SliceTo k { x with state := st } (t.toState k st) :=
  (h.mod hk fun x => { x with state := st }).log ..

/-! ### The entry check (R469) -/

/-- A slice whose configuration memory has been written with zero. -/
def Slice.zeroed (x : Slice) : Slice := { x with imem := [], desc := [], brk0 := Vector.replicate 64 0, brk1 := Vector.replicate 64 0 }

/-- No frame of a slice is marked. -/
def State.unmarked (s : State) (k : Nat) : State :=
  { s with scrub := { s.scrub with bad := s.scrub.bad.filter (·.1 != k), due := s.scrub.due.filter (·.1 != k) } }

/-- The entry check takes place: firmware runs, and the slice is there and COLD. -/
def State.entryDue (s : State) (k : Nat) : Bool :=
  s.fw.running && s.start.phase == .ready && decide (k < s.chip.model.slices) && (s.sl k).state == .cold

/-- The model's own guard is that it does not. -/
theorem State.entryDue_eq_false_iff (s : State) (k : Nat) : s.entryDue k = false ↔
    !s.fw.running ∨ s.start.phase ≠ .ready ∨ !s.present.contains k ∨ (s.sl k).state ≠ .cold := by
  rw [← Bool.not_eq_true]
  simp only [State.entryDue, State.present, Bool.and_eq_true, beq_iff_eq, decide_eq_true_eq, List.contains_iff_mem, List.mem_range,
    Bool.not_eq_true', ← Bool.not_eq_true, not_and_or, ne_eq, or_assoc]

theorem State.entryCheck_ignored (h : s.entryDue k = false) (bad : Option Nat) : s.entryCheck k bad = s :=
  if_pos ((s.entryDue_eq_false_iff k).1 h)

theorem State.endChecks_idle (h : s.cmds = []) : s.endChecks k = s := by
  have hend := State.endWhen_idle h
  simp only [State.endChecks, hend]

/-- The slice whose frame failed, once the entry is written, before its change of state. -/
def State.entryFailed (s : State) (k frame : Nat) : State :=
  (((s.unmarked k).mod k Slice.zeroed).logFrame frame).mod k fun x => { x with fault := 0x0601 }

section entryCheck
variable (hdue : s.entryDue k = true) (hk : k < 32)
include hdue

theorem State.entryCheck_whole : s.entryCheck k none = (((s.unmarked k).mod k Slice.zeroed).toState k .ready).endChecks k :=
  if_neg fun h => by rw [(s.entryDue_eq_false_iff k).2 h] at hdue; cases hdue

theorem State.entryCheck_bad (frame : Nat) : s.entryCheck k (some frame) = ((s.entryFailed k frame).toState k .faulted).endChecks k :=
  if_neg fun h => by rw [(s.entryDue_eq_false_iff k).2 h] at hdue; cases hdue

end entryCheck

theorem State.SliceTo.zeroed (s : State) (hk : k < 32) : s.SliceTo k (s.sl k).zeroed ((s.unmarked k).mod k Slice.zeroed) :=
  State.SliceTo.mod ⟨(s.unmarked k).scrub, by rw [State.setSl_sl]; exact .refl _⟩ hk Slice.zeroed

theorem State.SliceTo.entryFailed (s : State) (hk : k < 32) (frame : Nat) :
    s.SliceTo k { (s.sl k).zeroed with fault := 0x0601 } (s.entryFailed k frame) :=
  ((State.SliceTo.zeroed s hk).log ..).mod hk _

/-- The failed check raises the fault line where the contact sheet has room, and the change of state keeps it up. -/
theorem State.entryFailed_raises (frame : Nat) (h : s.sheet.occ < s.sheet.capacity) :
    ((s.entryFailed k frame).toState k .faulted).irq.status.getLsbD 1 = true := by
  have hraised := State.log_fault_raises (s := (s.unmarked k).mod k Slice.zeroed) h 0x0107 1 0x0601 (faultData 0xFFFF none 0 0xFF frame)
  exact State.Logged.irq_mono (.log ..) hraised

/-! ### Wake-ups (R518) -/

theorem State.setRetired_written (s : State) (k : Nat) (r : Bool) (retries : Nat) :
    ∃ fw, State.SectorsWritten { s with fw := fw } (s.setRetired k r retries) := ⟨_, .sectorWrite ..⟩

/-- A slice whose supply has come on, before what REPAIR had taken from it is given back. -/
def State.supplied (s : State) (k : Nat) : State := (s.mod k fun _ => { Slice.reset with state := .off }).toState k .cold

theorem State.supplied_sliceTo (s : State) (hk : k < 32) : s.SliceTo k { Slice.reset with state := .cold } (s.supplied k) :=
  ((State.SliceTo.refl s k).mod hk fun _ => { Slice.reset with state := .off }).toState hk .cold

theorem State.wake_written (s : State) (k : Nat) : ∃ fw, State.SectorsWritten { s.supplied k with fw := fw } (s.wake k) := by
  have hmodel : s.wake k = if (s.sl k).retired then ((s.supplied k).setRetired k false 0).logAvail k else s.supplied k := rfl
  rw [hmodel]
  split
  · obtain ⟨fw, hret⟩ := (s.supplied k).setRetired_written k false 0
    exact ⟨fw, hret.trans (.of_logged (.log ..))⟩
  · exact ⟨(s.supplied k).fw, .refl _⟩

/-- A wake-up is admitted: it leaves the queue, and counts for 4 µs. -/
def State.admitting (s : State) (rest : List Nat) : State :=
  { s with power := { s.power with
      wakes := rest, admits := s.recentAdmits ++ [s.now], admitted := sat16 s.power.admitted 1 } }

theorem State.admitWakes_waits (h : s.power.wakes = [] ∨ s.power.clamp = true ∨ 2 ≤ s.recentAdmits.length) : s.admitWakes = s := by
  unfold State.admitWakes
  split
  case h_1 => rfl
  case h_2 hwakes =>
    rcases h with hnone | hheld
    · rw [hnone] at hwakes; cases hwakes
    · exact if_pos hheld

theorem State.admitWakes_wakes {rest : List Nat} (hwakes : s.power.wakes = k :: rest) (hclamp : s.power.clamp = false)
    (hfew : s.recentAdmits.length < 2) : s.admitWakes = (s.admitting rest).wake k := by
  have hgo : ¬(s.power.clamp = true ∨ 2 ≤ s.recentAdmits.length) := by simp [hclamp, hfew]
  unfold State.admitWakes
  rw [hwakes]
  exact if_neg hgo

theorem State.SliceTo.power (h : s.SliceTo k x t) : t.power = s.power := h.elim fun _ h => h.power

/-! ### Scrub passes (R497, R498) -/

theorem State.scrubPass_waits (h : s.start.phase ≠ .ready ∨ ∃ n, s.scrub.startNs = some n ∧ s.now < n) (single double : List CfgErr)
    (late : Bool) : s.scrubPass single double late = s := by
  refine if_pos (h.imp_right ?_)
  rintro ⟨n, hn, hlt⟩
  rwa [hn, Option.getD_some]

/-- A pass that found its frames. -/
def State.passed (s t : State) (n : Nat) (late : Bool) : State :=
  { t with scrub := { t.scrub with
      passes := t.scrub.passes + 1, late := if late then t.scrub.late + 1 else t.scrub.late
      corrected := t.scrub.corrected + BitVec.ofNat 32 n
      startNs := some (s.scrub.startNs.getD s.now + s.setting 0x0704 * 1000000) } }

/-- The frames that a pass reads uncorrectable. -/
def State.scrubbedBad (s : State) (double : List CfgErr) : State := (double.eraseDups.filter s.scrubbed).foldl State.badFrame s

theorem Slice.inLoadable_iff (x : Slice) (f : Nat) :
    x.inLoadable f = true ↔ if x.bank then f < 1024 else 1024 ≤ f ∧ f < 2048 := by
  unfold Slice.inLoadable
  cases x.bank <;> simp

/-- The scrubber's record of an uncorrectable frame (R498). -/
def State.badFrameScrub (s : State) (e : CfgErr) : Scrub :=
  let k := e.slice.val
  let f := e.frame.toNat
  { s.scrub with
    uncorr := s.scrub.uncorr + 1, lastSlice := k, lastFrame := f, lastFetch := false, lastValid := true, lastNs := s.tb.now
    bad := (k, f) :: s.scrub.bad.erase (k, f)
    due := if (s.sl k).inLoadable f || (s.sl k).idleDesc f then s.scrub.due else (k, f) :: s.scrub.due.erase (k, f) }

theorem State.badFrame_eq (s : State) (e : CfgErr) : s.badFrame e =
    if (s.sl e.slice.val).inLoadable e.frame.toNat then
      (State.logFrame { s with scrub := s.badFrameScrub e } e.frame.toNat).mod e.slice.val fun x => { x with loaded := false }
    else State.logFrame { s with scrub := s.badFrameScrub e } e.frame.toNat := rfl

/-- What an uncorrectable frame changes: the scrubber's record, its slice, and what an entry of the contact sheet changes. -/
theorem State.badFrame_logged (s : State) (e : CfgErr) : ({ s with scrub := s.badFrameScrub e }.setSl e.slice.val
      (if (s.sl e.slice.val).inLoadable e.frame.toNat then { s.sl e.slice.val with loaded := false } else s.sl e.slice.val)).Logged
    (s.badFrame e) := by
  have hlog : State.Logged { s with scrub := s.badFrameScrub e } (State.logFrame { s with scrub := s.badFrameScrub e } e.frame.toNat) :=
    .log ..
  rw [State.badFrame_eq]
  split
  · have hsl := hlog.sl e.slice.val
    rw [State.mod, hsl]
    exact hlog.setSl _ _
  · have hself : { s with scrub := s.badFrameScrub e }.setSl e.slice.val (s.sl e.slice.val) = { s with scrub := s.badFrameScrub e } :=
      State.setSl_sl _ _
    rwa [hself]

/-- Such a frame raises the fault line where the contact sheet has room. -/
theorem State.badFrame_raises (s : State) (e : CfgErr) (h : s.sheet.occ < s.sheet.capacity) :
    (s.badFrame e).irq.status.getLsbD 1 = true := by
  have hraised := State.log_fault_raises (s := { s with scrub := s.badFrameScrub e }) h 0x0107 1 0x0601
    (faultData 0xFFFF none 0 0xFF e.frame.toNat)
  rw [State.badFrame_eq]
  split <;> exact hraised

theorem State.Logged.settings (h : s.Logged t) : t.settings = s.settings := by obtain ⟨_, _, _, rfl⟩ := h; rfl
theorem State.Logged.scrub (h : s.Logged t) : t.scrub = s.scrub := by obtain ⟨_, _, _, rfl⟩ := h; rfl

theorem State.badFrame_settings (s : State) (e : CfgErr) : (s.badFrame e).settings = s.settings := (s.badFrame_logged e).settings

theorem State.badFrame_pending (s : State) (e : CfgErr) : (s.badFrame e).pending = s.pending := (s.badFrame_logged e).pending

theorem State.badFrame_chip (s : State) (e : CfgErr) : (s.badFrame e).chip = s.chip := (s.badFrame_logged e).chip

theorem act_scrubPass {single double : List CfgErr} {late : Bool} (hl : s.live = true)
    (hpass : s.scrubPass single double late = s.passed (s.scrubbedBad double) k late) :
    exec (.cfgScrubPass single double late) s = .next (s.passed (s.scrubbedBad double) k late) :=
  act_eq hl hpass (foldl_field State.pending (fun t e => t.badFrame_pending e) _ s)
    (foldl_field State.chip (fun t e => t.badFrame_chip e) _ s)

theorem State.scrubPass_passes (hready : s.start.phase = .ready) (hdue : ∀ n, s.scrub.startNs = some n → n ≤ s.now)
    (single double : List CfgErr) (late : Bool) : s.scrubPass single double late =
      s.passed (s.scrubbedBad double) (single.eraseDups.filter s.scrubbed).length late := by
  have hstart : ¬(s.now < s.scrub.startNs.getD s.now) := by
    cases hn : s.scrub.startNs with
    | none => exact Nat.lt_irrefl _
    | some n => exact Nat.not_lt.2 (hdue n hn)
  have hset : (s.scrubbedBad double).setting 0x0704 = s.setting 0x0704 := by
    have hkeep : (s.scrubbedBad double).settings = s.settings := foldl_field State.settings (fun t e => t.badFrame_settings e) _ s
    simp only [State.setting, hkeep]
  have hgo : ¬(s.start.phase ≠ .ready ∨ s.now < s.scrub.startNs.getD s.now) := by simp [hready, hstart]
  unfold State.passed
  rw [← hset]
  exact if_neg hgo

theorem State.scrubbedBad_single {e : CfgErr} (hp : e.slice.val < s.chip.model.slices) (hoff : (s.sl e.slice.val).state ≠ .off)
    (hcold : (s.sl e.slice.val).state ≠ .cold) (hframe : e.frame.toNat < 3140) : s.scrubbedBad [e] = s.badFrame e := by
  have hread : s.scrubbed e = true := by simp [State.scrubbed, State.present, hp, hoff, hcold, hframe]
  simp [State.scrubbedBad, List.eraseDups_cons, hread]

/-! ### The obligation -/

theorem entryCheck_settled (s : State) (hl : s.live = true) (k : SliceId) (bad : Option W12) (hdue : s.entryDue k.val = true)
    (hcmds : s.cmds = []) : ∃ t, exec (.sliceEntryCheck k bad) s = .next t ∧ (∀ j, j ≠ k.val → t.sl j = s.sl j) ∧
      t.sl k.val = { s.sl k.val with
        imem := [], desc := [], brk0 := Vector.replicate 64 0, brk1 := Vector.replicate 64 0
        state := if bad = none then .ready else .faulted, fault := if bad = none then (s.sl k.val).fault else 0x0601 } ∧
      (bad ≠ none → s.sheet.occ < s.sheet.capacity → t.irq.status.getLsbD 1 = true) := by
  cases bad with
  | none =>
    have hto := (State.SliceTo.zeroed s k.isLt).toState k.isLt .ready
    have heq := (State.entryCheck_whole hdue).trans (State.endChecks_idle (hto.cmds.trans hcmds))
    exact ⟨_, act_eq hl heq hto.pending hto.chip, fun j hj => hto.sl_ne hj, hto.sl k.isLt, fun h => absurd rfl h⟩
  | some f =>
    have hto := (State.SliceTo.entryFailed s k.isLt f.toNat).toState k.isLt .faulted
    have heq := (State.entryCheck_bad hdue f.toNat).trans (State.endChecks_idle (hto.cmds.trans hcmds))
    exact ⟨_, act_eq hl heq hto.pending hto.chip, fun j hj => hto.sl_ne hj, hto.sl k.isLt, fun _ => State.entryFailed_raises _⟩

/-- Settles O47: the entry check, the admission and the pass each either wait or change what their sections say. -/
theorem maintenanceSteps : Obligations.MaintenanceSteps := by
  unfold Obligations.MaintenanceSteps
  intro s k bad single e late hl x check
  refine ⟨fun hno => act_eq hl (State.entryCheck_ignored hno _) rfl rfl, entryCheck_settled s hl k bad,
    fun hwait => act_eq hl (State.admitWakes_waits hwait) rfl rfl, fun rest hwakes hclamp hfew => ?_,
    fun hwait double => act_eq hl (State.scrubPass_waits hwait single double late) rfl rfl, fun hready hdue => ⟨?_, ?_⟩⟩
  · obtain ⟨fw, hwake⟩ := (s.admitting rest).wake_written k.val
    have hto := (s.admitting rest).supplied_sliceTo k.isLt
    refine ⟨_, act_eq hl (State.admitWakes_wakes hwakes hclamp hfew) (hwake.pending.trans hto.pending) (hwake.chip.trans hto.chip),
      (hwake.sl k.val).trans (hto.sl k.isLt), fun j hj => (hwake.sl j).trans (hto.sl_ne hj), ?_, ?_⟩
    · rw [hwake.power.trans hto.power]; rfl
    · rw [hwake.power.trans hto.power]; rfl
  · exact ⟨_, act_scrubPass hl (State.scrubPass_passes hready hdue single [] late), rfl, rfl, rfl, rfl, rfl⟩
  · intro hslice hp hoff hcold hframe
    subst hslice
    have hbad := State.scrubbedBad_single hp hoff hcold hframe
    have hlog := s.badFrame_logged e
    have hpass := act_scrubPass hl (State.scrubPass_passes hready hdue [] [e] late)
    rw [hbad] at hpass
    have hscrub : (s.badFrame e).scrub = s.badFrameScrub e := hlog.scrub
    refine ⟨_, hpass, ?_, ?_, ?_, ?_, s.badFrame_raises e, fun j hj => ?_, ?_⟩
    · exact congrArg Scrub.uncorr hscrub
    · exact congrArg Scrub.lastSlice hscrub
    · exact congrArg Scrub.lastFrame hscrub
    · have hmem : (e.slice.val, e.frame.toNat) ∈ (s.badFrame e).scrub.bad := by rw [hscrub]; exact List.mem_cons_self
      exact hmem
    · exact (hlog.sl j).trans (State.sl_setSl_ne _ _ _ _ hj.symm)
    · have hsl := (hlog.sl e.slice.val).trans (State.sl_setSl _ _ _ e.slice.isLt)
      simp only [Slice.inLoadable_iff] at hsl
      exact hsl

end Sys2Proof.Machine
end

section
/-! SUPPORT. Telemetry, cap windows, sensors, the thermal model and the emulsion's limit (R502 to R517). -/

namespace Sys2Proof.Machine
variable {s t : State} {q : Nat}

/-! ### A step for each quadrant -/

section fold
variable {β γ : Type} {f : β → Nat → β} (g : β → γ)

/-- What no step before `n` changes stays. -/
theorem foldl_range_past {n : Nat} (hne : ∀ t a, a ≠ q → g (f t a) = g t) (hn : n ≤ q) (b : β) :
    g ((List.range n).foldl f b) = g b := by
  induction n with
  | zero => rfl
  | succ n ih =>
    rw [List.range_succ, List.foldl_append, List.foldl_cons, List.foldl_nil, hne _ _ (by omega), ih (by omega)]

/-- What only step `q` changes is what it makes of it. -/
theorem foldl_range_at {n : Nat} (hne : ∀ t a, a ≠ q → g (f t a) = g t) (hq : q < n) (b : β) :
    ∃ t, g t = g b ∧ g ((List.range n).foldl f b) = g (f t q) := by
  induction n with
  | zero => omega
  | succ n ih =>
    rw [List.range_succ, List.foldl_append, List.foldl_cons, List.foldl_nil]
    by_cases hlast : n = q
    · subst hlast
      exact ⟨_, foldl_range_past g hne (Nat.le_refl n) b, rfl⟩
    · obtain ⟨t, ht, hfold⟩ := ih (by omega)
      exact ⟨t, ht, (hne _ _ hlast).trans hfold⟩

end fold

theorem Model.quads_le (m : Model) : m.quads ≤ 4 := by cases m <;> decide

theorem State.quad_modQuad_ne (s : State) {a : Nat} (f : Quad → Quad) (h : a ≠ q) : (s.modQuad a f).quad q = s.quad q := by
  simp [State.quad, State.modQuad, Vector.getElem?_setIfInBounds_ne h]

theorem State.quad_congr (h : t.power.quads = s.power.quads) (q : Nat) : t.quad q = s.quad q := by rw [State.quad, State.quad, h]

/-! ### Cap windows (R504 to R506) -/

/-- The window closed, before an entry says so. -/
def State.windowClosed (s : State) : State :=
  let p := s.power
  let high := decide (p.capW * 1000 * p.windowNs < p.energy)
  { s with power := { p with
    lastAvg := p.energy / (p.windowNs * 100), lastCap := p.capW, lastOver := high,
    overNs := if high && p.overruns == 0 then BitVec.ofNat 48 p.windowEnd else p.overNs,
    overruns := if high then sat16 p.overruns 1 else p.overruns,
    winStart := p.windowEnd, energy := 0, samples := 0,
    capW := if p.nextCap = 0 then p.capW else p.nextCap, nextCap := 0,
    windowMs := if p.nextWindow = 0 then p.windowMs else p.nextWindow, nextWindow := 0 } }

theorem State.closeWindow_within (h : s.windowClosed.power.lastOver = false) : s.closeWindow = s.windowClosed :=
  if_neg (Bool.eq_false_iff.1 h)

theorem State.closeWindow_over (h : s.windowClosed.power.lastOver = true) : s.closeWindow =
    (s.windowClosed.logPower 1 0xFFFF s.power.op s.power.op (s.power.energy / (s.power.windowNs * 100)) s.power.winStart).irqSet 3 :=
  if_pos h

theorem State.closeWindow_logged (s : State) : s.windowClosed.Logged s.closeWindow := by
  cases h : s.windowClosed.power.lastOver with
  | false => rw [State.closeWindow_within h]; exact .refl _
  | true => rw [State.closeWindow_over h]; exact ((State.Logged.refl _).logPower ..).trans (.irqSet _ 3)

theorem State.windowsDue_waits (h : s.start.phase ≠ .ready ∨ s.now < s.power.windowEnd) : s.windowsDue = s := by
  have hopen : ¬(s.start.phase = .ready ∧ s.power.windowEnd ≤ s.now) := by
    rintro ⟨hready, hend⟩
    rcases h with hne | hlt
    · exact hne hready
    · exact absurd hend (Nat.not_le.2 hlt)
  exact if_neg hopen

/-! ### Sensors and quadrant halt (R511, R515) -/

/-- Whether a quadrant is halted once its sensors are sampled (R515). -/
def State.haltsNow (s : State) (q : Nat) : Bool :=
  if s.power.qhalt.getLsbD q then !decide ((s.quad q).tm < (s.quad q).limit)
  else decide (s.power.op = 0 ∧ ((s.quad q).limit : Int) + 40 ≤ (s.quad q).tm)

/-- Changes of slices change the slices. -/
theorem State.foldl_mod {α : Type} (at_ : α → Nat) (g : Slice → Slice) (l : List α) (s : State) :
    ∃ slices, l.foldl (fun s i => s.mod (at_ i) g) s = { s with slices := slices } := by
  induction l generalizing s with
  | nil => exact ⟨s.slices, rfl⟩
  | cons i l ih => exact ih (s.mod (at_ i) g)

theorem getLsbD_and_not_shiftLeft (b : BitVec 4) {q : Nat} (hq : q < 4) (a : Nat) :
    (b &&& ~~~(1#4 <<< a)).getLsbD q = if a = q then false else b.getLsbD q := by
  by_cases h : a = q
  · subst h; simp [hq]
  · simp [hq, h]; omega

theorem getLsbD_or_shiftLeft (b : BitVec 4) {q : Nat} (hq : q < 4) (a : Nat) :
    (b ||| (1#4 <<< a)).getLsbD q = if a = q then true else b.getLsbD q := by
  by_cases h : a = q
  · subst h; simp [hq]
  · simp [hq, h]; omega

/-- A halt step changes the bit of its quadrant, a count, arrays of slices, and what an entry of the contact sheet changes. -/
theorem State.haltStep_logged (s : State) (a : Nat) : ∃ bits n slices,
    State.Logged { s with power := { s.power with qhalt := bits, qhalts := n }, slices := slices } (s.haltStep a) ∧
    ∀ q < 4, bits.getLsbD q = if a = q then s.haltsNow q else s.power.qhalt.getLsbD q := by
  unfold State.haltStep
  dsimp only
  split
  case isTrue hhalt =>
    split
    case isTrue hcool =>
      obtain ⟨slices, hslices⟩ := State.foldl_mod (fun i => a * 8 + i) (fun x => { x with arrayGated := true }) (List.range 8)
        { s with power := { s.power with qhalt := s.power.qhalt &&& ~~~(1#4 <<< a) } }
      rw [hslices]
      refine ⟨_, s.power.qhalts, slices, (State.Logged.refl _).logPower .., fun q hq => ?_⟩
      rw [getLsbD_and_not_shiftLeft _ hq]
      split
      next haq => subst haq; simp only [State.haltsNow, if_pos hhalt, hcool, decide_true, Bool.not_true]
      next => rfl
    case isFalse hhot =>
      refine ⟨s.power.qhalt, s.power.qhalts, s.slices, .refl _, fun q hq => ?_⟩
      split
      next haq => subst haq; simp only [State.haltsNow, if_pos hhalt, hhot, decide_false, Bool.not_false]; exact hhalt
      next => rfl
  case isFalse hrun =>
    split
    case isTrue hhot =>
      refine ⟨_, _, s.slices, ((State.Logged.refl _).logPower ..).trans (.irqSet _ 3), fun q hq => ?_⟩
      rw [getLsbD_or_shiftLeft _ hq]
      split
      next haq => subst haq; simp only [State.haltsNow, if_neg hrun]; exact (decide_eq_true hhot).symm
      next => rfl
    case isFalse hcool =>
      refine ⟨s.power.qhalt, s.power.qhalts, s.slices, .refl _, fun q hq => ?_⟩
      split
      next haq =>
        subst haq
        simp only [State.haltsNow, if_neg hrun]
        exact (Bool.eq_false_iff.2 hrun).trans (decide_eq_false hcool).symm
      next => rfl

theorem State.haltStep_power (s : State) (a : Nat) : ∃ bits n, (s.haltStep a).power = { s.power with qhalt := bits, qhalts := n } ∧
    ∀ q < 4, bits.getLsbD q = if a = q then s.haltsNow q else s.power.qhalt.getLsbD q := by
  obtain ⟨bits, n, _, hlog, hbits⟩ := s.haltStep_logged a
  exact ⟨bits, n, hlog.power, hbits⟩

theorem State.haltStep_pending (s : State) (a : Nat) : (s.haltStep a).pending = s.pending := by
  obtain ⟨_, _, _, hlog, -⟩ := s.haltStep_logged a; exact hlog.pending

theorem State.haltStep_chip (s : State) (a : Nat) : (s.haltStep a).chip = s.chip := by
  obtain ⟨_, _, _, hlog, -⟩ := s.haltStep_logged a; exact hlog.chip

/-- What the halt of a quadrant looks at, besides its bit. -/
theorem State.haltStep_keeps (s : State) (a : Nat) : (s.haltStep a).power.quads = s.power.quads ∧
    (s.haltStep a).power.op = s.power.op ∧ (s.haltStep a).power.hubTemp = s.power.hubTemp := by
  obtain ⟨_, _, hpower, -⟩ := s.haltStep_power a
  rw [hpower]
  exact ⟨rfl, rfl, rfl⟩

theorem State.haltStep_qhalt (s : State) (a : Nat) (hq : q < 4) :
    (s.haltStep a).power.qhalt.getLsbD q = if a = q then s.haltsNow q else s.power.qhalt.getLsbD q := by
  obtain ⟨bits, _, hpower, hbits⟩ := s.haltStep_power a
  rw [hpower, ← hbits q hq]

/-- A quadrant's temperature is set. -/
def State.measure (temps : List (BitVec 10)) (s : State) (q : Nat) : State := s.modQuad q fun x => { x with tm := hottest4 temps q }

/-- The state once every quadrant's temperature is set. -/
def State.measured (s : State) (temps : List (BitVec 10)) : State := s.quadList.foldl (State.measure temps) s

theorem State.measured_keeps (s : State) (temps : List (BitVec 10)) : (s.measured temps).power.op = s.power.op ∧
    (s.measured temps).power.qhalt = s.power.qhalt ∧ (s.measured temps).pending = s.pending ∧ (s.measured temps).chip = s.chip :=
  have hkeep {γ : Type} (g : State → γ) (hg : ∀ t q, g (State.measure temps t q) = g t) : g (s.measured temps) = g s :=
    foldl_field g hg s.quadList s
  ⟨hkeep (fun t => t.power.op) fun _ _ => rfl, hkeep (fun t => t.power.qhalt) fun _ _ => rfl, hkeep State.pending fun _ _ => rfl,
    hkeep State.chip fun _ _ => rfl⟩

theorem State.measured_quad (s : State) (temps : List (BitVec 10)) (hq : q < s.chip.model.quads) :
    (s.measured temps).quad q = { s.quad q with tm := hottest4 temps q } := by
  obtain ⟨t, hquad, hfold⟩ := foldl_range_at (fun t : State => t.quad q)
    (f := State.measure temps) (fun t _ ha => t.quad_modQuad_ne _ ha) hq s
  refine hfold.trans ((State.quad_modQuad _ _ (hq.trans_le (Model.quads_le _))).trans ?_)
  rw [hquad]

theorem State.measured_absent (s : State) (temps : List (BitVec 10)) (hq : s.chip.model.quads ≤ q) :
    (s.measured temps).quad q = s.quad q :=
  foldl_range_past (fun t : State => t.quad q) (fun t _ ha => t.quad_modQuad_ne _ ha) hq s

/-- The state in which the halts are decided. -/
def State.sensed (s : State) (temps : List (BitVec 10)) (hub : BitVec 10) : State :=
  { s.measured temps with power := { (s.measured temps).power with hubTemp := hub.toInt } }

theorem State.sense_eq (s : State) (temps : List (BitVec 10)) (hub : BitVec 10) :
    s.sense temps hub = s.quadList.foldl State.haltStep (s.sensed temps hub) := by
  obtain ⟨-, -, -, hchip⟩ := s.measured_keeps temps
  have hlist : (s.sensed temps hub).quadList = s.quadList := congrArg (fun c : Chip => List.range c.model.quads) hchip
  rw [← hlist]
  rfl

/-- A sample sets temperatures, and then the halts; the operating point stays. -/
theorem State.sense_keeps (s : State) (temps : List (BitVec 10)) (hub : BitVec 10) :
    (s.sense temps hub).power.quads = (s.measured temps).power.quads ∧ (s.sense temps hub).power.op = s.power.op ∧
    (s.sense temps hub).power.hubTemp = hub.toInt ∧ (s.sense temps hub).pending = s.pending ∧ (s.sense temps hub).chip = s.chip := by
  obtain ⟨hop, -, hpending, hchip⟩ := s.measured_keeps temps
  rw [State.sense_eq]
  exact ⟨foldl_field (fun t : State => t.power.quads) (fun t a => (t.haltStep_keeps a).1) _ _,
    (foldl_field (fun t : State => t.power.op) (fun t a => (t.haltStep_keeps a).2.1) _ _).trans hop,
    foldl_field (fun t : State => t.power.hubTemp) (fun t a => (t.haltStep_keeps a).2.2) _ _,
    (foldl_field State.pending State.haltStep_pending _ _).trans hpending,
    (foldl_field State.chip State.haltStep_chip _ _).trans hchip⟩

/-- What a step of another quadrant leaves of what this one's halt looks at. -/
def State.haltView (q : Nat) (s : State) : Bool × Quad × Nat := (s.power.qhalt.getLsbD q, s.quad q, s.power.op)

theorem State.haltView_haltStep (s : State) {a : Nat} (hq : q < 4) (h : a ≠ q) : (s.haltStep a).haltView q = s.haltView q := by
  obtain ⟨hquads, hop, -⟩ := s.haltStep_keeps a
  have hbit := (s.haltStep_qhalt a hq).trans (if_neg h)
  simp only [State.haltView, hbit, State.quad_congr hquads, hop]

theorem State.haltsNow_congr (h : t.haltView q = s.haltView q) : t.haltsNow q = s.haltsNow q := by
  obtain ⟨hbit, hquad, hop⟩ : _ ∧ _ ∧ _ := by simpa only [State.haltView, Prod.mk.injEq] using h
  simp only [State.haltsNow, hbit, hquad, hop]

theorem State.sense_qhalt (s : State) (temps : List (BitVec 10)) (hub : BitVec 10) (hq : q < s.chip.model.quads) :
    (s.sense temps hub).power.qhalt.getLsbD q = (s.sensed temps hub).haltsNow q := by
  have hq4 : q < 4 := hq.trans_le (Model.quads_le _)
  obtain ⟨t, hview, hfold⟩ := foldl_range_at (State.haltView q) (f := State.haltStep)
    (fun t _ ha => t.haltView_haltStep hq4 ha) hq (s.sensed temps hub)
  have hbit : (s.sense temps hub).power.qhalt.getLsbD q = (t.haltStep q).power.qhalt.getLsbD q := by
    rw [State.sense_eq]; exact congrArg Prod.fst hfold
  rw [hbit, t.haltStep_qhalt q hq4, if_pos rfl, State.haltsNow_congr hview]

/-- The halts as decided on the temperatures just measured (R515). -/
theorem State.sensed_haltsNow (s : State) (temps : List (BitVec 10)) (hub : BitVec 10) (hq : q < s.chip.model.quads) :
    (s.sensed temps hub).haltsNow q = if s.power.qhalt.getLsbD q then !decide (hottest4 temps q < (s.quad q).limit)
      else decide (s.power.op = 0 ∧ ((s.quad q).limit : Int) + 40 ≤ hottest4 temps q) := by
  obtain ⟨hop, hqhalt, -, -⟩ := s.measured_keeps temps
  have hquad : (s.sensed temps hub).quad q = { s.quad q with tm := hottest4 temps q } := s.measured_quad temps hq
  have hbit : (s.sensed temps hub).power.qhalt = s.power.qhalt := hqhalt
  have hpoint : (s.sensed temps hub).power.op = s.power.op := hop
  simp only [State.haltsNow, hquad, hbit, hpoint]

/-! ### The thermal model (R512, R513) -/

theorem State.quarter_free (s : State) (x : Int) : ∃ n, (s.quarter x).2 = { s with free := n } := by
  unfold State.quarter
  split
  · exact ⟨s.free, rfl⟩
  · exact ⟨s.free + 1, rfl⟩

/-- The step of a quadrant's model, whatever the roundings of what is reported. -/
theorem State.evalQuad_eq (s : State) (a : Nat) : ∃ n trefQ pred, s.evalQuad a = State.modQuad { s with free := n } a fun _ =>
    { (s.quad a).calibrate with
      trefQ := trefQ, pred := pred, t1 := some ((s.quad a).calibrate.after (s.power.quadMean a : Nat) 100),
      target := (s.quad a).calibrate.thermal s.power.op (s.power.quadMean a) } := by
  obtain ⟨m, hfirst⟩ := s.quarter_free (s.quad a).calibrate.tref
  obtain ⟨n, hsecond⟩ := (s.quarter (s.quad a).calibrate.tref).2.quarter_free
    ((s.quad a).calibrate.after (s.power.quadMean a : Nat) ((s.quad a).calibrate.horizon * 1000))
  have hfree : ((s.quarter (s.quad a).calibrate.tref).2.quarter
      ((s.quad a).calibrate.after (s.power.quadMean a : Nat) ((s.quad a).calibrate.horizon * 1000))).2 = { s with free := n } := by
    rw [hsecond, hfirst]
  refine ⟨n, (s.quarter (s.quad a).calibrate.tref).1, ((s.quarter (s.quad a).calibrate.tref).2.quarter
    ((s.quad a).calibrate.after (s.power.quadMean a : Nat) ((s.quad a).calibrate.horizon * 1000))).1, ?_⟩
  unfold State.evalQuad
  dsimp only
  rw [hfree]

/-- What the model of a quadrant looks at. -/
def State.thermView (q : Nat) (s : State) : Quad × Nat × List PwrSample := (s.quad q, s.power.op, s.power.hist)

theorem State.evalQuad_keeps (s : State) (a : Nat) : (s.evalQuad a).power.op = s.power.op ∧ (s.evalQuad a).power.hist = s.power.hist ∧
    (s.evalQuad a).slices = s.slices ∧ (s.evalQuad a).pending = s.pending ∧ (s.evalQuad a).chip = s.chip := by
  obtain ⟨_, _, _, heq⟩ := s.evalQuad_eq a
  rw [heq]
  exact ⟨rfl, rfl, rfl, rfl, rfl⟩

theorem State.evalQuad_quad_ne (s : State) {a : Nat} (h : a ≠ q) : (s.evalQuad a).quad q = s.quad q := by
  obtain ⟨_, _, _, heq⟩ := s.evalQuad_eq a
  rw [heq, State.quad_modQuad_ne _ _ h]
  rfl

theorem State.thermView_evalQuad (s : State) {a : Nat} (h : a ≠ q) : (s.evalQuad a).thermView q = s.thermView q := by
  obtain ⟨hop, hhist, -, -, -⟩ := s.evalQuad_keeps a
  simp only [State.thermView, State.evalQuad_quad_ne s h, hop, hhist]

theorem Power.quadMean_congr {p p' : Power} (h : p'.hist = p.hist) (q : Nat) : p'.quadMean q = p.quadMean q := by
  simp only [Power.quadMean, Power.mean, h]

/-- The model of each quadrant present has taken its step. -/
theorem State.evalQuads_quad (s : State) (hq : q < s.chip.model.quads) : ∃ trefQ pred, (s.quadList.foldl State.evalQuad s).quad q =
    { (s.quad q).calibrate with
      trefQ := trefQ, pred := pred, t1 := some ((s.quad q).calibrate.after (s.power.quadMean q : Nat) 100),
      target := (s.quad q).calibrate.thermal s.power.op (s.power.quadMean q) } := by
  obtain ⟨t, hview, hfold⟩ := foldl_range_at (State.thermView q) (f := State.evalQuad) (fun t _ ha => t.thermView_evalQuad ha) hq s
  obtain ⟨hquad, hop, hhist⟩ : _ ∧ _ ∧ _ := by simpa only [State.thermView, Prod.mk.injEq] using hview
  obtain ⟨_, trefQ, pred, heq⟩ := t.evalQuad_eq q
  refine ⟨trefQ, pred, (congrArg Prod.fst hfold).trans ?_⟩
  have hmean := Power.quadMean_congr hhist q
  simp only [State.thermView, heq, State.quad_modQuad _ _ (hq.trans_le (Model.quads_le _)), hquad, hop, hmean]

/-! ### The emulsion's limit (R517) -/

theorem State.hotColumns_isEmpty (s : State) :
    (!s.hotColumns.isEmpty) = (List.range 32).any fun c => decide (2 ≤ (s.col c).thermal) := by
  rw [Bool.eq_iff_iff]
  simp [State.hotColumns, Nat.succ_le_iff]

theorem State.setEmulLimit_logged (s : State) (n : Nat) (since cool : Option Nat) :
    State.Logged { s with power := { s.power with emulLimit := n, emulHotNs := since, emulCoolNs := cool } }
      (s.setEmulLimit n since cool) :=
  .ite (.refl _) ((State.Logged.refl _).logPower ..)

theorem State.msSince_eq (s : State) (since : Option Nat) : s.msSince since = since.any fun t => decide (t + 1000000 ≤ s.now) := by
  cases since <;> rfl

theorem act_emulLimit {n : Nat} {since cool : Option Nat} (hl : s.live = true) (hstep : s.emulStep = s.setEmulLimit n since cool) :
    ∃ t, exec .emulLimitStep s = .next t ∧ t.power.emulLimit = n ∧ t.power.emulHotNs = since ∧ t.power.emulCoolNs = cool ∧
      t.power.op = s.power.op ∧ t.slices = s.slices := by
  have hlog := s.setEmulLimit_logged n since cool
  refine ⟨_, act_eq hl hstep hlog.pending hlog.chip, ?_, ?_, ?_, ?_, hlog.slices⟩ <;> rw [hlog.power]

section emulStep
variable (hhot : (!s.hotColumns.isEmpty) = true)
include hhot

theorem State.emulStep_falls (hset : s.power.emulHotNs = none) (hold : ((List.range 32).any fun c => s.msSince (s.col c).hotNs) = true) :
    s.emulStep = s.setEmulLimit (s.power.op - 1) (some s.now) none := by
  have hunset : ¬(s.power.emulHotNs.isSome = true) := by simp [hset]
  exact (if_pos hhot).trans ((if_neg hunset).trans (if_pos hold))

theorem State.emulStep_fallsAgain (hset : s.power.emulHotNs.isSome = true) (hold : s.msSince s.power.emulHotNs = true) :
    s.emulStep = s.setEmulLimit (s.power.emulLimit - 1) (some s.now) none :=
  (if_pos hhot).trans ((if_pos hset).trans (if_pos hold))

theorem State.emulStep_hotWaits (hwait : (if s.power.emulHotNs.isSome then s.msSince s.power.emulHotNs
    else (List.range 32).any fun c => s.msSince (s.col c).hotNs) = false) : s.emulStep = s := by
  unfold State.emulStep
  dsimp only
  rw [if_pos hhot]
  split
  case isTrue hset => rw [if_pos hset] at hwait; exact if_neg (by simp [hwait])
  case isFalse hset => rw [if_neg hset] at hwait; exact if_neg (by simp [hwait])

end emulStep

section emulStepCool
variable (hcool : (!s.hotColumns.isEmpty) = false)
include hcool

theorem State.emulStep_lifts (hdue : (s.power.emulHotNs.isSome && s.msSince s.power.emulCoolNs) = true) : s.emulStep =
    if 3 ≤ s.power.emulLimit then s.setEmulLimit 4 none none
    else s.setEmulLimit (s.power.emulLimit + 1) s.power.emulHotNs (some s.now) :=
  (if_neg (Bool.eq_false_iff.1 hcool)).trans (if_pos hdue)

theorem State.emulStep_coolWaits (hwait : (s.power.emulHotNs.isSome && s.msSince s.power.emulCoolNs) = false) : s.emulStep = s :=
  (if_neg (Bool.eq_false_iff.1 hcool)).trans (if_neg (Bool.eq_false_iff.1 hwait))

end emulStepCool

/-! ### The obligation -/

/-- A telemetry sample in the window that runs (R502, R504). -/
theorem State.sample_eq (hopen : s.start.phase ≠ .ready ∨ s.now < s.power.windowEnd) (quads : List Nat) (hub emul : Nat) :
    s.sample quads hub emul =
      let x : PwrSample := ⟨s.quadList.map fun q => (quads[q]?).getD 0, hub, emul⟩
      { s with power := { s.power with
        hist := (s.power.hist ++ [x]).drop (s.power.hist.length + 1 - 100)
        energy := if s.start.phase = .ready then s.power.energy + x.block else s.power.energy
        samples := if s.start.phase = .ready then s.power.samples + 1 else s.power.samples } } := by
  unfold State.sample
  simp only [State.windowsDue_waits hopen, List.length_append, List.length_singleton, beq_iff_eq]

theorem capWindow_closes (hl : s.live = true) (hdue : s.start.phase = .ready ∧ s.power.windowEnd ≤ s.now) :
    exec .capWindowClose s = .next s.closeWindow :=
  act_eq hl (if_pos hdue) s.closeWindow_logged.pending s.closeWindow_logged.chip

theorem sensors_sampled (s : State) (hl : s.live = true) (temps : List (BitVec 10)) (hub : BitVec 10) (q : Fin 4) :
    ∃ t, exec (.logicSensorSample temps hub) s = .next t ∧ t.power.hubTemp = hub.toInt ∧ t.power.op = s.power.op ∧
      (s.chip.model.quads ≤ q.val → t.quad q.val = s.quad q.val) ∧
      (q.val < s.chip.model.quads → t.quad q.val = { s.quad q.val with tm := hottest4 temps q.val } ∧
        t.power.qhalt.getLsbD q.val = (if s.power.qhalt.getLsbD q.val then !decide (hottest4 temps q.val < (s.quad q.val).limit)
          else decide (s.power.op = 0 ∧ ((s.quad q.val).limit : Int) + 40 ≤ hottest4 temps q.val))) := by
  obtain ⟨hquads, hop, hhub, hpending, hchip⟩ := s.sense_keeps temps hub
  have hquad := State.quad_congr hquads q.val
  exact ⟨_, act_eq hl rfl hpending hchip, hhub, hop, fun hpast => hquad.trans (s.measured_absent temps hpast),
    fun hq => ⟨hquad.trans (s.measured_quad temps hq), (s.sense_qhalt temps hub hq).trans (s.sensed_haltsNow temps hub hq)⟩⟩

theorem powerMeasurement_holds : powerMeasurement := by
  unfold powerMeasurement
  intro s quads hub emul temps hubT q hl p x sum len
  refine ⟨fun hstop => act_eq hl (if_neg (Bool.eq_false_iff.1 hstop)) rfl rfl,
    fun hrun hopen => act_eq hl ((if_pos hrun).trans (State.sample_eq hopen _ _ _)) rfl rfl,
    fun hopen => act_eq hl (if_neg fun hdue => ?_) rfl rfl, fun hready hend => ?_, sensors_sampled s hl temps hubT q⟩
  · rcases hopen with hne | hlt
    · exact hne hdue.1
    · exact absurd hdue.2 (Nat.not_le.2 hlt)
  · refine ⟨_, capWindow_closes hl ⟨hready, hend⟩, ?_⟩
    have hpower := s.closeWindow_logged.power
    rw [hpower]
    refine ⟨rfl, rfl, rfl, rfl, rfl, rfl, rfl, rfl, fun hover => ⟨?_, if_pos hover⟩, fun hwithin => ?_⟩
    · rw [State.closeWindow_over hover]; exact State.irqSet_status _ (by decide)
    · rw [State.closeWindow_within hwithin]; exact ⟨rfl, rfl, if_neg (Bool.eq_false_iff.1 hwithin)⟩

theorem thermalSteps_holds : thermalSteps := by
  unfold thermalSteps
  intro s q k hl p go limit old hot anyOld
  have hhots : (!s.hotColumns.isEmpty) = hot := s.hotColumns_isEmpty
  have hold : ∀ since, s.msSince since = old since := s.msSince_eq
  have hany : ((List.range 32).any fun c => s.msSince (s.col c).hotNs) = anyOld := by simp only [hold]; rfl
  rw [← hhots, ← hany, ← hold, ← hold]
  refine ⟨fun hno => act_eq hl (if_neg (Bool.eq_false_iff.1 hno)) rfl rfl, fun hgo => ?_,
    fun hhot hset hdue => act_emulLimit hl (State.emulStep_falls hhot hset hdue),
    fun hhot hset hdue => act_emulLimit hl (State.emulStep_fallsAgain hhot hset hdue),
    fun hhot hwait => act_eq hl (State.emulStep_hotWaits hhot hwait) rfl rfl,
    fun hcool hset hdue hlast =>
      act_emulLimit hl ((State.emulStep_lifts hcool (Bool.and_eq_true_iff.2 ⟨hset, hdue⟩)).trans (if_pos hlast)),
    fun hcool hset hdue hmore =>
      act_emulLimit hl ((State.emulStep_lifts hcool (Bool.and_eq_true_iff.2 ⟨hset, hdue⟩)).trans (if_neg (Nat.not_le.2 hmore))),
    fun hcool hwait => act_eq hl (State.emulStep_coolWaits hcool ?_) rfl rfl,
    fun hbusy => act_eq hl (if_pos hbusy) rfl rfl,
    fun hidle => act_eq hl (if_neg (Bool.eq_false_iff.1 hidle)) rfl rfl⟩
  · refine ⟨_, act_eq hl (if_pos hgo) (foldl_field State.pending (fun t a => (t.evalQuad_keeps a).2.2.2.1) _ s)
      (foldl_field State.chip (fun t a => (t.evalQuad_keeps a).2.2.2.2) _ s),
      foldl_field (fun t : State => t.power.op) (fun t a => (t.evalQuad_keeps a).1) _ s,
      foldl_field State.slices (fun t a => (t.evalQuad_keeps a).2.2.1) _ s, fun hq => ?_⟩
    obtain ⟨trefQ, pred, hquad⟩ := s.evalQuads_quad hq
    dsimp only
    rw [hquad]
    exact ⟨rfl, rfl, rfl, rfl⟩
  · rcases hwait with hnone | hyoung
    · rw [hnone]; rfl
    · rw [hyoung, Bool.and_false]

/-- Settles O41. -/
theorem powerAndHeat : Obligations.PowerAndHeat := ⟨powerMeasurement_holds, thermalSteps_holds⟩

end Sys2Proof.Machine
end

section
/-! SUPPORT. The mailbox command SET_SETTING (R450, R458, R460, R495). -/

namespace Sys2Proof.Machine
variable {s t u : State} {ch : Channel} {m : Cmd} {id : Nat} {v : W64} {retries : Nat}

/-! ### A value in force -/

theorem State.putSetting_find_ne (s : State) (v : W64) {j : Nat} (h : j ≠ id) :
    (s.putSetting id v).settings.find? (·.1 == j) = s.settings.find? (·.1 == j) := by
  simp only [State.putSetting]
  induction s.settings with
  | nil => rfl
  | cons p l ih =>
    by_cases hp : p.1 = id
    · have hnew : ((id, v).1 == j) = false := beq_false_of_ne h.symm
      have hold : (p.1 == j) = false := beq_false_of_ne (hp ▸ h.symm)
      simp only [List.map_cons, if_pos hp, List.find?_cons, hnew, hold, ih]
    · simp only [List.map_cons, if_neg hp, List.find?_cons, ih]

theorem State.putSetting_find_same (s : State) (v : W64) (h : s.settings.any (·.1 == id) = true) :
    (s.putSetting id v).settings.find? (·.1 == id) = some (id, v) := by
  simp only [State.putSetting]
  generalize s.settings = l at h ⊢
  induction l with
  | nil => cases h
  | cons p l ih =>
    by_cases hp : p.1 = id
    · simp [hp]
    · have hother : (p.1 == id) = false := beq_false_of_ne hp
      simp only [List.any_cons, hother, Bool.false_or] at h
      simp only [List.map_cons, if_neg hp, List.find?_cons, hother, ih h]

/-- A value in force, with the draw of the time from which it governs where that is not given. -/
def State.inForce (t : State) (id : Nat) (v : W64) : State := (t.effective id).2.applySetting id v

theorem State.effective_free (t : State) (id : Nat) : ∃ n, (t.effective id).2 = { t with free := n } := by
  unfold State.effective
  split
  · exact ⟨t.free, rfl⟩
  · split
    · exact ⟨t.free, rfl⟩
    · split
      · exact ⟨t.free + 1, rfl⟩
      · exact ⟨t.free, rfl⟩

theorem State.applySetting_eq (t : State) (id : Nat) (v : W64) :
    ∃ tick power, t.applySetting id v = { t.putSetting id v with tick := tick, power := power } := by
  unfold State.applySetting
  dsimp only
  repeat' split
  all_goals exact ⟨_, _, rfl⟩

theorem State.inForce_eq (t : State) (id : Nat) (v : W64) :
    ∃ tick power n, t.inForce id v = { t.putSetting id v with tick := tick, power := power, free := n } := by
  obtain ⟨n, hfree⟩ := t.effective_free id
  obtain ⟨tick, power, happly⟩ := State.applySetting_eq { t with free := n } id v
  exact ⟨tick, power, n, by rw [State.inForce, hfree, happly]; rfl⟩

/-! ### The settings store (R493, R495) -/

/-- `u` is `s` after values were stored. -/
def State.StoresWritten (s u : State) : Prop := ∃ stored, State.SectorsWritten { s with stored := stored } u

theorem State.StoresWritten.refl (s : State) : s.StoresWritten s := ⟨s.stored, .refl s⟩

theorem State.SectorsWritten.putStored (h : s.SectorsWritten t) (id : Nat) (v : W64) : s.StoresWritten (t.putStored id v) := by
  obtain ⟨ss, sheet, ext, bits, rfl⟩ := h
  exact ⟨(s.putStored id v).stored, ss, sheet, ext, bits, rfl⟩

theorem State.putStored_storedOf (t : State) (id : Nat) (v : W64) : (t.putStored id v).storedOf id = some v := by
  simp [State.storedOf, State.putStored]

/-- The sector that a setting's record goes to (R456). -/
def State.recordSector (s : State) (id : Nat) : Nat := if id = 0x0801 then 897 else s.ss.areaSector

section persisted
variable {f : State → Ends × State}

theorem State.storing_untried (hstate : s.fw.state ≠ .committed) : s.storing true retries [(id, v)] f = (.no 14 0 0, s) := by
  simp [State.storing, State.storeBlocked, checks, hstate]

variable (hstate : s.fw.state = .committed)
include hstate

theorem State.storing_warned (hwarn : s.pins.supplyWarn = true) : s.storing true retries [(id, v)] f = (.no 19 0 0, s) := by
  simp [State.storing, State.storeBlocked, checks, hstate, hwarn]

variable (hwarn : s.pins.supplyWarn = false)
include hwarn

theorem State.storing_writes (hwrite : retries ≤ 8) :
    s.storing true retries [(id, v)] f = f ((s.sectorWrite (s.recordSector id) retries).putStored id v) := by
  have hok : writeFails retries = false := decide_eq_false (Nat.not_lt.2 hwrite)
  simp [State.storing, State.storeBlocked, checks, hstate, hwarn, State.persistAll, State.persist, hok, State.recordSector]

theorem State.storing_fails (hfail : 8 < retries) : s.storing true retries [(id, v)] f =
    (.no 5 (s.recordSector id) 0, s.sectorWrite (s.recordSector id) retries) := by
  have hbad : writeFails retries = true := decide_eq_true hfail
  simp [State.storing, State.storeBlocked, checks, hstate, hwarn, State.persistAll, State.persist, hbad, State.recordSector]

end persisted

/-! ### The checks -/

section fields
variable (hflag : m.f 18 1 ≤ 1)
include hflag

theorem State.setFields_missing (hinfo : settingInfo s.chip.model (m.f 16 2) = none) :
    s.setFields m = some (.no 6 (m.f 16 2) 0) := by
  have hbits : ¬2 ≤ m.f 18 1 := by omega
  simp [State.setFields, hinfo, checks, extraBits, hbits]

variable {i : SettingInfo} (hinfo : settingInfo s.chip.model (m.f 16 2) = some i)
include hinfo

theorem State.setFields_outside (hrange : i.inRange (BitVec.ofNat 64 (m.f 24 8)) = false) : s.setFields m = some (.bad 24) := by
  have hbits : ¬2 ≤ m.f 18 1 := by omega
  simp [State.setFields, hinfo, checks, extraBits, hbits, hrange]

theorem State.setFields_passes (hrange : i.inRange (BitVec.ofNat 64 (m.f 24 8)) = true) : s.setFields m = none := by
  have hbits : ¬2 ≤ m.f 18 1 := by omega
  simp [State.setFields, hinfo, checks, extraBits, hbits, hrange]

end fields

/-- The value in force before a command. -/
def State.oldOf (s : State) (id : Nat) : W64 := ((s.settings.find? (·.1 == id)).map (·.2)).getD 0

/-- SET_SETTING once nothing forbids the value: it is in force. -/
def Cmd.setsIn (m : Cmd) (old : W64) (t : State) : Ends × State :=
  (⟨0, 0, 0, leBytes 8 old.toNat ++ (leBytes 8 (BitVec.ofNat 64 (m.f 24 8)).toNat ++ leBytes 8 (t.effective (m.f 16 2)).1)⟩,
    t.inForce (m.f 16 2) (BitVec.ofNat 64 (m.f 24 8)))

section setSetting
variable (hflag : m.f 18 1 ≤ 1)
include hflag

theorem State.setSetting_refused (h : s.settingRefused (m.f 16 2) (BitVec.ofNat 64 (m.f 24 8)).toNat (m.f 18 1 == 1) = true) :
    s.setSetting m retries = (.no 5 (m.f 16 2) 0, s) :=
  if_pos (by rw [testBit_zero_of_le_one hflag]; exact h)

variable (hmay : s.settingRefused (m.f 16 2) (BitVec.ofNat 64 (m.f 24 8)).toNat (m.f 18 1 == 1) = false)
include hmay

theorem State.setSetting_combo {a b : Nat} (h : s.comboBad (m.f 16 2) (BitVec.ofNat 64 (m.f 24 8)).toNat (some m.chan) = some (a, b)) :
    s.setSetting m retries = (.no 11 a b, s) :=
  (if_neg (by rw [testBit_zero_of_le_one hflag]; exact Bool.eq_false_iff.1 hmay)).trans (by rw [h])

theorem State.setSetting_stores (h : s.comboBad (m.f 16 2) (BitVec.ofNat 64 (m.f 24 8)).toNat (some m.chan) = none) :
    s.setSetting m retries = s.storing (m.f 18 1 == 1) retries [(m.f 16 2, BitVec.ofNat 64 (m.f 24 8))]
      (m.setsIn (s.oldOf (m.f 16 2))) := by
  have hbit : (m.f 18 1).testBit 0 = (m.f 18 1 == 1) := testBit_zero_of_le_one hflag
  unfold State.setSetting
  simp only [hbit, hmay, h, Bool.false_eq_true, if_false, List.append_assoc]
  rfl

end setSetting

/-! ### The completion -/

/-- The first result of a completion stands at offset 24 (R431). -/
theorem ended_result (s : State) (ch : Channel) (m : Cmd) (status a b : Nat) {x : Nat} (hx : x < 256 ^ 8) (rest : List Byte) :
    ((ended s ch m status a b (leBytes 8 x ++ rest)).chan ch.val).cpls.getLast?.map (fun e => fieldOf e 24 8) = some x := by
  have hend : ((ended s ch m status a b (leBytes 8 x ++ rest)).chan ch.val).cpls =
      (s.chan ch.val).cpls ++ [leBytes 8 s.now ++ (cplMsg (m.f 4 4) m.code status 0 a b (leBytes 8 x ++ rest)).drop 8] := by
    rw [ended, posted_chan, State.chan_modChan _ _ _ ch.isLt]; rfl
  have hres : (leBytes 8 x ++ rest ++ List.replicate 40 0).take 40 = leBytes 8 x ++ (rest ++ List.replicate 40 0).take 32 := by
    rw [List.append_assoc, List.take_append, List.take_of_length_le (by simp [length_leBytes]), length_leBytes]
  have hfield := fieldOf_leBytes (n := 8) (v := x) (r := (rest ++ List.replicate 40 0).take 32) (off := 24)
    (l := leBytes 8 s.now ++ leBytes 4 (m.f 4 4) ++ leBytes 2 m.code ++ leBytes 2 status ++ leBytes 1 0 ++ leBytes 1 0 ++ leBytes 2 a ++
      leBytes 4 b) (by simp [length_leBytes]) hx
  rw [hend, List.getLast?_concat, cplMsg_drop, cplRest, hres, Option.map_some, Option.some_inj]
  simpa only [List.append_assoc] using hfield

/-! ### The obligation -/

section exec
variable (h : Serves s ch m 0x0B) (hclean : clean m [(16, 2), (18, 1), (24, 8)] = true) (r : BitVec 4)
include h hclean

theorem exec_setSetting_ends {status a b : Nat} (hfields : s.setFields m = none)
    (hset : s.setSetting m r.toNat = (.no status a b, t)) (hwritten : s.SectorsWritten t) :
    exec (.setSetting ch r) s = .next (ended t ch m status a b []) :=
  h.act_runs (n := s.setNeed) hclean hfields rfl hset hwritten.mbox hwritten.pending hwritten.chip

/-- What a SET_SETTING that is taken leaves: the value in force and its completion; the rest of the settings as they were. -/
theorem exec_setSetting_works (hfields : s.setFields m = none)
    (hset : s.setSetting m r.toNat = m.setsIn (s.oldOf (m.f 16 2)) u) (hu : s.StoresWritten u) :
    ∃ t, exec (.setSetting ch r) s = .next t ∧ completed t ch m 0 = true ∧ t.slices = s.slices ∧ t.kv = s.kv ∧
      (∀ j, j ≠ m.f 16 2 → t.setting j = s.setting j) ∧
      (s.settings.any (·.1 == m.f 16 2) = true → t.setting (m.f 16 2) = (BitVec.ofNat 64 (m.f 24 8)).toNat) ∧
      (t.chan ch.val).cpls.getLast?.map (fun e => fieldOf e 24 8) = some (s.oldOf (m.f 16 2)).toNat ∧
      t.storedOf (m.f 16 2) = u.storedOf (m.f 16 2) := by
  obtain ⟨stored, hu⟩ := hu
  obtain ⟨tick, power, n, hforce⟩ := u.inForce_eq (m.f 16 2) (BitVec.ofNat 64 (m.f 24 8))
  have hmbox : (u.inForce (m.f 16 2) (BitVec.ofNat 64 (m.f 24 8))).mbox = s.mbox := by rw [hforce]; exact hu.mbox
  have hpending : (u.inForce (m.f 16 2) (BitVec.ofNat 64 (m.f 24 8))).pending = s.pending := by rw [hforce]; exact hu.pending
  have hchip : (u.inForce (m.f 16 2) (BitVec.ofNat 64 (m.f 24 8))).chip = s.chip := by rw [hforce]; exact hu.chip
  have hexec : exec (.setSetting ch r) s = _ := h.act_runs (n := s.setNeed) hclean hfields rfl hset hmbox hpending hchip
  have hsettings : (u.inForce (m.f 16 2) (BitVec.ofNat 64 (m.f 24 8))).settings =
      (s.putSetting (m.f 16 2) (BitVec.ofNat 64 (m.f 24 8))).settings := by
    rw [hforce]
    exact congrArg (List.map fun p : Nat × W64 => if p.1 = m.f 16 2 then (m.f 16 2, BitVec.ofNat 64 (m.f 24 8)) else p) hu.settings
  refine ⟨_, hexec, completed_ended _ ch m (by decide) 0 0 _, ?_, ?_, fun j hj => ?_, fun hany => ?_,
    ended_result _ ch m 0 0 0 (by exact (s.oldOf (m.f 16 2)).isLt) _, ?_⟩
  · rw [hforce]; exact hu.slices
  · rw [hforce]; exact hu.kv
  · have hfind := State.putSetting_find_ne s (BitVec.ofNat 64 (m.f 24 8)) hj
    rw [← hsettings] at hfind
    exact congrArg (fun p => (p.map fun p : Nat × W64 => p.2.toNat).getD 0) hfind
  · have hfind := State.putSetting_find_same s (BitVec.ofNat 64 (m.f 24 8)) hany
    rw [← hsettings] at hfind
    exact congrArg (fun p => (p.map fun p : Nat × W64 => p.2.toNat).getD 0) hfind
  · rw [hforce]; rfl

end exec

/-- Settles O50: SET_SETTING passes its checks or fails the first one; then it stores where it is asked to, and puts the value in force. -/
theorem settingsChange : Obligations.SettingsChange := by
  unfold Obligations.SettingsChange
  intro s ch r m i hserving hclean hflag c id v info per old may works
  have h := Serves.of_serving hserving
  have hstores (hmay : may = true) : s.setSetting m r.toNat = s.storing per r.toNat [(id, v)] (m.setsIn (s.oldOf id)) := by
    obtain ⟨hok, hcombo⟩ : s.settingRefused id v.toNat per = false ∧ s.comboBad id v.toNat (some ch.val) = none := by
      simpa [may] using hmay
    exact State.setSetting_stores hflag hok (by rw [h.chan]; exact hcombo)
  refine ⟨fun hinfo => h.act_stops (n := s.setNeed) hclean (State.setFields_missing hflag hinfo) _,
    fun hinfo hrange => h.act_stops (n := s.setNeed) hclean (State.setFields_outside hflag hinfo hrange) _,
    fun hinfo hrange hrefused => exec_setSetting_ends h hclean r (State.setFields_passes hflag hinfo hrange)
      (State.setSetting_refused hflag hrefused) (.refl s),
    fun a b hinfo hrange hok hcombo => exec_setSetting_ends h hclean r (State.setFields_passes hflag hinfo hrange)
      (State.setSetting_combo hflag hok (by rw [h.chan]; exact hcombo)) (.refl s),
    fun hinfo hrange hmay hper => ?_, fun hinfo hrange hmay hper hstate => ?_, fun hinfo hrange hmay hper hstate => ⟨?_, ?_, ?_⟩⟩ <;>
    have hfields := State.setFields_passes hflag hinfo hrange <;> have hset := hstores hmay <;> rw [hper] at hset
  · simp only [works, hper, Bool.false_eq_true, if_false]
    exact exec_setSetting_works h hclean r hfields hset (.refl s)
  · exact exec_setSetting_ends h hclean r hfields (hset.trans (State.storing_untried hstate)) (.refl s)
  · exact fun hwarn => exec_setSetting_ends h hclean r hfields (hset.trans (State.storing_warned hstate hwarn)) (.refl s)
  · intro hwarn hwrite
    have hworks := exec_setSetting_works h hclean r hfields (hset.trans (State.storing_writes hstate hwarn hwrite))
      ((State.SectorsWritten.sectorWrite s _ r.toNat).putStored id v)
    rw [State.putStored_storedOf] at hworks
    simp only [works, hper, if_true]
    exact hworks
  · intro hwarn hfail
    have hwritten := State.SectorsWritten.sectorWrite s (s.recordSector id) r.toNat
    exact ⟨_, exec_setSetting_ends h hclean r hfields (hset.trans (State.storing_fails hstate hwarn hfail)) hwritten,
      completed_ended _ ch m (by decide) _ _ _, hwritten.settings, hwritten.stored⟩

end Sys2Proof.Machine
end

section
/-! SUPPORT. The mailbox command FW_STAGE (R453, R486). -/

namespace Sys2Proof.Machine
variable {s t : State} {ch : Channel} {m : Cmd} {retries : Nat}

theorem State.Logged.fw (h : s.Logged t) : t.fw = s.fw := by obtain ⟨_, _, _, rfl⟩ := h; rfl

/-! ### Slots -/

theorem Firmware.slotOf_setSlot (x : Firmware) (n : Nat) (y : FwSlot) : (x.setSlot n y).slotOf n = y := by
  by_cases h : n = 1 <;> simp [Firmware.setSlot, Firmware.slotOf, h]

theorem Firmware.slotOf_setSlot_other (x : Firmware) {n k : Nat} (y : FwSlot) (h : n = 1 ↔ k ≠ 1) :
    (x.setSlot n y).slotOf k = x.slotOf k := by
  by_cases hn : n = 1
  · simp [Firmware.setSlot, Firmware.slotOf, hn, h.1 hn]
  · have hk : k = 1 := not_not.1 fun hk => hn (h.2 hk)
    simp [Firmware.setSlot, Firmware.slotOf, hn, hk]

theorem Firmware.setSlot_keeps (x : Firmware) (n : Nat) (y : FwSlot) :
    (x.setSlot n y).slot = x.slot ∧ (x.setSlot n y).boot = x.boot := by
  unfold Firmware.setSlot
  split <;> exact ⟨rfl, rfl⟩

/-- A slot that holds nothing. -/
def FwSlot.empty : FwSlot := ⟨0, [], false, false⟩

/-! ### What a command that writes the store needs (R421, R432) -/

theorem State.storeBlocked_untried (h : s.fw.state ≠ .committed) : s.storeBlocked = some (.no 14 0 0) := by
  simp [State.storeBlocked, checks, h]

theorem State.storeBlocked_warned (h : s.fw.state = .committed) (hwarn : s.pins.supplyWarn = true) :
    s.storeBlocked = some (.no 19 0 0) := by
  simp [State.storeBlocked, checks, h, hwarn]

theorem State.storeBlocked_open (h : s.fw.state = .committed) (hwarn : s.pins.supplyWarn = false) : s.storeBlocked = none := by
  simp [State.storeBlocked, checks, h, hwarn]

/-! ### The fields -/

/-- FIRST, and LAST. -/
def Cmd.isFirst (m : Cmd) : Bool := m.f 20 1 % 2 == 1
def Cmd.isLast (m : Cmd) : Bool := m.f 20 1 / 2 == 1

theorem Cmd.first_bit (m : Cmd) : (m.f 20 1).testBit 0 = m.isFirst := by
  rw [Cmd.isFirst, Nat.testBit_zero, ← beq_eq_decide]

theorem Cmd.last_bit (hflags : m.f 20 1 ≤ 3) : (m.f 20 1).testBit 1 = m.isLast := by
  unfold Cmd.isLast
  generalize m.f 20 1 = n at hflags ⊢
  interval_cases n <;> rfl

/-- A chunk goes on where the staged bytes end, or begins. -/
def State.goodOffset (s : State) (m : Cmd) : Bool :=
  decide (m.f 16 4 % 4096 = 0) && (if m.isFirst then m.f 16 4 == 0
    else !(s.fw.slotOf s.otherSlot).bootable && m.f 16 4 == (s.fw.slotOf s.otherSlot).staged)

/-- A chunk fits in its slot. -/
def Cmd.chunkFits (m : Cmd) : Bool := decide (1 ≤ m.f 32 4 ∧ m.f 32 4 ≤ 262144 ∧ m.f 16 4 + m.f 32 4 ≤ 1835008)

section fields
variable (hflags : m.f 20 1 ≤ 3) (hbuf : bufBad m 24 (m.f 32 4) = false)
include hflags hbuf

theorem State.stageFields_eq : s.stageFields m = checks [(!s.goodOffset m, .bad 16), (!m.chunkFits, .bad 32)] := by
  have hbits : (extraBits m 20 1 2).1 = false := decide_eq_false (by omega)
  have hoff : (m.f 16 4 % 4096 != 0 || (m.isFirst && m.f 16 4 != 0) ||
      (!m.isFirst && ((s.fw.slotOf s.otherSlot).bootable || m.f 16 4 != (s.fw.slotOf s.otherSlot).staged))) = !s.goodOffset m := by
    unfold State.goodOffset
    cases m.isFirst <;> simp [bne, Bool.not_and, beq_eq_decide]
  have hlen : decide (m.f 32 4 < 1 ∨ 262144 < m.f 32 4 ∨ 1835008 < m.f 16 4 + m.f 32 4) = !m.chunkFits := by
    rw [Cmd.chunkFits, ← decide_not, decide_eq_decide]
    omega
  unfold State.stageFields
  simp only [m.first_bit, hoff, hlen, checks, hbits, hbuf, Bool.false_eq_true, if_false]

theorem State.stageFields_badOffset (hgood : s.goodOffset m = false) : s.stageFields m = some (.bad 16) := by
  rw [State.stageFields_eq hflags hbuf, hgood]; rfl

theorem State.stageFields_badLength (hgood : s.goodOffset m = true) (hfits : m.chunkFits = false) :
    s.stageFields m = some (.bad 32) := by
  rw [State.stageFields_eq hflags hbuf, hgood, hfits]; rfl

theorem State.stageFields_passes (hgood : s.goodOffset m = true) (hfits : m.chunkFits = true) : s.stageFields m = none := by
  rw [State.stageFields_eq hflags hbuf, hgood, hfits]; rfl

end fields

/-! ### The chunk -/

theorem State.chunkWrites_written (s : State) (slot off len retries : Nat) :
    s.SectorsWritten (s.chunkWrites slot off len retries) :=
  .foldl (fun _ _ => .sectorWrite ..) _ s

/-- The slot that a chunk goes to, with the chunk. -/
def State.stagedSlot (s : State) (m : Cmd) : FwSlot :=
  let x := if m.isFirst then FwSlot.empty else s.fw.slotOf s.otherSlot
  { x with staged := x.staged + m.f 32 4, image := x.image ++ s.imageOf m }

theorem State.stagedSlot_eq (s : State) (m : Cmd) : s.stagedSlot m =
    ⟨(if m.isFirst then 0 else (s.fw.slotOf s.otherSlot).staged) + m.f 32 4,
      (if m.isFirst then [] else (s.fw.slotOf s.otherSlot).image) ++ s.imageOf m,
      if m.isFirst then false else (s.fw.slotOf s.otherSlot).verified,
      if m.isFirst then false else (s.fw.slotOf s.otherSlot).factory⟩ := by
  unfold State.stagedSlot
  cases m.isFirst <;> rfl

/-- The block once a chunk has been written to the store, with what its slot then holds. -/
def State.chunked (s : State) (m : Cmd) (retries : Nat) (x : FwSlot) : State :=
  (s.chunkWrites s.otherSlot (m.f 16 4) (m.f 32 4) retries).setSlot s.otherSlot x

section stage
variable (hflags : m.f 20 1 ≤ 3)

theorem State.stage_blocked {e : Ends} (h : s.storeBlocked = some e) : s.stage m retries = (e, s) := by simp only [State.stage, h]

variable (hopen : s.storeBlocked = none)
include hopen

theorem State.stage_fails (hfail : 8 < retries) : s.stage m retries =
    (.no 5 ((s.otherSlot - 1) * 448 + m.f 16 4 / 4096) 0, s.chunked m retries .empty) := by
  simp only [State.stage, hopen, show writeFails retries = true from decide_eq_true hfail, if_true]
  rfl

variable (hwrite : retries ≤ 8)
include hwrite hflags

theorem State.stage_goes (hlast : m.isLast = false) :
    s.stage m retries = (⟨0, 0, 0, leBytes 4 (s.stagedSlot m).staged⟩, s.chunked m retries (s.stagedSlot m)) := by
  have hok : writeFails retries = false := decide_eq_false (Nat.not_lt.2 hwrite)
  simp only [State.stage, State.chunked, State.stagedSlot, FwSlot.empty, hopen, hok, hlast, Cmd.last_bit hflags, m.first_bit,
    Bool.false_eq_true, if_false, Bool.not_false, if_true]

variable (hlast : m.isLast = true)
include hlast

theorem State.stage_rejects {e : Nat} (hcheck : s.imageCheck 1 (s.stagedSlot m).image = some e) :
    s.stage m retries = (.no 9 0 0, (s.chunked m retries .empty).logAuth (s.stagedSlot m).image e) := by
  have hok : writeFails retries = false := decide_eq_false (Nat.not_lt.2 hwrite)
  simp only [State.stagedSlot, FwSlot.empty] at hcheck
  simp only [State.stage, State.chunked, State.stagedSlot, FwSlot.empty, hopen, hok, hlast, hcheck, Cmd.last_bit hflags, m.first_bit,
    Bool.false_eq_true, if_false, Bool.not_true]

theorem State.stage_verifies (hcheck : s.imageCheck 1 (s.stagedSlot m).image = none) : ∃ res,
    s.stage m retries = (⟨0, 0, 0, res⟩, s.chunked m retries { s.stagedSlot m with verified := true }) := by
  have hok : writeFails retries = false := decide_eq_false (Nat.not_lt.2 hwrite)
  simp only [State.stagedSlot, FwSlot.empty] at hcheck
  simp only [State.stage, State.chunked, State.stagedSlot, FwSlot.empty, hopen, hok, hlast, hcheck, Cmd.last_bit hflags, m.first_bit,
    Bool.false_eq_true, if_false, Bool.not_true]
  exact ⟨_, rfl⟩

end stage

theorem State.chunked_fw (s : State) (m : Cmd) (retries : Nat) (x : FwSlot) :
    (s.chunked m retries x).fw = s.fw.setSlot s.otherSlot x :=
  congrArg (fun f : Firmware => f.setSlot s.otherSlot x) (s.chunkWrites_written ..).fw

/-- An answer of FW_STAGE once its fields pass. -/
theorem exec_fwStage {status a b : Nat} {res : List Byte} (h : Serves s ch m 0x17)
    (hclean : clean m [(16, 4), (20, 1), (24, 8), (32, 4)] = true) (r : BitVec 4) (hfields : s.stageFields m = none)
    (hstage : s.stage m r.toNat = (⟨status, a, b, res⟩, t)) (x : FwSlot) (ht : State.Logged (s.chunked m r.toNat x) t) :
    exec (.fwStage ch r) s = .next (ended t ch m status a b res) :=
  have hw := s.chunkWrites_written s.otherSlot (m.f 16 4) (m.f 32 4) r.toNat
  h.act_runs (n := s.stageNeed) hclean hfields rfl hstage (ht.mbox.trans hw.mbox) (ht.pending.trans hw.pending) (ht.chip.trans hw.chip)

theorem firmwareStages_holds : firmwareStages := by
  unfold firmwareStages
  intro s ch r m hserving hclean hflags hbuf n x off first last fits image begun good
  have h := Serves.of_serving hserving
  have hbuf' := bufBad_eq_false hbuf
  have hw := s.chunkWrites_written s.otherSlot (m.f 16 4) (m.f 32 4) r.toNat
  have hblocked {status a b : Nat} (hgood : good = true) (hfits : fits = true) (hb : s.storeBlocked = some (.no status a b)) :
      exec (.fwStage ch r) s = .next (ended s ch m status a b []) :=
    h.act_runs (n := s.stageNeed) hclean (State.stageFields_passes hflags hbuf' hgood hfits) rfl (State.stage_blocked hb) rfl rfl rfl
  refine ⟨fun hbad => h.act_stops (n := s.stageNeed) hclean (State.stageFields_badOffset hflags hbuf' hbad) _,
    fun hgood hshort => h.act_stops (n := s.stageNeed) hclean (State.stageFields_badLength hflags hbuf' hgood hshort) _,
    fun hgood hfits hstate => hblocked hgood hfits (State.storeBlocked_untried hstate),
    fun hgood hfits hstate hwarn => hblocked hgood hfits (State.storeBlocked_warned hstate hwarn),
    fun hgood hfits hstate hwarn hslot => ?_⟩
  have hfields : s.stageFields m = none := State.stageFields_passes hflags hbuf' hgood hfits
  have hopen := State.storeBlocked_open hstate hwarn
  have hof (y : FwSlot) : (s.chunked m r.toNat y).fw.slotOf n = y := by
    rw [State.chunked_fw]; exact Firmware.slotOf_setSlot ..
  have hlog (y : FwSlot) : State.Logged (s.chunked m r.toNat y) (s.chunked m r.toNat y) := .refl _
  have hstaged : s.stagedSlot m = ⟨begun, image, if first then false else x.verified, if first then false else x.factory⟩ :=
    s.stagedSlot_eq m
  have himage : (s.stagedSlot m).image = image := congrArg FwSlot.image hstaged
  refine ⟨fun hfail => ?_, fun hwrite hmore => ?_, fun hwrite hlast hcheck => ?_, fun hwrite hlast hcheck => ?_⟩
  · exact ⟨_, exec_fwStage h hclean r hfields (State.stage_fails hopen hfail) .empty (hlog _),
      completed_ended _ ch m (by decide) _ _ _, hof .empty⟩
  · have hother : s.otherSlot = 1 ↔ s.fw.slot ≠ 1 := by rcases hslot with h1 | h2 <;> simp [State.otherSlot, *]
    obtain ⟨hrun, hboot⟩ := s.fw.setSlot_keeps s.otherSlot (s.stagedSlot m)
    have hfw := s.chunked_fw m r.toNat (s.stagedSlot m)
    rw [← hfw] at hrun hboot
    exact ⟨_, exec_fwStage h hclean r hfields (State.stage_goes hflags hopen hwrite hmore) _ (hlog _),
      completed_ended _ ch m (by decide) _ _ _, (hof _).trans hstaged,
      (congrArg (Firmware.slotOf · s.fw.slot) hfw).trans (Firmware.slotOf_setSlot_other _ _ hother), hrun, hboot, hw.slices⟩
  · obtain ⟨res, hstage⟩ := State.stage_verifies hflags hopen hwrite hlast (by rw [himage]; exact hcheck)
    exact ⟨_, exec_fwStage h hclean r hfields hstage _ (hlog _), completed_ended _ ch m (by decide) _ _ _,
      congrArg FwSlot.verified (hof _), (congrArg FwSlot.image (hof _)).trans himage, hw.slices⟩
  · obtain ⟨e, hcheck⟩ := Option.ne_none_iff_exists'.1 hcheck
    have hauth : State.Logged (s.chunked m r.toNat .empty) ((s.chunked m r.toNat .empty).logAuth (s.stagedSlot m).image e) := .log ..
    exact ⟨_, exec_fwStage h hclean r hfields (State.stage_rejects hflags hopen hwrite hlast (by rw [himage]; exact hcheck)) _ hauth,
      completed_ended _ ch m (by decide) _ _ _, (congrArg (Firmware.slotOf · n) hauth.fw).trans (hof .empty),
      hauth.slices.trans hw.slices⟩

end Sys2Proof.Machine
end

section
/-! SUPPORT. The mailbox commands FW_ACTIVATE, FW_ROLLBACK and FW_COMMIT (R453, R487, R490, R491, R530). -/

namespace Sys2Proof.Machine
variable {s t : State} {ch : Channel} {m : Cmd} {code retries : Nat}

/-! ### Reboots (R487, R491) -/

theorem State.chan_modChan_ne (s : State) {c j : Nat} (f : Chan → Chan) (h : c ≠ j) : (s.modChan c f).chan j = s.chan j := by
  simp [State.modChan, State.chan, Vector.getElem?_setIfInBounds_ne h]

theorem Serves.leave (h : Serves s ch m code) (t : State) : t.leave m = t.modChan ch.val fun x => { x with running := none } := by
  rw [State.leave, h.late, h.chan]; rfl

/-- A command that left its channel was alone. -/
theorem Serves.leave_cmds (h : Serves s ch m code) (ht : t.mbox = s.mbox) (hconts : t.fw.conts = s.fw.conts) : (t.leave m).cmds = [] := by
  rw [h.leave, State.cmds, State.modChan_fw, hconts, h.conts, List.append_nil, List.filterMap_eq_nil_iff]
  intro c hc
  by_cases heq : c = ch.val
  · rw [heq, State.chan_modChan _ _ _ ch.isLt]
  · rw [State.chan_modChan_ne _ _ (Ne.symm heq), chan_congr ht]
    exact (h.others c (List.mem_range.1 hc)).resolve_left heq

/-- The block once a boot record is written and Tamosh was reset. -/
def State.rebooted (s : State) (ch : Channel) (m : Cmd) (b : BootRecord) : State :=
  { s.modChan ch.val fun x => { x with running := none } with
    fw := { s.fw with
      boot := b, running := false, owed := some m, owedKind := 0, dogUntil := some (s.now + b.watchdog * 1000000000) }
    sec := { s.sec with resync := true } }

theorem Serves.reboot (h : Serves s ch m code) (b : BootRecord) (retries : Nat) :
    ∃ u, s.SectorsWritten u ∧ s.reboot m b retries = u.rebooted ch m b := by
  obtain ⟨ss, sheet, ext, bits, hwrite⟩ := State.SectorsWritten.sectorWrite { s with fw := { s.fw with boot := b } } 896 retries
  have hcmds : ((State.sectorWrite { s with fw := { s.fw with boot := b } } 896 retries).leave m).cmds = [] :=
    h.leave_cmds (by rw [hwrite]) (by rw [hwrite])
  refine ⟨_, ⟨ss, sheet, ext, bits, rfl⟩, ?_⟩
  have hreset := State.tamoshReset_alone hcmds (some m) 0
  rw [h.leave, hwrite] at hreset
  unfold State.reboot
  dsimp only
  rw [h.leave, hwrite, hreset]
  rfl

section rebootCmd
variable (h : Serves s ch m code) {n : CmdNeed} (hclean : clean m n.defs = true) (hpre : n.pre m = none) (hlimit : n.limit m = none)
  {slot : Cmd → Nat} {record : Cmd → BootRecord}
include h hclean hpre hlimit

theorem Serves.rebootCmd_unbootable (hboot : (s.fw.slotOf (slot m)).bootable = false) :
    s.rebootCmd ch code n slot record retries = s.finish m (.no 5 (slot m) 0) := by
  simp [State.rebootCmd, h.cmdOf, h.refused hclean, hpre, hlimit, checks, hboot]

variable (hboot : (s.fw.slotOf (slot m)).bootable = true)
include hboot

theorem Serves.rebootCmd_warned (hwarn : s.pins.supplyWarn = true) :
    s.rebootCmd ch code n slot record retries = s.finish m (.no 19 0 0) := by
  simp [State.rebootCmd, h.cmdOf, h.refused hclean, hpre, hlimit, checks, hboot, State.retry, hwarn]

variable (hwarn : s.pins.supplyWarn = false)
include hwarn

theorem Serves.rebootCmd_fails (hfail : 8 < retries) :
    s.rebootCmd ch code n slot record retries = (s.sectorWrite 896 retries).finish m (.no 5 896 0) := by
  have hbad : writeFails retries = true := decide_eq_true hfail
  simp [State.rebootCmd, h.cmdOf, h.refused hclean, hpre, hlimit, checks, hboot, State.retry, hwarn, hbad]

theorem Serves.rebootCmd_reboots (hwrite : retries ≤ 8) :
    s.rebootCmd ch code n slot record retries = s.reboot m (record m) retries := by
  have hok : writeFails retries = false := decide_eq_false (Nat.not_lt.2 hwrite)
  simp [State.rebootCmd, h.cmdOf, h.refused hclean, hpre, hlimit, checks, hboot, State.retry, hwarn, hok]

end rebootCmd

/-- What a command that reboots firmware answers, by what it finds. -/
theorem Serves.reboots (h : Serves s ch m code) {n : CmdNeed} (hclean : clean m n.defs = true) (hpre : n.pre m = none)
    (hlimit : n.limit m = none) {slot : Cmd → Nat} {record : Cmd → BootRecord} {c : Instr}
    (hc : exec c s = act s (s.rebootCmd ch code n slot record retries)) :
    ((s.fw.slotOf (slot m)).bootable = false → exec c s = .next (ended s ch m 5 (slot m) 0 [])) ∧
    ((s.fw.slotOf (slot m)).bootable = true → s.pins.supplyWarn = true → exec c s = .next (ended s ch m 19 0 0 [])) ∧
    ((s.fw.slotOf (slot m)).bootable = true → s.pins.supplyWarn = false → 8 < retries → ∃ t, exec c s = .next t ∧
      completed t ch m 5 = true ∧ t.fw.boot = s.fw.boot ∧ t.fw.running = true) ∧
    ((s.fw.slotOf (slot m)).bootable = true → s.pins.supplyWarn = false → retries ≤ 8 → ∃ t, exec c s = .next t ∧
      t.fw.running = false ∧ t.fw.owed = some m ∧ (t.chan ch.val).running = none ∧ (t.chan ch.val).cpls = (s.chan ch.val).cpls ∧
      t.fw.boot = record m ∧ t.fw.dogUntil = some (s.now + (record m).watchdog * 1000000000) ∧ t.slices = s.slices ∧ t.kv = s.kv ∧
      t.reel = s.reel ∧ t.emul = s.emul) := by
  rw [hc]
  refine ⟨fun hboot => ?_, fun hboot hwarn => ?_, fun hboot hwarn hfail => ?_, fun hboot hwarn hwrite => ?_⟩
  · exact act_eq h.live ((h.rebootCmd_unbootable hclean hpre hlimit hboot).trans (h.finish rfl _)) rfl rfl
  · exact act_eq h.live ((h.rebootCmd_warned hclean hpre hlimit hboot hwarn).trans (h.finish rfl _)) rfl rfl
  · have hw := State.SectorsWritten.sectorWrite s 896 retries
    exact ⟨_, act_eq h.live ((h.rebootCmd_fails hclean hpre hlimit hboot hwarn hfail).trans (h.finish hw.mbox _)) hw.pending hw.chip,
      completed_ended _ ch m (by decide) _ _ _, congrArg Firmware.boot hw.fw, (congrArg Firmware.running hw.fw).trans h.fw⟩
  · obtain ⟨u, hw, hreboot⟩ := h.reboot (record m) retries
    have hchan := State.chan_modChan u ch.val (fun x => { x with running := none }) ch.isLt
    rw [chan_congr hw.mbox] at hchan
    refine ⟨_, act_eq h.live ((h.rebootCmd_reboots hclean hpre hlimit hboot hwarn hwrite).trans hreboot) hw.pending hw.chip, rfl, rfl,
      (congrArg Chan.running hchan :), (congrArg Chan.cpls hchan :), rfl, ?_, hw.slices, hw.kv, hw.reel, hw.emul⟩
    exact congrArg (fun tb : TimeBase => some (tb.now.toNat + (record m).watchdog * 1000000000)) hw.tb

theorem Serves.othersContinue (h : Serves s ch m code) : s.othersContinue m = false := by
  rw [State.othersContinue, List.any_eq_false]
  intro x hx
  rw [h.eq_of_mem_cmds hx, bne_self_eq_false, Bool.false_and]
  exact Bool.false_ne_true

/-! ### FW_COMMIT (R490, R530) -/

theorem State.Logged.stored (h : s.Logged t) : t.stored = s.stored := by obtain ⟨_, _, _, rfl⟩ := h; rfl

/-- The settings area holds what governs. -/
theorem State.commitArea_find (s : State) {i : Nat} {v : W64} (hi : i < 0x0680) (h : s.settings.find? (·.1 == i) = some (i, v)) :
    s.commitArea.find? (·.1 == i) = some (i, v) := by
  have hkeep : ∀ p : Nat × W64, (p.1 == i) = true → (p.1 != 0x0801) = true := by
    intro p hp
    rw [eq_of_beq hp]
    exact bne_iff_ne.2 (by omega)
  rw [State.commitArea, List.append_assoc, List.find?_append, find?_filter_of_imp hkeep, h]
  rfl

/-- The writes of a commit: the settings area, then the boot record. -/
def State.commitWrites (s : State) (retries : Nat) : State := (s.sectorWrite s.ss.areaSector 0).sectorWrite 896 retries

/-- A commit, before its entry. -/
def State.committed (t : State) (s : State) : State :=
  { t with
    stored := s.commitArea
    fw := { t.fw with
      state := .committed, dogUntil := none, boot := { t.fw.boot with state := .committed, schema := s.fw.current.schema } }
    sec := { t.sec with minSvn := max t.sec.minSvn (min 64 (min (s.slotSvn 1) (s.slotSvn 2))) } }

theorem State.commitFw_committed (h : s.fw.state = .committed) : s.commitFw retries = (.no 5 s.fw.slot 0, s) := by
  simp [State.commitFw, checks, h]

section commit
variable (hstate : s.fw.state ≠ .committed)
include hstate

theorem State.commitFw_warned (hwarn : s.pins.supplyWarn = true) : s.commitFw retries = (.no 19 0 0, s) := by
  simp [State.commitFw, checks, hstate, State.retry, hwarn]

variable (hwarn : s.pins.supplyWarn = false)
include hwarn

theorem State.commitFw_fails (hfail : 8 < retries) : s.commitFw retries = (.no 5 896 0, s.commitWrites retries) := by
  have hbad : writeFails retries = true := decide_eq_true hfail
  simp [State.commitFw, checks, hstate, State.retry, hwarn, hbad, State.commitWrites]

theorem State.commitFw_commits (hwrite : retries ≤ 8) : s.commitFw retries = (⟨0, 0, 0, leBytes 2 s.fw.current.schema⟩,
    ((s.commitWrites retries).committed s).log 0x0100 11 5 false (objData s.fw.slot 0 0 0)) := by
  have hok : writeFails retries = false := decide_eq_false (Nat.not_lt.2 hwrite)
  simp [State.commitFw, checks, hstate, State.retry, hwarn, hok, State.commitWrites, State.committed]

end commit

theorem State.commitWrites_written (s : State) (retries : Nat) : s.SectorsWritten (s.commitWrites retries) :=
  (State.SectorsWritten.sectorWrite ..).trans (.sectorWrite ..)

theorem firmwareChanges_holds : firmwareChanges := by
  unfold firmwareChanges
  intro s ch r m other to' boots
  refine ⟨fun hs hclean => ?activate, fun hs hclean => ?rollback, fun hs hclean => ?commit⟩ <;> have h := Serves.of_serving hs
  case activate =>
    have hexec : exec (.fwActivate ch r) s = act s (s.rebootCmd ch 0x18 s.activateNeed (fun m => m.f 16 1)
      (fun m => { s.fw.boot with preferred := m.f 16 1, previous := s.fw.slot, state := .trial, watchdog := s.setting 0x0703 })
      r.toNat) := rfl
    have hlimit : s.activateNeed.limit m = none := if_neg (Bool.eq_false_iff.1 h.othersContinue)
    refine ⟨fun hbad => ?_, fun hlo hhi => h.reboots (n := s.activateNeed) hclean (if_neg ?_) hlimit hexec⟩
    · have hpre : s.activateNeed.pre m = some (.bad 16) := if_pos (decide_eq_true hbad)
      refine act_eq h.live (Eq.trans ?_ (h.finish rfl (.bad 16))) rfl rfl
      simp only [State.rebootCmd, h.cmdOf, h.refused (n := s.activateNeed) hclean, hpre, Option.some_or]
    · rw [decide_eq_true_eq]; omega
  case rollback =>
    have hexec : exec (.fwRollback ch r) s = act s (s.rebootCmd ch 0x1A slotsNeed (fun _ => s.otherSlot)
      (fun _ => { s.fw.boot with preferred := s.otherSlot, previous := s.fw.slot, state := .trial }) r.toNat) := rfl
    exact h.reboots (n := slotsNeed) hclean rfl rfl hexec
  case commit =>
    have hw := s.commitWrites_written r.toNat
    refine ⟨fun hst => h.act_runs (n := slotsNeed) hclean rfl rfl (State.commitFw_committed hst) rfl rfl rfl,
      fun hst hwarn => h.act_runs (n := slotsNeed) hclean rfl rfl (State.commitFw_warned hst hwarn) rfl rfl rfl,
      fun hst hwarn hfail => ?_, fun hst hwarn hwrite => ?_⟩
    · exact ⟨_, h.act_runs (n := slotsNeed) hclean rfl rfl (State.commitFw_fails hst hwarn hfail) hw.mbox hw.pending hw.chip,
        completed_ended _ ch m (by decide) _ _ _, congrArg Firmware.state hw.fw, hw.stored⟩
    · have hlog : State.Logged ((s.commitWrites r.toNat).committed s)
          (((s.commitWrites r.toNat).committed s).log 0x0100 11 5 false (objData s.fw.slot 0 0 0)) := .log ..
      refine ⟨_, h.act_runs (n := slotsNeed) hclean rfl rfl (State.commitFw_commits hst hwarn hwrite) (hlog.mbox.trans hw.mbox)
        (hlog.pending.trans hw.pending) (hlog.chip.trans hw.chip), completed_ended _ ch m (by decide) _ _ _, ?_⟩
      have hfw := hlog.fw
      refine ⟨congrArg Firmware.state hfw, congrArg (·.boot.state) hfw, congrArg Firmware.dogUntil hfw, congrArg (·.boot.schema) hfw,
        fun i v hi hfind => ?_, hlog.settings.trans hw.settings, ?_, hlog.slices.trans hw.slices⟩
      · have hstored : (((s.commitWrites r.toNat).committed s).log 0x0100 11 5 false (objData s.fw.slot 0 0 0)).storedOf i =
            (s.commitArea.find? (·.1 == i)).map (·.2) := by
          rw [State.storedOf, hlog.stored]; rfl
        exact hstored.trans (by rw [s.commitArea_find hi hfind]; rfl)
      · have hsec := congrArg Sec.minSvn hlog.sec
        have hold := congrArg Sec.minSvn hw.sec
        exact (hold.symm.le.trans (le_max_left ..)).trans hsec.symm.le

/-- Settles O57. -/
theorem firmwareCommands : Obligations.FirmwareCommands := ⟨firmwareStages_holds, firmwareChanges_holds⟩

end Sys2Proof.Machine
end

section
/-! SUPPORT. MIGRATE, the end of its copy and the bound on its source's writes (R446, R479 to R483). -/

namespace Sys2Proof.Machine
variable {s t u : State} {ch : Channel} {m : Cmd} {g : Migration}

/-! ### The command (R446, R479) -/

theorem State.migrateFields_passes (ha : m.f 16 1 < s.chip.model.slices) (hb : m.f 17 1 < s.chip.model.slices)
    (hbound : m.f 20 4 = 0 ∨ (1000 ≤ m.f 20 4 ∧ m.f 20 4 ≤ 100000000)) : s.migrateFields m = none := by
  have hdrain : (m.f 20 4 != 0 && decide (m.f 20 4 < 1000 ∨ 100000000 < m.f 20 4)) = false := by
    rcases hbound with hzero | hin
    · rw [hzero]; rfl
    · exact outside_eq_false hin _
  refine checks_eq_none fun c hc => ?_
  simp only [List.mem_cons, List.not_mem_nil, or_false] at hc
  rcases hc with rfl | rfl | rfl
  · simp [State.present, ha]
  · simp [State.present, hb]
  · exact hdrain

/-- A source that runs is to stop at its edge. -/
def State.migrateFrom (s : State) (m : Cmd) : State :=
  if (s.sl (m.f 16 1)).state = .running then s.stopAtEnd (m.f 16 1) 4 .ready else s

theorem State.migrateFrom_sl (s : State) (m : Cmd) (hk : m.f 16 1 < 32) : (s.migrateFrom m).sl (m.f 16 1) =
    if (s.sl (m.f 16 1)).state = .running then { s.sl (m.f 16 1) with drain := some ⟨4, .ready, 0⟩ } else s.sl (m.f 16 1) := by
  unfold State.migrateFrom
  split
  · exact State.sl_mod _ _ _ hk
  · rfl

theorem State.migrateFrom_sl_ne (s : State) (m : Cmd) {j : Nat} (hj : j ≠ m.f 16 1) : (s.migrateFrom m).sl j = s.sl j := by
  unfold State.migrateFrom
  split
  · exact State.sl_mod_ne _ _ _ _ hj.symm
  · rfl

theorem Model.slices_le (m : Model) : m.slices ≤ 32 := by cases m <;> decide

theorem State.migrate_unmovable (h : (s.sl (m.f 16 1)).movable = false) : s.migrate m = .inl (s.refuseSlice (m.f 16 1), s) := by
  simp [State.migrate, h]

section movable
variable (h : (s.sl (m.f 16 1)).movable = true)
include h

theorem State.migrate_taken (hb : m.f 16 1 = m.f 17 1 ∨ s.freeSlice (m.f 17 1) = false) :
    s.migrate m = .inl (s.refuseSlice (m.f 17 1), s) := by
  have htaken : m.f 16 1 = m.f 17 1 ∨ (!s.freeSlice (m.f 17 1)) = true := hb.imp_right fun h => by rw [h]; rfl
  unfold State.migrate
  simp only [h, Bool.not_true, Bool.false_eq_true, if_false, if_pos htaken]

theorem State.migrate_begins {p : Program} (hne : m.f 16 1 ≠ m.f 17 1) (hfree : s.freeSlice (m.f 17 1) = true)
    (hverdict : (⟨s, m.f 17 1, m.f 16 1, ((s.sl (m.f 16 1)).armedProg.map (·.image)).getD [], false⟩ : Verify).verdict = .ok p) :
    s.migrate m = .inr ({ m with migr := some ⟨m.f 16 1, m.f 17 1, 1, (s.sl (m.f 16 1)).epoch, 0, 0⟩ },
      s.migrateFrom m) := by
  have hopen : ¬(m.f 16 1 = m.f 17 1 ∨ (!s.freeSlice (m.f 17 1)) = true) := by simp [hne, hfree]
  unfold State.migrate
  simp only [h, Bool.not_true, Bool.false_eq_true, if_false, if_neg hopen, hverdict]
  rfl

end movable

/-! ### Migrations in progress -/

theorem State.copying_none (h : s.migrations = []) (ch : Channel) : s.copying ch = none := by
  rw [State.copying, h]; rfl

theorem State.copying_alone (hrun : s.fw.running = true) (hcmds : s.cmds = [m]) (hcode : m.code = 0x0A) (hbegun : m.begun = true)
    (hmigr : m.migr = some g) (hchan : m.chan = ch.val) (hphase : g.phase = 3) : s.copying ch = some (m, g) := by
  simp [State.copying, State.migrations, hrun, hcmds, hcode, hbegun, hmigr, hchan, hphase]

/-! ### The copy (R481, step 5) -/

/-- Semaphores that pass to an owner are its own. -/
theorem State.foldl_modSem_owner {f : Sem → Sem} {o : W12} (hf : ∀ x, (f x).owner = o) {i : Nat} (hi : i < 256) (l : List Nat)
    (s : State) (h : i ∈ l ∨ (s.sem i).owner = o) : ((l.foldl (fun s n => s.modSem n f) s).sem i).owner = o := by
  induction l generalizing s with
  | nil => exact h.resolve_left (List.not_mem_nil)
  | cons n l ih =>
    refine ih _ ?_
    by_cases hn : n = i
    · subst hn
      exact .inr (by rw [State.sem_modSem _ _ _ hi, hf])
    · rw [State.sem_modSem_ne _ _ hn]
      exact h.imp_left fun hmem => (List.mem_cons.1 hmem).resolve_left (Ne.symm hn)

theorem State.passSems_eq (s : State) (a b : Nat) : ∃ semu, s.passSems a b = { s with semu := semu } := by
  unfold State.passSems
  generalize s.heldBy a = l
  induction l generalizing s with
  | nil => exact ⟨s.semu, rfl⟩
  | cons n l ih => exact ih (s.modSem n fun m => { m with owner := BitVec.ofNat 12 b })

theorem State.passSems_owner (s : State) {a : Nat} (b : Nat) {i : Nat} (hi : i < 256) (hheld : (s.sem i).held = true)
    (hkind : (s.sem i).kind = 1) (howner : (s.sem i).owner.toNat = a) : ((s.passSems a b).sem i).owner = BitVec.ofNat 12 b := by
  have hmem : i ∈ s.heldBy a := List.mem_filter.2 ⟨List.mem_range.2 hi, by rw [hheld, hkind, howner]; simp⟩
  unfold State.passSems
  exact State.foldl_modSem_owner (f := fun x => { x with owner := BitVec.ofNat 12 b }) (fun _ => rfl) hi _ s (.inl hmem)

/-- What the destination takes over. -/
def State.placed (s : State) (g : Migration) (y : Slice) : Slice := y.take (s.sl g.src) ((g.oldEpoch + 1) % 256)

/-- The block once the destination holds the placement, before the migration goes on. -/
def State.copied (s : State) (g : Migration) : State :=
  let u := (s.mod g.dst (s.placed g)).passSems g.src g.dst
  (u.cleanFrames g.dst (if (u.sl g.dst).bank then 1024 else 0) 1024).cleanFrames g.dst 2048 1028

/-- The copy changes the destination, the owner of semaphores and the marks of frames. -/
theorem State.copied_sliceTo (s : State) (hdst : g.dst < 32) :
    ∃ semu, State.SliceTo { s with semu := semu } g.dst (s.placed g (s.sl g.dst)) (s.copied g) := by
  obtain ⟨semu, hpass⟩ := (s.mod g.dst (s.placed g)).passSems_eq g.src g.dst
  unfold State.copied
  rw [hpass]
  exact ⟨semu, (((State.SliceTo.refl { s with semu := semu } g.dst).mod hdst (s.placed g)).cleanFrames ..).cleanFrames ..⟩

theorem State.copied_owner (s : State) {i : Nat} (hi : i < 256) (hheld : (s.sem i).held = true) (hkind : (s.sem i).kind = 1)
    (howner : (s.sem i).owner.toNat = g.src) : ((s.copied g).sem i).owner = BitVec.ofNat 12 g.dst :=
  (s.mod g.dst (s.placed g)).passSems_owner g.dst hi hheld hkind howner

theorem Slice.take_prog (y x : Slice) (epoch : Nat) : (y.take x epoch).prog = x.prog := by
  unfold Slice.take Slice.prog
  cases y.bank <;> rfl

theorem State.copyDone_whole (h : s.scrub.bad = []) :
    s.copyDone (m, g) = (s.copied g).setMigr m { g with phase := 6, drainBy := (s.copied g).now } := by
  have hgood : ¬s.copyBad g.src = true := by simp [State.copyBad, h]
  unfold State.copyDone
  dsimp only
  rw [if_neg hgood]
  rfl

/-! ### Writes that stay unanswered (R483) -/

theorem State.SliceTo.mbox {k : Nat} {x : Slice} (h : s.SliceTo k x t) : t.mbox = s.mbox := h.elim fun _ h => h.mbox

/-- The source's writes were not answered in time: the entry says so. -/
def State.undrained (s : State) (g : Migration) (n : Nat) : State :=
  (s.log 0x0100 14 3 false (objData g.src 0 n 0)).mod g.src fun x => x

theorem State.abandonMigration_eq (s : State) (m : Cmd) (g : Migration) (n : Nat) : s.abandonMigration (m, g) n 0 =
    (if ((s.undrained g n).sl g.src).state = .faulted then s.undrained g n else (s.undrained g n).toState g.src .faulted).endCmd
      m 5 g.src 5 [] := rfl

theorem State.abandonMigration_drained (s : State) (hsrc : g.src < 32) (n : Nat) : ∃ u,
    s.abandonMigration (m, g) n 0 = u.endCmd m 5 g.src 5 [] ∧ s.SliceTo g.src { s.sl g.src with state := .faulted } u := by
  have hto : s.SliceTo g.src (s.sl g.src) (s.undrained g n) := ((State.SliceTo.refl s g.src).log _ _ _ _ _ _).mod hsrc _
  refine ⟨_, s.abandonMigration_eq m g n, ?_⟩
  rw [hto.sl hsrc]
  split
  case isTrue hfaulted =>
    rw [← hfaulted]
    exact hto
  case isFalse => exact hto.toState hsrc .faulted

/-- The end of a command whose completion finds room. -/
theorem State.endCmd_ended (hlate : m.late = false) (hchan : m.chan = ch.val) (hroom : (u.chan ch.val).cpls.length < 64)
    (hheld : (u.chan ch.val).held = []) (status a b : Nat) (res : List Byte) :
    u.endCmd m status a b res = ended u ch m status a b res := by
  have hnow := State.chan_modChan u ch.val (fun x => { x with running := none }) ch.isLt
  rw [State.endCmd, hlate, hchan]
  refine (State.postCpl_posted ?_ ?_ _).trans rfl <;> simp only [Bool.false_eq_true, if_false, hnow]
  · exact hroom
  · exact hheld

section exec
variable (hl : s.live = true) (hcopy : s.copying ch = some (m, g))
include hl hcopy

theorem exec_migrateCopyDone (hdone : s.unacked g.src = false) (hu : s.copyDone (m, g) = u) (hp : u.pending = s.pending)
    (hc : u.chip = s.chip) :
    exec (.migrateCopyDone ch) s = .next u := by
  refine act_eq hl ?_ hp hc
  rw [hcopy]
  exact (if_neg (Bool.eq_false_iff.1 hdone)).trans hu

theorem exec_migrateDrainTimeout {n : W32} (hwait : s.unacked g.src = true) (hdue : g.drainBy ≤ s.now)
    (hu : s.abandonMigration (m, g) n.toNat 0 = u) (hp : u.pending = s.pending) (hc : u.chip = s.chip) :
    exec (.migrateDrainTimeout ch n) s = .next u := by
  refine act_eq hl ?_ hp hc
  rw [hcopy]
  refine (if_neg ?_).trans hu
  rw [hwait]
  exact fun h => h.elim Bool.false_ne_true (Nat.not_lt.2 hdue)

end exec

/-! ### The obligation -/

theorem goesOn_modChan (hu : u.mbox = s.mbox) {x : Cmd} (hbegun : x.begun = true) (hmsg : x.msg = m.msg) :
    goesOn s (u.modChan ch.val fun c => { c with running := some x }) ch m = true := by
  have hchan : u.chan ch.val = s.chan ch.val := chan_congr hu _
  simp [goesOn, hchan, hbegun, hmsg]

/-- Settles O55. -/
theorem migrationSteps : Obligations.MigrationSteps := by
  unfold Obligations.MigrationSteps
  intro s ch m g p n a b x image
  refine ⟨fun hs hclean ha hb hbound => ?command, fun hl hnone => ?idle, ?copy⟩
  case command =>
    have h := Serves.of_serving hs
    have hpre : s.migrateNeed.pre m = none := State.migrateFields_passes ha hb hbound
    have hends {k : Nat} (hrun : s.migrate m = .inl (s.refuseSlice k, s)) : exec (.migrate ch) s = .next (refusedSlice s ch m k) :=
      act_eq h.live ((h.commandGo_ends (n := s.migrateNeed) hclean hpre rfl hrun).trans (h.finish rfl _)) rfl rfl
    refine ⟨fun hmov => hends (State.migrate_unmovable hmov), fun hmov htaken => hends (State.migrate_taken hmov htaken),
      fun hmov hne hfree hverdict => ?_⟩
    have hgo := (h.commandGo_goes (n := s.migrateNeed) hclean hpre rfl (State.migrate_begins hmov hne hfree hverdict)).trans (h.updCmd _ _)
    have hstop : (s.migrateFrom m).mbox = s.mbox ∧ (s.migrateFrom m).pending = s.pending ∧ (s.migrateFrom m).chip = s.chip := by
      unfold State.migrateFrom
      split <;> exact ⟨rfl, rfl, rfl⟩
    obtain ⟨hmbox, hpending, hchip⟩ := hstop
    exact ⟨_, act_eq h.live hgo hpending hchip, goesOn_modChan hmbox rfl rfl, fun j hj => s.migrateFrom_sl_ne m hj,
      s.migrateFrom_sl m (ha.trans_le (Model.slices_le _))⟩
  case idle =>
    have hcopy := State.copying_none hnone ch
    exact ⟨act_eq hl (by rw [hcopy]) rfl rfl, act_eq hl (by rw [hcopy]) rfl rfl⟩
  case copy =>
    intro hl hrun hrunning hchan hbegun hlate hcode hmigr hphase hcmds hsrc hdst hne x y waits
    have hcopy := State.copying_alone hrun hcmds hcode hbegun hmigr hchan hphase
    have hunacked : s.unacked g.src = waits := rfl
    refine ⟨fun hwait => act_eq hl ?_ rfl rfl, fun hdone hbad => ?_, fun hwait => act_eq hl ?_ rfl rfl,
      fun hwait hdue hroom hheld => ?_⟩
    · rw [hcopy]; exact if_pos (hunacked.trans hwait)
    · obtain ⟨semu, hto⟩ := s.copied_sliceTo hdst
      have hgoes : (s.copied g).setMigr m { g with phase := 6, drainBy := (s.copied g).now } = (s.copied g).modChan ch.val fun c =>
          { c with running := some { m with migr := some { g with phase := 6, drainBy := (s.copied g).now } } } := by
        rw [State.setMigr, State.updCmd, hlate, hchan]; rfl
      have htaken : (s.copied g).sl g.dst = s.placed g (s.sl g.dst) := hto.sl hdst
      refine ⟨_, exec_migrateCopyDone hl hcopy hdone ((State.copyDone_whole hbad).trans hgoes) hto.pending hto.chip, hto.sl_ne hne, ?_⟩
      have htaken' (f : Chan → Chan) : ((s.copied g).modChan ch.val f).sl g.dst = s.placed g (s.sl g.dst) := htaken
      rw [htaken']
      exact ⟨rfl, rfl, rfl, rfl, rfl, rfl, rfl, rfl, rfl, rfl, Slice.take_prog _ _ _, rfl, fun j hj => hto.sl_ne hj,
        fun i hi hheld hkind howner => s.copied_owner hi hheld hkind howner⟩
    · rw [hcopy]
      exact if_pos (hwait.imp_left fun h => by rw [hunacked, h]; rfl)
    · obtain ⟨u, habandon, hto⟩ := s.abandonMigration_drained (m := m) hsrc n.toNat
      have hmbox := hto.mbox
      have hends := State.endCmd_ended (u := u) hlate hchan (by rwa [chan_congr hmbox]) (by rwa [chan_congr hmbox]) 5 g.src 5 []
      exact ⟨_, exec_migrateDrainTimeout hl hcopy hwait hdue (habandon.trans hends) hto.pending hto.chip,
        congrArg Slice.state (hto.sl hsrc), completed_ended u ch m (by decide) _ _ _, hto.sl_ne hne.symm⟩

end Sys2Proof.Machine
end

section
/-! SUPPORT. START and STOP_BATH (R444, R445, R467, R468). -/

namespace Sys2Proof.Machine
variable {s t u : State} {ch : Channel} {m : Cmd} {code k : Nat}

/-! ### Slices of a mask -/

theorem lt_of_mem_slicesOf {w j : Nat} (h : j ∈ slicesOf w) : j < 32 := List.mem_range.1 (List.mem_filter.1 h).1

theorem State.absent_eq (s : State) (w : Nat) : s.absent w = !(slicesOf w).all fun j => decide (j < s.chip.model.slices) := by
  rw [List.not_all_eq_any_not]
  simp only [State.absent, State.present, List.contains_eq_mem, List.mem_range]

/-- Slices that a list names are changed, each by the same change; to be named twice makes no difference. -/
theorem State.foldl_mod_sl {g : Slice → Slice} (hg : ∀ x, g (g x) = g x) (l : List Nat) (s : State) :
    (∀ j, j ∉ l → (l.foldl (fun s k => s.mod k g) s).sl j = s.sl j) ∧
    ∀ j ∈ l, j < 32 → (l.foldl (fun s k => s.mod k g) s).sl j = g (s.sl j) := by
  induction l generalizing s with
  | nil => exact ⟨fun j _ => rfl, fun j hj => absurd hj List.not_mem_nil⟩
  | cons k l ih =>
    obtain ⟨hout, hin⟩ := ih (s.mod k g)
    refine ⟨fun j hj => ?_, fun j hj hj32 => ?_⟩
    · obtain ⟨hjk, hjl⟩ := List.ne_and_not_mem_of_not_mem_cons hj
      exact (hout j hjl).trans (State.sl_mod_ne _ _ _ _ (Ne.symm hjk))
    · by_cases hjl : j ∈ l
      · rw [List.foldl_cons, hin j hjl hj32]
        by_cases hjk : k = j
        · rw [← hjk, State.sl_mod _ _ _ (hjk ▸ hj32), hg]
        · rw [State.sl_mod_ne _ _ _ _ hjk]
      · have hjk : j = k := (List.mem_cons.1 hj).resolve_right hjl
        rw [List.foldl_cons, hout j hjl, hjk, State.sl_mod _ _ _ (hjk ▸ hj32)]

/-- Such changes leave the rest of the block alone. -/
theorem State.foldl_mod_keeps (g : Slice → Slice) (l : List Nat) (s : State) :
    (l.foldl (fun s k => s.mod k g) s).mbox = s.mbox ∧ (l.foldl (fun s k => s.mod k g) s).pending = s.pending ∧
    (l.foldl (fun s k => s.mod k g) s).chip = s.chip := by
  obtain ⟨slices, hmod⟩ := State.foldl_mod (fun j : Nat => j) g l s
  rw [hmod]
  exact ⟨rfl, rfl, rfl⟩

/-! ### Commands that go on -/

section commands
variable (h : Serves s ch m code) {n : CmdNeed} (hclean : clean m n.defs = true) {f : Cmd → (Ends × State) ⊕ (Cmd × State)}
include h hclean

/-- A command that fails its checks. -/
theorem Serves.actGo_stops {status a b : Nat} {res : List Byte} (hpre : n.pre m = some ⟨status, a, b, res⟩) :
    act s (s.commandGo ch code n f) = .next (ended s ch m status a b res) :=
  act_eq h.live ((h.commandGo_stops hclean hpre f).trans (h.finish rfl _)) rfl rfl

variable (hpre : n.pre m = none) (hlimit : n.limit m = none)
include hpre hlimit

/-- A command that ends at once. -/
theorem Serves.actGo_ends {status a b : Nat} {res : List Byte} (hf : f m = .inl (⟨status, a, b, res⟩, t)) (hm : t.mbox = s.mbox)
    (hp : t.pending = s.pending) (hc : t.chip = s.chip) : act s (s.commandGo ch code n f) = .next (ended t ch m status a b res) :=
  act_eq h.live ((h.commandGo_ends hclean hpre hlimit hf).trans (h.finish hm _)) hp hc

/-- A command that goes on. -/
theorem Serves.actGo_goes {m' : Cmd} (hf : f m = .inr (m', t)) (hmsg : m'.msg = m.msg) (hm : t.mbox = s.mbox)
    (hp : t.pending = s.pending) (hc : t.chip = s.chip) : ∃ u, act s (s.commandGo ch code n f) = .next u ∧ goesOn s u ch m = true ∧
      u.slices = t.slices ∧ u.power = t.power :=
  ⟨_, act_eq h.live ((h.commandGo_goes hclean hpre hlimit hf).trans (h.updCmd _ _)) hp hc, goesOn_modChan hm rfl hmsg, rfl, rfl⟩

end commands

theorem State.sl_congr (h : t.slices = s.slices) (j : Nat) : t.sl j = s.sl j := by rw [State.sl, State.sl, h]

/-! ### START (R444) -/

theorem State.startCmd_refused (h : (slicesOf (m.f 16 4)).find? (fun k => !((s.sl k).armed && (s.sl k).state == .ready)) = some k) :
    s.startCmd m = .inl (s.refuseSlice k, s) := by
  simp only [State.startCmd, h]

theorem State.startCmd_starts (h : ∀ j ∈ slicesOf (m.f 16 4), (s.sl j).armed = true ∧ (s.sl j).state = .ready) :
    s.startCmd m = .inr ({ m with mask := BitVec.ofNat 32 (m.f 16 4) }, (slicesOf (m.f 16 4)).foldl (fun t k => t.mod k fun x =>
      { x with startAt := some (if m.f 24 8 < s.now then 0 else m.f 24 8) }) s) := by
  have hnone : (slicesOf (m.f 16 4)).find? (fun k => !((s.sl k).armed && (s.sl k).state == .ready)) = none := by
    refine List.find?_eq_none.2 fun j hj => ?_
    obtain ⟨harmed, hready⟩ := h j hj
    simp [harmed, hready]
  simp only [State.startCmd, hnone]

/-! ### STOP_BATH (R445, R467) -/

/-- The slices of a request that run. -/
def State.runningOf (s : State) (m : Cmd) : List Nat := (slicesOf (m.f 16 4)).filter fun j => (s.sl j).state == .running

theorem State.stopBath_cold (h : (slicesOf (m.f 16 4)).find? (fun k => (s.sl k).state == .cold) = some k) :
    s.stopBath m = .inl (s.refuseSlice k, s) := by
  simp only [State.stopBath, h, Option.some_or]

section stops
variable (hcold : ∀ j ∈ slicesOf (m.f 16 4), (s.sl j).state ≠ .cold)
  (hsplit : ∀ j ∈ s.runningOf m, s.splitsStream (s.runningOf m) j = false)
include hcold hsplit

theorem State.stopBath_eq : s.stopBath m = if (s.runningOf m).isEmpty then .inl (⟨0, 0, 0, []⟩, s)
    else .inr ({ m with mask := maskOf (s.runningOf m) }, (s.runningOf m).foldl (fun s k =>
      if m.f 20 1 = 0 then s.stopAtEnd k 1 .ready else (s.drainTo k 2 .ready 0).abortWork k 3 0) s) := by
  have hnone : (slicesOf (m.f 16 4)).find? (fun k => (s.sl k).state == .cold) = none :=
    List.find?_eq_none.2 fun j hj => by simp [hcold j hj]
  have hwhole : (s.runningOf m).find? (s.splitsStream (s.runningOf m)) = none :=
    List.find?_eq_none.2 fun j hj => by rw [hsplit j hj]; exact Bool.false_ne_true
  simp only [State.runningOf] at hwhole
  simp only [State.stopBath, hnone, hwhole, Option.or_none]
  rfl

theorem State.stopBath_nothing (hrun : s.runningOf m = []) : s.stopBath m = .inl (⟨0, 0, 0, []⟩, s) := by
  rw [State.stopBath_eq hcold hsplit, hrun]; rfl

variable (hrun : s.runningOf m ≠ [])
include hrun

theorem State.stopBath_frameEnd (hmode : m.f 20 1 = 0) : s.stopBath m = .inr ({ m with mask := maskOf (s.runningOf m) },
    (s.runningOf m).foldl (fun s k => s.mod k fun x => { x with drain := some ⟨1, .ready, 0⟩ }) s) := by
  rw [State.stopBath_eq hcold hsplit, if_neg (by simpa using hrun), hmode]; rfl

/-- A slice stops at once. -/
def State.stopNow (s : State) (k : Nat) : State := (s.drainTo k 2 .ready 0).abortWork k 3 0

theorem State.stopBath_now (hmode : m.f 20 1 = 1) : s.stopBath m = .inr ({ m with mask := maskOf (s.runningOf m) },
    (s.runningOf m).foldl State.stopNow s) := by
  rw [State.stopBath_eq hcold hsplit, if_neg (by simpa using hrun), hmode]; rfl

end stops

/-- A slice that was stopped at once. -/
def Slice.StoppedNow (x : Slice) : Prop :=
  x.state = .draining ∧ x.drain = some ⟨2, .ready, 0⟩ ∧ x.cause = 2 ∧ x.seq.halted = true

/-- What an abort leaves of the block: its slice is halted, in the state in which it was. -/
structure State.Aborts (s : State) (k : Nat) (t : State) : Prop where
  state : (t.sl k).state = (s.sl k).state
  drain : (t.sl k).drain = (s.sl k).drain
  cause : (t.sl k).cause = (s.sl k).cause
  halted : (t.sl k).seq.halted = true
  others : ∀ j, j ≠ k → t.sl j = s.sl j
  mbox : t.mbox = s.mbox
  pending : t.pending = s.pending
  chip : t.chip = s.chip

theorem State.Via.mbox {R : Slice → Slice → Prop} (h : s.Via R k t) : t.mbox = s.mbox := by
  obtain ⟨_, -, hbeside⟩ := h; exact hbeside.mbox

theorem State.abortWork_aborts (s : State) (hk : k < 32) (status code : Nat) : s.Aborts k (s.abortWork k status code) := by
  have habort := State.Stops.abortWork hk s status code
  have hslice := habort.sl_eq hk
  have hset : ((s.setSl k (s.sl k).aborted).semLeave k).sl k = (s.sl k).aborted := State.sl_setSl s k _ hk
  rw [hset] at hslice
  obtain ⟨hstate, hdrain, hcause, hseq, -⟩ := hslice.keeps
  exact {
    state := hstate
    drain := hdrain
    cause := hcause
    halted := by rw [hseq]; rfl
    others := fun j hj => (habort.sl_ne hj).trans (State.sl_setSl_ne s k j _ hj.symm)
    mbox := habort.mbox
    pending := habort.pending
    chip := habort.chip }

/-- What stopping a slice at once leaves of the block. -/
structure State.StopsNow (s : State) (k : Nat) (t : State) : Prop where
  stopped : (t.sl k).StoppedNow
  others : ∀ j, j ≠ k → t.sl j = s.sl j
  mbox : t.mbox = s.mbox
  pending : t.pending = s.pending
  chip : t.chip = s.chip

theorem State.stopNow_stops (s : State) (hk : k < 32) : s.StopsNow k (s.stopNow k) := by
  have hdrain := State.Beside.drainTo hk s 2 .ready 0
  have hslice := (hdrain.sl k).trans (State.sl_setSl _ _ _ hk)
  have habort := (s.drainTo k 2 .ready 0).abortWork_aborts hk 3 0
  exact {
    stopped := ⟨habort.state.trans (congrArg Slice.state hslice), habort.drain.trans (congrArg Slice.drain hslice),
      habort.cause.trans (congrArg Slice.cause hslice), habort.halted⟩
    others := fun j hj => (habort.others j hj).trans ((hdrain.sl j).trans (State.sl_setSl_ne _ _ _ _ hj.symm))
    mbox := habort.mbox.trans hdrain.mbox
    pending := habort.pending.trans hdrain.pending
    chip := habort.chip.trans hdrain.chip }

/-- Slices that stop at once, one after the other. -/
theorem State.foldl_stopNow (l : List Nat) (hl : ∀ j ∈ l, j < 32) (s : State) :
    (∀ j ∈ l, ((l.foldl State.stopNow s).sl j).StoppedNow) ∧ (∀ j, j ∉ l → (l.foldl State.stopNow s).sl j = s.sl j) ∧
    (l.foldl State.stopNow s).mbox = s.mbox ∧ (l.foldl State.stopNow s).pending = s.pending ∧
    (l.foldl State.stopNow s).chip = s.chip := by
  induction l generalizing s with
  | nil => exact ⟨fun j hj => absurd hj List.not_mem_nil, fun _ _ => rfl, rfl, rfl, rfl⟩
  | cons k l ih =>
    have hstop := s.stopNow_stops (hl k List.mem_cons_self)
    obtain ⟨hin, hout, hmbox, hpending, hchip⟩ := ih (fun j hj => hl j (List.mem_cons_of_mem k hj)) (s.stopNow k)
    refine ⟨fun j hj => ?_, fun j hj => ?_, hmbox.trans hstop.mbox, hpending.trans hstop.pending, hchip.trans hstop.chip⟩
    · by_cases hjl : j ∈ l
      · exact hin j hjl
      · have hjk : j = k := (List.mem_cons.1 hj).resolve_right hjl
        rw [List.foldl_cons, hout j hjl, hjk]
        exact hstop.stopped
    · obtain ⟨hjk, hjl⟩ := List.ne_and_not_mem_of_not_mem_cons hj
      exact (hout j hjl).trans (hstop.others j hjk)

/-! ### The commands -/

theorem absent_checks (rest : List (Bool × Ends)) (h : ((slicesOf (m.f 16 4)).all fun j => decide (j < s.chip.model.slices)) = true) :
    checks ((s.absent (m.f 16 4), .bad 16) :: rest) = checks rest :=
  if_neg (by rw [s.absent_eq, h]; exact Bool.false_ne_true)

theorem absent_stops (rest : List (Bool × Ends)) (h : ((slicesOf (m.f 16 4)).all fun j => decide (j < s.chip.model.slices)) = false) :
    checks ((s.absent (m.f 16 4), .bad 16) :: rest) = some (.bad 16) :=
  if_pos (by rw [s.absent_eq, h]; rfl)

/-- A slice that is to start at the first edge at or after a time. -/
def Slice.starting (e : Nat) (x : Slice) : Slice := { x with startAt := some e }

/-- A slice that is to stop at its frame end. -/
def Slice.stopping (x : Slice) : Slice := { x with drain := some ⟨1, .ready, 0⟩ }

/-- START of slices that can start (R444). -/
theorem exec_start_goes (h : Serves s ch m 0x07) (hclean : clean m [(16, 4), (24, 8)] = true)
    (hall : ((slicesOf (m.f 16 4)).all fun j => decide (j < s.chip.model.slices)) = true)
    (hready : ∀ j ∈ slicesOf (m.f 16 4), (s.sl j).armed = true ∧ (s.sl j).state = .ready) : ∃ t, exec (.start ch) s = .next t ∧
      goesOn s t ch m = true ∧ (∀ j, j ∉ slicesOf (m.f 16 4) → t.sl j = s.sl j) ∧
      ∀ j ∈ slicesOf (m.f 16 4), t.sl j = (s.sl j).starting (if m.f 24 8 < s.now then 0 else m.f 24 8) := by
  obtain ⟨hout, hin⟩ := State.foldl_mod_sl (g := Slice.starting (if m.f 24 8 < s.now then 0 else m.f 24 8)) (fun _ => rfl)
    (slicesOf (m.f 16 4)) s
  obtain ⟨hmbox, hpending, hchip⟩ := State.foldl_mod_keeps (Slice.starting (if m.f 24 8 < s.now then 0 else m.f 24 8))
    (slicesOf (m.f 16 4)) s
  obtain ⟨t, hexec, hgo, hslices, -⟩ := h.actGo_goes (n := s.startNeed) hclean (absent_checks [] hall) rfl
    (State.startCmd_starts hready) rfl hmbox hpending hchip
  exact ⟨t, hexec, hgo, fun j hj => (State.sl_congr hslices j).trans (hout j hj),
    fun j hj => (State.sl_congr hslices j).trans (hin j hj (lt_of_mem_slicesOf hj))⟩

theorem lt_of_mem_runningOf {j : Nat} (h : j ∈ s.runningOf m) : j < 32 := lt_of_mem_slicesOf (List.mem_filter.1 h).1

section stopBath
variable (h : Serves s ch m 0x08) (hclean : clean m [(16, 4), (20, 1)] = true)
  (hall : ((slicesOf (m.f 16 4)).all fun j => decide (j < s.chip.model.slices)) = true) (hflag : m.f 20 1 ≤ 1)
include hall hflag

theorem State.stopNeed_passes : s.stopNeed.pre m = none :=
  (absent_checks _ hall).trans (if_neg (by simpa using hflag))

variable (hcold : ∀ j ∈ slicesOf (m.f 16 4), (s.sl j).state ≠ .cold)
  (hsplit : ∀ j ∈ s.runningOf m, s.splitsStream (s.runningOf m) j = false)
  (hrun : s.runningOf m ≠ [])
include h hclean hcold hsplit hrun

theorem exec_stopBath_frameEnd (hmode : m.f 20 1 = 0) : ∃ t, exec (.stopBath ch) s = .next t ∧ goesOn s t ch m = true ∧
    (∀ j, j ∉ s.runningOf m → t.sl j = s.sl j) ∧ ∀ j ∈ s.runningOf m, t.sl j = (s.sl j).stopping := by
  obtain ⟨hout, hin⟩ := State.foldl_mod_sl (g := Slice.stopping) (fun _ => rfl) (s.runningOf m) s
  obtain ⟨hmbox, hpending, hchip⟩ := State.foldl_mod_keeps Slice.stopping (s.runningOf m) s
  obtain ⟨t, hexec, hgo, hslices, -⟩ := h.actGo_goes (n := s.stopNeed) hclean (State.stopNeed_passes hall hflag) rfl
    (State.stopBath_frameEnd hcold hsplit hrun hmode) rfl hmbox hpending hchip
  exact ⟨t, hexec, hgo, fun j hj => (State.sl_congr hslices j).trans (hout j hj),
    fun j hj => (State.sl_congr hslices j).trans (hin j hj (lt_of_mem_runningOf hj))⟩

theorem exec_stopBath_now (hmode : m.f 20 1 = 1) : ∃ t, exec (.stopBath ch) s = .next t ∧ goesOn s t ch m = true ∧
    ∀ j ∈ s.runningOf m, (t.sl j).StoppedNow := by
  obtain ⟨hin, -, hmbox, hpending, hchip⟩ := State.foldl_stopNow (s.runningOf m) (fun _ => lt_of_mem_runningOf) s
  obtain ⟨t, hexec, hgo, hslices, -⟩ := h.actGo_goes (n := s.stopNeed) hclean (State.stopNeed_passes hall hflag) rfl
    (State.stopBath_now hcold hsplit hrun hmode) rfl hmbox hpending hchip
  refine ⟨t, hexec, hgo, fun j hj => ?_⟩
  rw [State.sl_congr hslices]
  exact hin j hj

end stopBath

end Sys2Proof.Machine
end

section
/-! SUPPORT. SLICE_SERVICE (R446, R468, R471, R474, R478, R518). -/

namespace Sys2Proof.Machine
variable {s t u : State} {ch : Channel} {m : Cmd} {k : Nat}

/-! ### Semaphores that are given up (R474, R548, R550) -/

/-- What of the block the semaphores' releases leave alone: of a slice, whether it is retired, and the key of its next instruction. -/
structure State.SemsMoved (s t : State) : Prop where
  retired : ∀ j < 32, (t.sl j).retired = (s.sl j).retired
  nextKey : ∀ j < 32, (t.sl j).seq.nextKey = (s.sl j).seq.nextKey
  mbox : t.mbox = s.mbox
  pending : t.pending = s.pending
  chip : t.chip = s.chip

namespace State.SemsMoved

theorem of_slices (hslices : t.slices = s.slices) (hmbox : t.mbox = s.mbox) (hpending : t.pending = s.pending) (hchip : t.chip = s.chip) :
    s.SemsMoved t :=
  ⟨fun j _ => by rw [State.sl_congr hslices], fun j _ => by rw [State.sl_congr hslices], hmbox, hpending, hchip⟩

theorem refl (s : State) : s.SemsMoved s := of_slices rfl rfl rfl rfl

theorem trans (hst : s.SemsMoved t) (htu : t.SemsMoved u) : s.SemsMoved u :=
  ⟨fun j hj => (htu.retired j hj).trans (hst.retired j hj), fun j hj => (htu.nextKey j hj).trans (hst.nextKey j hj),
    htu.mbox.trans hst.mbox, htu.pending.trans hst.pending, htu.chip.trans hst.chip⟩

theorem modSem (s : State) (n : Nat) (f : Sem → Sem) : s.SemsMoved (s.modSem n f) := of_slices rfl rfl rfl rfl

/-- The end of a WAIT of a slice. -/
theorem endWait (s : State) (k : Nat) (w : WaitRec) (held aband : Bool) : s.SemsMoved (s.mod k fun x => x.endWait w held aband) := by
  refine ⟨fun j hj => ?_, fun j hj => ?_, rfl, rfl, rfl⟩ <;> by_cases hjk : k = j
  · rw [← hjk, State.sl_mod _ _ _ (hjk ▸ hj), Slice.endWait_eq]
  · rw [State.sl_mod_ne _ _ _ _ hjk]
  · rw [← hjk, State.sl_mod _ _ _ (hjk ▸ hj), Slice.endWait_eq]
  · rw [State.sl_mod_ne _ _ _ _ hjk]

theorem semTake (s : State) (n k : Nat) : s.SemsMoved (s.semTake n k).2 := of_slices rfl rfl rfl rfl

theorem semGrant (s : State) (n : Nat) : s.SemsMoved (s.semGrant n) := by
  unfold State.semGrant
  split
  · exact refl s
  · dsimp only
    split
    · exact (semTake s n _).trans (endWait ..)
    · exact semTake s n _

theorem semRelease (s : State) (n : Nat) (aband : Bool) : s.SemsMoved (s.semRelease n aband) := by
  unfold State.semRelease
  refine trans ?_ (semGrant _ n)
  split
  · exact of_slices (State.Logged.log ..).slices (State.Logged.log ..).mbox (State.Logged.log ..).pending (State.Logged.log ..).chip
  · exact modSem s n _

theorem abandonAll (s : State) (k : Nat) : s.SemsMoved (s.abandonAll k) := by
  unfold State.abandonAll
  generalize s.heldBy k = l
  induction l generalizing s with
  | nil => exact refl s
  | cons n l ih => exact (semRelease s n true).trans (ih _)

end State.SemsMoved

/-! ### The reset of a slice (R418, R471) -/

/-- A slice that its reset leaves in a state. -/
def Slice.resetAs (x : Slice) (st : SliceState) : Slice :=
  { Slice.reset with state := st, retired := x.retired, seq := { Seq.reset with nextKey := x.seq.nextKey } }

/-- What the reset of a slice leaves of the block. -/
theorem State.resetTo_resets (s : State) (hk : k < 32) (st : SliceState) : (s.resetTo k st).sl k = (s.sl k).resetAs st ∧
    (s.resetTo k st).mbox = s.mbox ∧ (s.resetTo k st).pending = s.pending ∧ (s.resetTo k st).chip = s.chip := by
  have hsems := State.SemsMoved.abandonAll s k
  let t := (s.abandonAll k).cleanFrames k 0 3140
  have hlog := t.mod_toState_logged hk (fun _ => (t.sl k).resetAs (t.sl k).state) st
  have hsl : (s.resetTo k st).sl k = (t.sl k).resetAs st := (hlog.sl k).trans (State.sl_setSl _ _ _ hk)
  have hkeep : (t.sl k).resetAs st = (s.sl k).resetAs st := by
    have hretired : (t.sl k).retired = (s.sl k).retired := hsems.retired k hk
    have hkey : (t.sl k).seq.nextKey = (s.sl k).seq.nextKey := hsems.nextKey k hk
    rw [Slice.resetAs, Slice.resetAs, hretired, hkey]
  exact ⟨hsl.trans hkeep, hlog.mbox.trans hsems.mbox, hlog.pending.trans hsems.pending, hlog.chip.trans hsems.chip⟩

/-! ### The command -/

theorem State.serviceFields_absent (hk : s.chip.model.slices ≤ m.f 16 1) : s.serviceNeed.pre m = some (.bad 16) :=
  if_pos (by simpa [State.present] using hk)

section fields
variable (hk : m.f 16 1 < s.chip.model.slices)
include hk

theorem State.serviceFields_present : s.serviceNeed.pre m = checks [(decide (4 < m.f 17 1), .bad 17)] :=
  if_neg (by simpa [State.present] using hk)

theorem State.serviceFields_badAction (haction : 4 < m.f 17 1) : s.serviceNeed.pre m = some (.bad 17) :=
  (State.serviceFields_present hk).trans (if_pos (decide_eq_true haction))

theorem State.serviceFields_passes (haction : m.f 17 1 ≤ 4) : s.serviceNeed.pre m = none :=
  (State.serviceFields_present hk).trans (if_neg (by simpa using haction))

end fields

theorem State.sliceService_refused (h : s.serviceOk (m.f 16 1) (m.f 17 1) = false) :
    s.sliceService m = .inl (s.refuseSlice (m.f 16 1), s) := by
  simp [State.sliceService, h]

/-- SLICE_SERVICE ends at once with a state. -/
def State.serviceEnds (t : State) (m : Cmd) : (Ends × State) ⊕ (Cmd × State) :=
  .inl (⟨0, 0, 0, [BitVec.ofNat 8 (t.sl (m.f 16 1)).state.code]⟩, t)

section service
variable (hok : s.serviceOk (m.f 16 1) (m.f 17 1) = true)
include hok

theorem State.sliceService_serves (ha : m.f 17 1 = 0) (hstate : (s.sl (m.f 16 1)).state ≠ .running) :
    s.sliceService m = (s.toState (m.f 16 1) .service).serviceEnds m := by
  rw [ha] at hok
  simp only [State.sliceService, hok, ha, hstate, Bool.not_true, Bool.false_eq_true, if_false, State.serviceEnds]

theorem State.sliceService_stops (ha : m.f 17 1 = 0) (hstate : (s.sl (m.f 16 1)).state = .running) :
    s.sliceService m = .inr ({ m with target := m.f 17 1 }, s.stopAtEnd (m.f 16 1) 3 .service) := by
  rw [ha] at hok
  simp only [State.sliceService, hok, ha, hstate, Bool.not_true, Bool.false_eq_true, if_false, if_true]

theorem State.sliceService_readies (ha : m.f 17 1 = 1) : s.sliceService m = (s.toState (m.f 16 1) .ready).serviceEnds m := by
  rw [ha] at hok
  simp only [State.sliceService, hok, ha, Bool.not_true, Bool.false_eq_true, if_false, State.serviceEnds]

theorem State.sliceService_resets (ha : m.f 17 1 = 2) :
    s.sliceService m = .inr ({ m with target := m.f 17 1 }, s.resetTo (m.f 16 1) .cold) := by
  rw [ha] at hok
  simp only [State.sliceService, hok, ha, Bool.not_true, Bool.false_eq_true, if_false]

theorem State.sliceService_turnsOff (ha : m.f 17 1 = 3) : s.sliceService m = (s.resetTo (m.f 16 1) .off).serviceEnds m := by
  rw [ha] at hok
  simp only [State.sliceService, hok, ha, Bool.not_true, Bool.false_eq_true, if_false, State.serviceEnds]

theorem State.sliceService_wakes (ha : m.f 17 1 = 4) :
    s.sliceService m = .inr ({ m with target := m.f 17 1 }, s.askWake (m.f 16 1)) := by
  rw [ha] at hok
  simp only [State.sliceService, hok, ha, Bool.not_true, Bool.false_eq_true, if_false]

end service

theorem State.askWake_asks (s : State) (k : Nat) : ∃ wakes, s.askWake k = { s with power := { s.power with wakes := wakes } } ∧
    k ∈ wakes := by
  unfold State.askWake
  split
  case isTrue h => exact ⟨s.power.wakes, rfl, List.contains_iff_mem.1 h⟩
  case isFalse => exact ⟨_, rfl, List.mem_append_right _ (List.mem_singleton.2 rfl)⟩

section exec
variable (h : Serves s ch m 0x09) (hclean : clean m [(16, 1), (17, 1)] = true) (hk : m.f 16 1 < s.chip.model.slices)
  (haction : m.f 17 1 ≤ 4)
include h hclean hk haction

theorem exec_sliceService_refused (hno : s.serviceOk (m.f 16 1) (m.f 17 1) = false) :
    exec (.sliceService ch) s = .next (refusedSlice s ch m (m.f 16 1)) :=
  h.actGo_ends (n := s.serviceNeed) hclean (State.serviceFields_passes hk haction) rfl (State.sliceService_refused hno) rfl rfl rfl

/-- A change of the slice that ends the command. -/
theorem exec_sliceService_ends (hrun : s.sliceService m = t.serviceEnds m) (hm : t.mbox = s.mbox) (hp : t.pending = s.pending)
    (hc : t.chip = s.chip) : ∃ u, exec (.sliceService ch) s = .next u ∧ completed u ch m 0 = true ∧ u.slices = t.slices :=
  ⟨_, h.actGo_ends (n := s.serviceNeed) hclean (State.serviceFields_passes hk haction) rfl hrun hm hp hc,
    completed_ended t ch m (by decide) _ _ _, rfl⟩

/-- A change of the slice after which the command goes on. -/
theorem exec_sliceService_goes {m' : Cmd} (hrun : s.sliceService m = .inr (m', t)) (hmsg : m'.msg = m.msg) (hm : t.mbox = s.mbox)
    (hp : t.pending = s.pending) (hc : t.chip = s.chip) : ∃ u, exec (.sliceService ch) s = .next u ∧ goesOn s u ch m = true ∧
      u.slices = t.slices ∧ u.power = t.power :=
  h.actGo_goes (n := s.serviceNeed) hclean (State.serviceFields_passes hk haction) rfl hrun hmsg hm hp hc

/-- A slice whose state alone changes. -/
theorem exec_sliceService_toState {st : SliceState} (hrun : s.sliceService m = (s.toState (m.f 16 1) st).serviceEnds m) :
    ∃ t, exec (.sliceService ch) s = .next t ∧ completed t ch m 0 = true ∧ (∀ j, j ≠ m.f 16 1 → t.sl j = s.sl j) ∧
      t.sl (m.f 16 1) = { s.sl (m.f 16 1) with state := st } := by
  have hto := (State.SliceTo.refl s (m.f 16 1)).toState (hk.trans_le (Model.slices_le _)) st
  obtain ⟨t, hexec, hdone, hslices⟩ := exec_sliceService_ends h hclean hk haction hrun hto.mbox hto.pending hto.chip
  exact ⟨t, hexec, hdone, fun j hj => (State.sl_congr hslices j).trans (hto.sl_ne hj),
    (State.sl_congr hslices _).trans (hto.sl (hk.trans_le (Model.slices_le _)))⟩

end exec

/-! ### The obligation -/

/-- Settles O53: each command refuses, ends or goes on as its lemma says. -/
theorem sliceCommands : Obligations.SliceCommands := by
  unfold Obligations.SliceCommands
  intro s ch m ks all run k x state
  refine ⟨fun hs hclean => ?start, fun hs hclean => ?stop, fun hs hclean => ?service⟩ <;> have h := Serves.of_serving hs
  case start =>
    exact ⟨fun hall => h.actGo_stops (n := s.startNeed) hclean (absent_stops [] hall),
      fun j hall hfind => h.actGo_ends (n := s.startNeed) hclean (absent_checks [] hall) rfl (State.startCmd_refused hfind) rfl rfl rfl,
      exec_start_goes h hclean⟩
  case stop =>
    refine ⟨fun hall => h.actGo_stops (n := s.stopNeed) hclean (absent_stops _ hall), fun j hall hflag hfind =>
      h.actGo_ends (n := s.stopNeed) hclean (State.stopNeed_passes hall hflag) rfl (State.stopBath_cold hfind) rfl rfl rfl,
      fun hall hflag hcold hsplit => ⟨fun hrun => ?_, fun hrun hmode => ?_, fun hrun hmode => ?_⟩⟩
    · exact h.actGo_ends (n := s.stopNeed) hclean (State.stopNeed_passes hall hflag) rfl (State.stopBath_nothing hcold hsplit hrun)
        rfl rfl rfl
    · exact exec_stopBath_frameEnd h hclean hall hflag hcold hsplit hrun hmode
    · exact exec_stopBath_now h hclean hall hflag hcold hsplit hrun hmode
  case service =>
    refine ⟨fun hk => h.actGo_stops (n := s.serviceNeed) hclean (State.serviceFields_absent hk), fun hk => ?_⟩
    have hk32 : k < 32 := hk.trans_le (Model.slices_le _)
    refine ⟨fun haction => h.actGo_stops (n := s.serviceNeed) hclean (State.serviceFields_badAction hk haction),
      fun haction hno => exec_sliceService_refused h hclean hk haction hno, fun hchange => ?change, fun ha hstate hwhole => ?stops,
      fun ha hstate => ?resets, fun ha hstate => ?off, fun ha hstate hret hmfg => ?wakes⟩
    case change =>
      rcases hchange with ⟨ha, hstate⟩ | ⟨ha, hstate⟩
      · have hok : s.serviceOk k (m.f 17 1) = true := by
          rcases hstate with hst | hst <;> simp only [State.serviceOk, ha, show (s.sl k).state = _ from hst]
        have hidle : (s.sl k).state ≠ .running := by rcases hstate with hst | hst <;> exact fun h => by simp [state, x, h] at hst
        simp only [ha, if_true]
        exact exec_sliceService_toState h hclean hk (by omega) (State.sliceService_serves hok ha hidle)
      · have hok : s.serviceOk k (m.f 17 1) = true := by simp only [State.serviceOk, ha, show (s.sl k).state = _ from hstate]
        simp only [ha, one_ne_zero, if_false]
        exact exec_sliceService_toState h hclean hk (by omega) (State.sliceService_readies hok ha)
    case stops =>
      have hok : s.serviceOk k (m.f 17 1) = true := by
        simp only [State.serviceOk, ha, show (s.sl k).state = _ from hstate, hwhole, Bool.not_false]
      obtain ⟨t, hexec, hgo, hslices, -⟩ := exec_sliceService_goes h hclean hk (by omega) (State.sliceService_stops hok ha hstate)
        rfl rfl rfl rfl
      exact ⟨t, hexec, hgo, (State.sl_congr hslices k).trans (State.sl_mod _ _ _ hk32),
        fun j hj => (State.sl_congr hslices j).trans (State.sl_mod_ne _ _ _ _ hj.symm)⟩
    case resets =>
      have hok : s.serviceOk k (m.f 17 1) = true := by
        rcases hstate with hst | hst | hst <;> simp only [State.serviceOk, ha, show (s.sl k).state = _ from hst]
      obtain ⟨hsl, hmbox, hpending, hchip⟩ := s.resetTo_resets hk32 .cold
      obtain ⟨t, hexec, hgo, hslices, -⟩ := exec_sliceService_goes h hclean hk (by omega) (State.sliceService_resets hok ha) rfl
        hmbox hpending hchip
      exact ⟨t, hexec, hgo, (State.sl_congr hslices k).trans hsl⟩
    case off =>
      have hok : s.serviceOk k (m.f 17 1) = true := by
        rcases hstate with hst | hst | hst | ⟨hst, harmed⟩ <;> simp only [State.serviceOk, ha, show (s.sl k).state = _ from hst]
        rw [show (s.sl k).armed = _ from harmed]; rfl
      obtain ⟨hsl, hmbox, hpending, hchip⟩ := s.resetTo_resets hk32 .off
      obtain ⟨t, hexec, hdone, hslices⟩ := exec_sliceService_ends h hclean hk (by omega) (State.sliceService_turnsOff hok ha)
        hmbox hpending hchip
      exact ⟨t, hexec, hdone, (State.sl_congr hslices k).trans hsl⟩
    case wakes =>
      have hok : s.serviceOk k (m.f 17 1) = true := by
        simp only [State.serviceOk, ha, show (s.sl k).state = _ from hstate, State.isRetired, show (s.sl k).retired = _ from hret, hmfg,
          Bool.or_false, Bool.not_false]
      obtain ⟨wakes, hask, hmem⟩ := s.askWake_asks k
      obtain ⟨t, hexec, hgo, hslices, hpower⟩ := exec_sliceService_goes h hclean hk (by omega) (State.sliceService_wakes hok ha) rfl
        (by rw [hask]) (by rw [hask]) (by rw [hask])
      rw [hask] at hslices hpower
      exact ⟨t, hexec, hgo, by rw [hpower]; exact hmem, hslices⟩

end Sys2Proof.Machine
end
